-- ==== Sys2Proof/Word.lean ====
section
/-! DEFINITION. The word types of the PF7440 and the keyed tables its state is written in. -/

namespace Sys2Proof

/-- A byte of a frame, a mailbox, a message or a descriptor. -/
abbrev Byte := BitVec 8

/-- A 16-bit word: a parse register, a port ID, a mask. -/
abbrev Word16 := BitVec 16

/-- A 32-bit word: a BAR2 register (R613), an event payload word. -/
abbrev Word32 := BitVec 32

/-- A 64-bit word: a descriptor, a fibre header word, a map entry. -/
abbrev Word64 := BitVec 64

/-- A 128-bit word: a queue or policer descriptor, a timestamp entry. -/
abbrev Word128 := BitVec 128

/-- Bytes in the order they are stored or sent. -/
abbrev Bytes := List Byte

/-- A sparse array over unit numbers. Keys rise strictly, and no entry equals what an unlisted
key reads as; the operations are in Machine/Table.lean. -/
abbrev Tab (α : Type) := List (Nat × α)

end Sys2Proof
end

