-- ==== Sys2Proof/Syntax.lean ====
section
/-! DEFINITION. The commands the block takes: one constructor of `Instr` for each row of
spec/opcode_table.json, with its operands. A row of the table gives no operand fields, so the
operands are those its rule needs from outside the device: a unit number, a register word, the
bytes of a frame, a verdict of a decoder or an analogue reading (log entry 14). -/

namespace Sys2Proof

/-- The base address registers of R400. -/
inductive Bar where
  | bar0 | bar2 | bar4
  deriving DecidableEq, Repr

/-- The RC fields of the manual: the marks that a read clears (R9). -/
inductive RcField where
  /-- Skew high-water of a member channel (R97). -/
  | skewHigh (ch : Fin 4)
  /-- Staging occupancy high-water of an allocation (R130). -/
  | stagingHigh (alloc : Nat)
  /-- Occupancy high-water of a queue (R269). -/
  | queueOccupancy (q : Nat)
  /-- Sojourn high-water of a queue (R269). -/
  | queueSojourn (q : Nat)
  /-- Parse steps high-water of a slice (R203). -/
  | parseSteps (slice : Fin 2)
  /-- Offset high-water of a time domain (R344). -/
  | offsetHigh (d : Fin 2)
  /-- SNR low-water of a lane (R379, R398). -/
  | snrLow (lane : Fin 21)
  /-- Longest wake stall of a power domain (R495). -/
  | wakeStall (d : Fin 96)
  /-- Queue occupancy high-water of a cipher pipeline (R305). -/
  | pipeOccupancy (p : Fin 16)
  /-- VIN high-water and low-water (R612). -/
  | vinHigh
  | vinLow
  deriving DecidableEq, Repr

/-- The two detectors of a receive lane (R384). -/
inductive Detector where
  | los | lol
  deriving DecidableEq, Repr

/-- The two time domains (R306). -/
inductive TimeDomain where
  | a | b
  deriving DecidableEq, Repr

/-- The trigger rows of R159, in the order of that table (its rows 1 to 6). -/
inductive Trigger where
  /-- Lane loss of signal or loss of lock. -/
  | laneLoss
  /-- Laser-fault input. -/
  | laserFault
  /-- Loss of sync or signal fail. -/
  | syncOrFail
  /-- Channel mismatch. -/
  | channelMismatch
  /-- Skew. -/
  | skew
  /-- Signal degrade, header error or payload-label mismatch. -/
  | degrade
  deriving DecidableEq, Repr

/-- One downstream frame as it reaches the channel unit in SYNC (R46), with what the LDPC decoder makes of it where
no rule fixes that (R62, R63; log entry 44). -/
structure RxFrame where
  /-- The received bytes from frame bit 0 on. Bytes left off at the end carry information bytes of 0, without an
  error. -/
  bytes : Bytes
  /-- The frame bits that the decoder changes (R97). -/
  flips : List Nat
  /-- Codewords that the decoder gives up, 0 to 479 (R63). -/
  failed : List Nat
  /-- Arrival of the first bit of the start pattern on the main counter, in units of 2^-16 ns
  (R90, R323). -/
  arrival : Nat
  deriving DecidableEq, Repr

/-- The protocol services Knarrasar runs on a client port (R355, R473). -/
inductive ProtocolKind where
  | ptp | lacp | lldp | mka
  deriving DecidableEq, Repr

/-- What the protocol's own standard makes of a diverted frame; the texts of the standards are
outside the manual (00_scope.md), so the verdict is an operand. -/
inductive ProtocolAct where
  /-- The frame fails the bounds of R547 and is discarded and counted. -/
  | reject
  /-- LACP under IEEE 802.1AX: the member is, or is not, collecting and distributing. -/
  | lacp (distributing : Bool)
  /-- LLDP with the partner's EEE receive wake time in µs, where the frame carries it (R361). -/
  | lldp (tw : Option Nat)
  /-- MKA installs a SAK under a root for receive channel sc (none: transmit) and AN (R363). -/
  | mkaInstall (sc : Option (Fin 3)) (sci : Word64) (an : Fin 4) (root : Nat)
  /-- MKA puts the transmit SA with this AN in use. -/
  | mkaUse (an : Fin 4)
  /-- MKA retires an SA. -/
  | mkaRetire (sc : Option (Fin 3)) (an : Fin 4)
  /-- A PTP exchange completes: the slave offset in units of 2^-16 ns and its age in ns (R328). -/
  | ptpSample (e : Int) (age : Nat)
  /-- A PTP frame that changes no more than the port's SLAVE role. -/
  | ptpSlave (slave : Bool)
  /-- A Delay_Req of a clock that follows this port. -/
  | ptpDelayReq
  deriving DecidableEq, Repr


/-- The decision of R497 on one word read. -/
inductive EccVerdict where
  | clean | correctable | poisoned | uncorrectable
  deriving DecidableEq, Repr

/-- Why a merge-buffer entry retires (R502): a write that completes its mask or needs its place, 32 clocks
without a write that joins it, or a read of its word. -/
inductive RetireCause where
  | fullMask
  | timeout
  | bufferFull
  | sameWordRead (region : Fin 15) (addr : Nat)
  deriving DecidableEq, Repr

/-- A write that a memory controller takes (R501): the bytes of a code word that the mask names, and the
decision on the old word, which is read where an entry is allocated. -/
structure MergeWrite where
  region : Fin 15
  addr : Nat
  data : BitVec 128
  mask : BitVec 16
  old : EccVerdict
  deriving DecidableEq, Repr

/-- The wake sources of R486. -/
inductive WakeSource where
  | clientEnergy (lane : Fin 16)
  | mgmtEnergy
  | wakePattern (ch : Fin 4)
  | dozeEnd
  | hostOrder
  | stateCommand
  deriving DecidableEq, Repr

/-- What a flow-export record reports (R541, R542). -/
inductive IpfixEntry where
  | exactMatch (way : Fin 4) (index : Nat)
  | rule (entry : Nat)
  deriving DecidableEq, Repr

/-- The phases of receive low-power idle on a client lane (R387). -/
inductive LpiPhase where
  /-- The partner goes quiet. -/
  | quiet
  /-- 10 µs after its refresh or wake signalling returned. -/
  | refreshed
  /-- It stayed quiet beyond the refresh interval. -/
  | overdue
  deriving DecidableEq, Repr

/-- The JTAG instructions of R584. -/
inductive JtagInstr where
  | bypass | idcode | samplePreload | extest | extestPulse | extestTrain | clamp | highz
  deriving DecidableEq, Repr

/-- What a receive lane's detectors have measured (R384, R388). -/
inductive LaneSeen where
  /-- The differential peak-to-peak amplitude, in units of 2 mV, and for how many µs it has stayed so. -/
  | amplitude (units us : Nat)
  /-- By how many ppm the recovered clock differed in each 1 µs window, the latest first; a phase slip; the CDR's
  lock. -/
  | clock (ppm : List Nat) (slip locked : Bool)
  /-- On-off cycles counted within 100 µs, and their rate in kHz. -/
  | wake (cycles khz : Nat)
  deriving DecidableEq, Repr

/-- What a background command found (R471, R559, R583). -/
inductive BgResult where
  /-- Flash write: the bytes read by DMA, none where a read, an erase or a program timed out. -/
  | flash (image : Option Bytes)
  /-- Self-test: one result byte per test. -/
  | selfTest (results : Bytes)
  /-- Replay: the offset of the first divergence, all ones for none. -/
  | replay (divergence : Word64)
  /-- Knarrasar found an inconsistency in itself (R418). -/
  | internal
  deriving DecidableEq, Repr

/-- What the host sets in the function's configuration space, and the link it has trained to (R399, R403). -/
inductive PcieSetting where
  | maxPayload (bytes : Nat)
  | maxReadRequest (bytes : Nat)
  | completionTimeout (us : Nat)
  | aspmL1 (on : Bool)
  | link (gen width : Nat)
  deriving DecidableEq, Repr

/-- An access of the host to the function (R11, R399, R401). -/
inductive HostAccess where
  /-- So many bytes read from an offset of the BAR. -/
  | read (off len : Nat)
  /-- Bytes written from an offset; a byte whose enable is clear is none. -/
  | write (off : Nat) (data : List (Option Byte))
  /-- A 32-bit word of configuration space read. -/
  | configRead (off : Nat)
  /-- A setting of the host's in configuration space, or what link training has come to. -/
  | setPcie (x : PcieSetting)
  deriving DecidableEq, Repr

/-- The commands of the block, one constructor per row of spec/opcode_table.json. -/
inductive Instr where

  /-- MBX_DOORBELL (R410): v is the value written. -/
  | mbxDoorbell (v : Word32)
  /-- MBX_STATUS_READ (R417): the read covers offset 0x804 of mailbox n. -/
  | mbxStatusRead (n : Fin 16)
  /-- MAILBOX_WRITE (R409): from mailbox offset off; a byte whose enable is clear is none. -/
  | mailboxWrite (n : Fin 16) (off : Nat) (data : List (Option Byte))
  /-- MBX_DONE_CLEAR (R619): same: the DONE bits that hardware sets in the same cycle. -/
  | mbxDoneClear (v : Word32) (same : Word16)
  /-- MBX_IRQ_EN_WRITE (R619). -/
  | mbxIrqEnWrite (v : Word32)
  /-- EVT_ENABLE (R420). -/
  | evtEnable
  /-- EVT_DISABLE (R620). -/
  | evtDisable
  /-- EVT_CONSUMER_WRITE (R621). -/
  | evtConsumerWrite (v : Word32)
  /-- MSIX_MOD_WRITE (R622). -/
  | msixModWrite (vec : Fin 32) (v : Word32)
  /-- HRING_RX_TAIL_WRITE (R623). -/
  | hringRxTailWrite (r : Fin 4) (v : Word32)
  /-- HRING_TX_TAIL_WRITE (R623). -/
  | hringTxTailWrite (r : Fin 4) (v : Word32)
  /-- JRN_WINDOW_SEQ_WRITE (R435): v is the high word; the low word is the one held. -/
  | jrnWindowSeqWrite (v : Word32)
  /-- JRN_WINDOW_COPY_DONE (R625). -/
  | jrnWindowCopyDone
  /-- TIME_SNAP (R626). -/
  | timeSnap (v : Word32)
  /-- FAULT_STATUS_CLEAR (R617): same: the bits that hardware sets in the same cycle. -/
  | faultStatusClear (v : Word32) (same : Word32)
  /-- MDIO_CMD_GO (R630). -/
  | mdioCmdGo (v : Word32)
  /-- MDIO_FRAME_DONE (R586): found: a device answered; data: what it returned. -/
  | mdioFrameDone (found : Bool) (data : Word16)
  /-- REGISTER_WRITE (R613): off is the BAR2 offset. -/
  | registerWrite (off : Nat) (v : Word32)
  /-- REGISTER_LOW_WORD_WRITE (R13): off is the BAR2 offset. -/
  | registerLowWordWrite (off : Nat) (v : Word32)
  /-- REGISTER_LOW_WORD_READ (R12): off is the BAR2 offset of the low word, or of the high word read after it. -/
  | registerLowWordRead (off : Nat)
  /-- RC_FIELD_READ (R9): event: what falls on the field in the cycle of the read. -/
  | rcFieldRead (f : RcField) (event : Nat)
  /-- UNSUPPORTED_REQUEST (R11, R401): an access to a BAR, none for one of no accepted kind. An access is judged; one
  that the device accepts has its effect (log entry 48). -/
  | unsupportedRequest (b : Bar) (access : Option HostAccess := none)
  /-- BUS_MASTER_DISABLE (R404). -/
  | busMasterDisable
  /-- PCI_PM_D3HOT (R404). -/
  | pciPmD3hot
  /-- BUS_MASTER_ENABLE (R404). -/
  | busMasterEnable
  /-- FUNCTION_LEVEL_RESET (R405). -/
  | functionLevelReset
  /-- PERST_N_LOW (R580, R604): ps for which PERST_N has been low; the width it must keep where none is given. -/
  | perstNLow (held : Nat := 100000)
  /-- COMMAND_DEADLINE_EXPIRY (R415): mailbox n; items already done when Knarrasar stops; internal: it stops because it
  has found an inconsistency in itself, which has no row of its own (R418; log entry 47). -/
  | commandDeadlineExpiry (n : Fin 16) (items : Nat) (internal : Bool := false)
  /-- DEVICE_READ_STATE (R450): mailbox n. -/
  | deviceReadState (n : Fin 16)
  /-- DEVICE_START (R451): mailbox n. -/
  | deviceStart (n : Fin 16)
  /-- DEVICE_STOP (R452): mailbox n. -/
  | deviceStop (n : Fin 16)
  /-- DEVICE_SET_PROFILE (R42): mailbox n. -/
  | deviceSetProfile (n : Fin 16)
  /-- DEVICE_SET_RING (R427): mailbox n. -/
  | deviceSetRing (n : Fin 16)
  /-- DEVICE_ENTER_MAINTENANCE (R442): mailbox n. -/
  | deviceEnterMaintenance (n : Fin 16)
  /-- DEVICE_LEAVE_MAINTENANCE (R453): mailbox n. -/
  | deviceLeaveMaintenance (n : Fin 16)
  /-- DEVICE_LEAVE_SAFE (R453): mailbox n. -/
  | deviceLeaveSafe (n : Fin 16)
  /-- DEVICE_RESET (R454): mailbox n. -/
  | deviceReset (n : Fin 16)
  /-- DEVICE_ERASE_KEYS (R454): mailbox n. -/
  | deviceEraseKeys (n : Fin 16)
  /-- DEVICE_NOP (R454): mailbox n. -/
  | deviceNop (n : Fin 16)
  /-- DEVICE_READ_IDENTITY (R152): mailbox n. -/
  | deviceReadIdentity (n : Fin 16)
  /-- FIBRE_SET_CHANNEL (R456): mailbox n. -/
  | fibreSetChannel (n : Fin 16)
  /-- FIBRE_SET_BOND (R456): mailbox n. -/
  | fibreSetBond (n : Fin 16)
  /-- FIBRE_SET_GROUPS (R456): mailbox n. -/
  | fibreSetGroups (n : Fin 16)
  /-- FIBRE_SET_PORT_ID (R456): mailbox n. -/
  | fibreSetPortId (n : Fin 16)
  /-- FIBRE_SET_UPSTREAM (R455): mailbox n. -/
  | fibreSetUpstream (n : Fin 16)
  /-- FIBRE_SET_ALLOC_QUEUES (R456): mailbox n. -/
  | fibreSetAllocQueues (n : Fin 16)
  /-- FIBRE_SET_HE_KEY (R456): mailbox n. -/
  | fibreSetHeKey (n : Fin 16)
  /-- FIBRE_SET_POLICY (R456): mailbox n. -/
  | fibreSetPolicy (n : Fin 16)
  /-- FIBRE_READ_STATUS (R455): mailbox n. -/
  | fibreReadStatus (n : Fin 16)
  /-- FIBRE_READ_COUNTERS (R455): mailbox n. -/
  | fibreReadCounters (n : Fin 16)
  /-- PARSE_LOAD (R458): mailbox n. -/
  | parseLoad (n : Fin 16)
  /-- PARSE_INSTALL (R173): mailbox n. -/
  | parseInstall (n : Fin 16)
  /-- RULES_SET_COMPARATOR (R186): mailbox n. -/
  | rulesSetComparator (n : Fin 16)
  /-- RULES_BEGIN (R191): mailbox n. -/
  | rulesBegin (n : Fin 16)
  /-- RULES_ADD (R191): mailbox n. -/
  | rulesAdd (n : Fin 16)
  /-- RULES_REMOVE (R191): mailbox n. -/
  | rulesRemove (n : Fin 16)
  /-- RULES_ABORT (R191): mailbox n. -/
  | rulesAbort (n : Fin 16)
  /-- RULES_COMMIT (R192): mailbox n. -/
  | rulesCommit (n : Fin 16)
  /-- RULES_READ (R458): mailbox n. -/
  | rulesRead (n : Fin 16)
  /-- TABLE_SET_PROFILE (R207): mailbox n. -/
  | tableSetProfile (n : Fin 16)
  /-- TABLE_ADD (R219): mailbox n. -/
  | tableAdd (n : Fin 16)
  /-- TABLE_MODIFY (R217): mailbox n. -/
  | tableModify (n : Fin 16)
  /-- TABLE_DELETE (R218): mailbox n. -/
  | tableDelete (n : Fin 16)
  /-- TABLE_READ (R219): mailbox n. -/
  | tableRead (n : Fin 16)
  /-- TABLE_SET_PORT (R229): mailbox n. -/
  | tableSetPort (n : Fin 16)
  /-- TABLE_SET_VLAN (R230): mailbox n. -/
  | tableSetVlan (n : Fin 16)
  /-- TABLE_SET_AGING (R459): mailbox n. -/
  | tableSetAging (n : Fin 16)
  /-- TABLE_READ_AGED (R460): mailbox n. -/
  | tableReadAged (n : Fin 16)
  /-- TRAFFIC_SET_QUEUE (R238): mailbox n. -/
  | trafficSetQueue (n : Fin 16)
  /-- TRAFFIC_FLUSH_QUEUE (R242): mailbox n. -/
  | trafficFlushQueue (n : Fin 16)
  /-- TRAFFIC_SET_POLICER (R254): mailbox n. -/
  | trafficSetPolicer (n : Fin 16)
  /-- TRAFFIC_SET_SHAPER (R258): mailbox n. -/
  | trafficSetShaper (n : Fin 16)
  /-- TRAFFIC_SET_PAUSE (R259): mailbox n. -/
  | trafficSetPause (n : Fin 16)
  /-- TRAFFIC_SET_GATE (R266): mailbox n. -/
  | trafficSetGate (n : Fin 16)
  /-- TRAFFIC_SET_HISTOGRAM (R270): mailbox n. -/
  | trafficSetHistogram (n : Fin 16)
  /-- TRAFFIC_READ (R461): mailbox n. -/
  | trafficRead (n : Fin 16)
  /-- TRAFFIC_READ_HISTOGRAM (R461): mailbox n. -/
  | trafficReadHistogram (n : Fin 16)
  /-- CIPHER_SET_CAK (R463): mailbox n; dma: the 32 bytes the DMA read returns, none when it fails. -/
  | cipherSetCak (n : Fin 16) (dma : Option Bytes)
  /-- CIPHER_SET_MACSEC (R462): mailbox n. -/
  | cipherSetMacsec (n : Fin 16)
  /-- CIPHER_SET_THRESHOLD (R300): mailbox n. -/
  | cipherSetThreshold (n : Fin 16)
  /-- CIPHER_READ_STATUS (R462): mailbox n. -/
  | cipherReadStatus (n : Fin 16)
  /-- TIME_SET (R309): mailbox n. -/
  | timeSet (n : Fin 16)
  /-- TIME_STEP (R464): mailbox n. -/
  | timeStep (n : Fin 16)
  /-- TIME_SET_SERVO (R314): mailbox n. -/
  | timeSetServo (n : Fin 16)
  /-- TIME_SELECT_DOMAIN (R318): mailbox n. -/
  | timeSelectDomain (n : Fin 16)
  /-- TIME_SET_FIBRE (R321): mailbox n. -/
  | timeSetFibre (n : Fin 16)
  /-- TIME_READ_FIBRE (R324): mailbox n. -/
  | timeReadFibre (n : Fin 16)
  /-- TIME_SET_SOURCE (R328): mailbox n. -/
  | timeSetSource (n : Fin 16)
  /-- TIME_SET_IO (R337): mailbox n. -/
  | timeSetIo (n : Fin 16)
  /-- TIME_SET_PTP (R464): mailbox n. -/
  | timeSetPtp (n : Fin 16)
  /-- TIME_READ_STATUS (R464): mailbox n. -/
  | timeReadStatus (n : Fin 16)
  /-- PORT_CONFIGURE (R347): mailbox n. -/
  | portConfigure (n : Fin 16)
  /-- PORT_SET_FILTER (R354): mailbox n. -/
  | portSetFilter (n : Fin 16)
  /-- PORT_SET_ADDRESS (R359): mailbox n. -/
  | portSetAddress (n : Fin 16)
  /-- PORT_SET_AGGREGATION (R367): mailbox n. -/
  | portSetAggregation (n : Fin 16)
  /-- PORT_SET_MGMT (R368): mailbox n. -/
  | portSetMgmt (n : Fin 16)
  /-- PORT_SET_LLDP (R465): mailbox n. -/
  | portSetLldp (n : Fin 16)
  /-- PORT_READ_STATUS (R465): mailbox n. -/
  | portReadStatus (n : Fin 16)
  /-- PORT_READ_COUNTERS (R465): mailbox n. -/
  | portReadCounters (n : Fin 16)
  /-- LANE_CONFIGURE (R375): mailbox n. -/
  | laneConfigure (n : Fin 16)
  /-- LANE_SET_TEST (R395): mailbox n. -/
  | laneSetTest (n : Fin 16)
  /-- LANE_INJECT (R394): mailbox n. -/
  | laneInject (n : Fin 16)
  /-- LANE_READ_STATUS (R379): mailbox n. -/
  | laneReadStatus (n : Fin 16)
  /-- LANE_READ_COUNTERS (R466): mailbox n. -/
  | laneReadCounters (n : Fin 16)
  /-- POWER_SET_STATE (R479): mailbox n. -/
  | powerSetState (n : Fin 16)
  /-- POWER_SET_CAP (R490): mailbox n. -/
  | powerSetCap (n : Fin 16)
  /-- POWER_SET_DROOP (R488): mailbox n. -/
  | powerSetDroop (n : Fin 16)
  /-- POWER_READ_STATUS (R467): mailbox n. -/
  | powerReadStatus (n : Fin 16)
  /-- OBS_SET_COUNTER (R516): mailbox n. -/
  | obsSetCounter (n : Fin 16)
  /-- OBS_SET_DUMP (R523): mailbox n. -/
  | obsSetDump (n : Fin 16)
  /-- OBS_READ_GROUP (R517): mailbox n. -/
  | obsReadGroup (n : Fin 16)
  /-- OBS_SET_SAMPLING (R528): mailbox n. -/
  | obsSetSampling (n : Fin 16)
  /-- OBS_READ_AUDIT (R539): mailbox n. -/
  | obsReadAudit (n : Fin 16)
  /-- OBS_SET_IPFIX (R540): mailbox n. -/
  | obsSetIpfix (n : Fin 16)
  /-- OBS_SET_TRAP (R202): mailbox n. -/
  | obsSetTrap (n : Fin 16)
  /-- OBS_READ_DROPS (R469): mailbox n. -/
  | obsReadDrops (n : Fin 16)
  /-- OBS_SET_ECC (R504): mailbox n. -/
  | obsSetEcc (n : Fin 16)
  /-- JOURNAL_READ (R435): mailbox n. -/
  | journalRead (n : Fin 16)
  /-- RECORDER_SET (R555): mailbox n. -/
  | recorderSet (n : Fin 16)
  /-- RECORDER_READ (R470): mailbox n. -/
  | recorderRead (n : Fin 16)
  /-- MAINT_READ_VERSION (R471): mailbox n. -/
  | maintReadVersion (n : Fin 16)
  /-- MAINT_FLASH_WRITE (R583): mailbox n. -/
  | maintFlashWrite (n : Fin 16)
  /-- MAINT_SELECT_IMAGE (R564): mailbox n. -/
  | maintSelectImage (n : Fin 16)
  /-- MAINT_SELF_TEST (R471): mailbox n. -/
  | maintSelfTest (n : Fin 16)
  /-- MAINT_REPLAY (R559): mailbox n. -/
  | maintReplay (n : Fin 16)
  /-- MAINT_ABORT (R448): mailbox n. -/
  | maintAbort (n : Fin 16)
  /-- BACKGROUND_COMMAND_DONE (R412): the background command of mailbox n and what it found. -/
  | backgroundCommandDone (n : Fin 16) (res : BgResult)
  /-- POWER_ON (R590). -/
  | powerOn
  /-- UNDER_VOLTAGE_LOCKOUT (R590). -/
  | underVoltageLockout
  /-- RESET_RELEASE (R605): ps for which RESET_N has been high after it was low. -/
  | resetRelease (held : Nat := 1000000)
  /-- PIN_RESET (R601): ps for which RESET_N has been low; the width it must keep where none is given. -/
  | pinReset (held : Nat := 1000000)
  /-- BOOT_SELECT (R565): readMode: the flash declares the read mode of R582; slow: slots a page of which takes more
  than 5 ms to read (R547). -/
  | bootSelect (readMode : Bool) (slow : List (Fin 2) := [])
  /-- LOADING_COMPLETE (R442). -/
  | loadingComplete
  /-- IMAGE_CONFIRM (R565). -/
  | imageConfirm
  /-- REFCLK156_QUALIFY (R600). -/
  | refclk156Qualify
  /-- REFCLK156_LOSS (R600). -/
  | refclk156Loss
  /-- PGOOD_IN_TRANSITION (R591): the pin's new level, and how long it has held it, in ps. -/
  | pgoodInTransition (level : Bool) (held : Nat := 1000000)
  /-- DYING_GASP_CLEAR (R591). -/
  | dyingGaspClear
  /-- VIN_SAMPLE (R589): the 1 µs average in mV. -/
  | vinSample (mV : Nat)
  /-- VIO_OPT_LOW (R576, R580): ps for which VIO_OPT has been below 1.6 V. -/
  | vioOptLow (held : Nat := 10000000)
  /-- VIO_OPT_RESTORE (R576, R546): ps for which VIO_OPT has been above 1.65 V. -/
  | vioOptRestore (held : Nat := 10000000)
  /-- ALARM (R302): source bit of R462. -/
  | alarm (src : Fin 5)
  /-- ERASE_DONE (R302). -/
  | eraseDone
  /-- TAMPER_CHECK (R547): same: the sense input equals the driven pattern. -/
  | tamperCheck (same : Bool)
  /-- LOCKSTEP_MISMATCH (R549). -/
  | lockstepMismatch
  /-- WATCHDOG (R550): the stalled event loop. -/
  | watchdog (loop : Fin 32)
  /-- HIVE_MEMORY_ERROR (R507). -/
  | hiveMemoryError
  /-- THERMAL_CONVERSION (R547): a sensor and its reading in units of 0.1 °C, and the others of the same conversion
  with theirs. -/
  | thermalConversion (sensor : Fin 24) (t : Int) (others : List (Fin 24 × Int) := [])
  /-- THROTTLE_RELEASE (R38). -/
  | throttleRelease
  /-- SENSOR_FAILED (R547). -/
  | sensorFailed (sensor : Fin 24)
  /-- DROOP_SAG (R488). -/
  | droopSag (d : Fin 48)
  /-- DROOP_STRETCH_END (R488). -/
  | droopStretchEnd (d : Fin 48)
  /-- POWER_CAP_EVALUATION (R490): the 1 ms average of input power. -/
  | powerCapEvaluation (mW : Nat)
  /-- DEGRADED_EVALUATION (R443). -/
  | degradedEvaluation
  /-- TXFAULT_TRANSITION (R128): the pin's new level, true asserted, and how long it has held it, in ps. -/
  | txfaultTransition (ch : Fin 4) (level : Bool) (held : Nat := 2000000)
  /-- GPIO_INPUT_TRANSITION (R587): the pin's new level, and how long it has held it, in ps. -/
  | gpioInputTransition (pin : Fin 16) (level : Bool) (held : Nat := 10000000)
  /-- REFERENCE_INPUT_CHANGE (R336). -/
  | referenceInputChange (qualified : Bool)
  /-- PPS_IN_EDGE (R340): width: that of the pulse, in ps. -/
  | ppsInEdge (width : Nat := 100000)
  /-- TOD_IN_MESSAGE (R340): the 16 bytes received, and whether every character's frame was good. -/
  | todInMessage (msg : Bytes) (framed : Bool := true)
  /-- LANE_DETECTOR (R384). -/
  | laneDetector (lane : Fin 21) (det : Detector) (raised : Bool) (seen : Option LaneSeen := none)
  /-- ENERGY_DETECT (R388). -/
  | energyDetect (lane : Fin 21) (seen : Option LaneSeen := none)
  /-- LANE_DEEP_ENTRY_DONE (R389). -/
  | laneDeepEntryDone (lane : Fin 21)
  /-- LANE_READY (R390): signal: a signal was present; snr in 0.1 dB. -/
  | laneReady (lane : Fin 21) (signal : Bool) (snr : Nat)
  /-- CHECKER_LOCK_CHANGE (R393): bits compared and errors found since the last change. -/
  | checkerLockChange (lane : Fin 21) (locked : Bool) (bits bitErrors symErrors : Nat)
  /-- LINK_UP (R351). -/
  | linkUp (p : Fin 16)
  /-- LINK_DOWN (R351). -/
  | linkDown (p : Fin 16)
  /-- AN_RESTART (R350): fecFailed: FEC resolution failed, else 500 ms passed without link. -/
  | anRestart (p : Fin 16) (fecFailed : Bool)
  /-- LPI_ENTRY (R361). -/
  | lpiEntry (p : Fin 16)
  /-- CLIENT_FRAME_RECEIVE (R352, R368): frame: destination address to FCS, on the management lane (port 16) as its
  bytes stand there; room: the ingress FIFO had room; pcsOk: no error character nor failed codeword. -/
  | clientFrameReceive (p : Fin 17) (frame : Bytes) (room pcsOk : Bool)
  /-- PAUSE_TIMER_EXPIRY (R262). -/
  | pauseTimerExpiry (p : Fin 16)
  /-- PROTOCOL_FRAME (R355): the head diverted frame of port p and what the protocol standard makes of it. -/
  | protocolFrame (p : Fin 17) (act : ProtocolAct)
  /-- PTP_TIMEOUT (R547). -/
  | ptpTimeout (p : Fin 16)
  /-- HUNT_MATCH (R52): bit offset in the stream and the 64-bit window. -/
  | huntMatch (ch : Fin 4) (offset : Nat) (window : Word64)
  /-- CANDIDATE_TEST (R52). -/
  | candidateTest (ch : Fin 4) (slot : Fin 4) (window word0 : Word64)
  /-- PRESYNC_TEST (R53). -/
  | presyncTest (ch : Fin 4) (window word0 : Word64)
  /-- SYNC_FRAME_TEST (R54). -/
  | syncFrameTest (ch : Fin 4) (window : Word64)
  /-- DOWNSTREAM_FRAME (R55). -/
  | downstreamFrame (ch : Fin 4) (f : RxFrame)
  /-- SIGNAL_FAIL_WINDOW (R95). -/
  | signalFailWindow (ch : Fin 4)
  /-- SIGNAL_DEGRADE_WINDOW (R95). -/
  | signalDegradeWindow (ch : Fin 4)
  /-- PFE_FRAME (R83): the next PFE frame of the channel's region; its bytes are in the state, so that the second
  operand carries nothing. -/
  | pfeFrame (ch : Fin 4) (none_ : Unit := ())
  /-- BOND_WAIT_EXPIRY (R91). -/
  | bondWaitExpiry
  /-- BOND_RESERVATION_FREE (R94). -/
  | bondReservationFree (ch : Fin 4)
  /-- TOD_FIELD_SAMPLE (R323). -/
  | todFieldSample
  /-- ASYMMETRY_ESTIMATE (R324). -/
  | asymmetryEstimate
  /-- SERVO_SAMPLE (R313): offset e in units of 2^-16 ns, age in ns since its capture. -/
  | servoSample (d : TimeDomain) (e : Int) (age : Nat)
  /-- DOMAIN_HOLDOVER (R312). -/
  | domainHoldover (d : TimeDomain)
  /-- SLEW_END (R319). -/
  | slewEnd
  /-- PPS_OUT_EDGE (R337). -/
  | ppsOutEdge
  /-- TOD_OUT_MESSAGE (R339). -/
  | todOutMessage
  /-- TIMESTAMP_DRAIN (R334). -/
  | timestampDrain (p : Fin 16)
  /-- STATION_MESSAGE (R140). -/
  | stationMessage
  /-- PROFILE (R144). -/
  | profile
  /-- RANGING_PARAMS (R144). -/
  | rangingParams
  /-- ASSIGN_STATION (R133). -/
  | assignStation
  /-- RANGING_TIME (R148). -/
  | rangingTime
  /-- DEACTIVATE (R133). -/
  | deactivate
  /-- SILENCE (R133). -/
  | silence
  /-- ALLOCATION (R145). -/
  | allocation
  /-- HE_KEY (R151). -/
  | heKey
  /-- REGISTRATION_TIMEOUT (R153): channel group g. -/
  | registrationTimeout (g : Fin 4)
  /-- KEY_SWITCH (R155). -/
  | keySwitch
  /-- EPOCH_SWITCH_APPLY (R155): channel group g. -/
  | epochSwitchApply (g : Fin 4)
  /-- EPOCH_RETIRE (R155): channel group g. -/
  | epochRetire (g : Fin 4)
  /-- DOZE_REPLY (R157). -/
  | dozeReply
  /-- DOZE_END (R158). -/
  | dozeEnd
  /-- RANGING_TIMER_EXPIRY (R133). -/
  | rangingTimerExpiry (ch : Fin 4)
  /-- F6_TIMER_EXPIRY (R133). -/
  | f6TimerExpiry (ch : Fin 4)
  /-- REKEY_INTERVAL (R156): channel group g. -/
  | rekeyInterval (g : Fin 4)
  /-- CONSEQUENT_ACTION (R159). -/
  | consequentAction (ch : Fin 4) (t : Trigger)
  /-- CHANNEL_RESTORE (R161). -/
  | channelRestore (ch : Fin 4)
  /-- STAGING_ADMIT (R119): ALLOC_ID. -/
  | stagingAdmit (alloc : Nat)
  /-- SECTION_COMMIT (R121). -/
  | sectionCommit (ch : Fin 4)
  /-- BURST_LAUNCH (R127). -/
  | burstLaunch (ch : Fin 4)
  /-- BURST_END (R129). -/
  | burstEnd (ch : Fin 4)
  /-- CIPHER_REQUEST (R279): source code of R279. -/
  | cipherRequest (src : Fin 11)
  /-- KEY_DERIVATION_DONE (R289). -/
  | keyDerivationDone
  /-- PIPELINE_START (R282): pipeline p. -/
  | pipelineStart (p : Fin 16)
  /-- BULK_SHARE (R284): pipeline p. -/
  | bulkShare (p : Fin 16)
  /-- CIPHER_RESULT (R281): pipeline p. -/
  | cipherResult (p : Fin 16)
  /-- TAG_FAILURE_CHECK (R300). -/
  | tagFailureCheck
  /-- PIPELINE_PASS (R225). -/
  | pipelinePass (slice : Fin 2) (reads : List (Nat × EccVerdict) := [])
  /-- LEARN_CANDIDATE (R223). -/
  | learnCandidate
  /-- LEARN_COMPLETION (R224). -/
  | learnCompletion
  /-- AGING_VISIT (R221). -/
  | agingVisit (way : Fin 4) (index : Nat)
  /-- RULES_RETIRE (R194). -/
  | rulesRetire
  /-- ENQUEUE (R240). -/
  | enqueue
  /-- XOFF_REFRESH (R261). -/
  | xoffRefresh (p : Fin 16) (c : Fin 8)
  /-- TRANSMIT_START (R263). -/
  | transmitStart (p : Fin 16)
  /-- EGRESS_FRAME_END (R243): uncorrectable: reading its cells met an uncorrectable error. -/
  | egressFrameEnd (p : Fin 16) (uncorrectable : Bool)
  /-- SOJOURN_CHECK (R248): queue number. -/
  | sojournCheck (q : Nat)
  /-- SPILL_READBACK (R245): queue number. -/
  | spillReadback (q : Nat)
  /-- SHAPER_REFILL (R257). -/
  | shaperRefill
  /-- GATE_CHANGE (R265): target as TRAFFIC_SET_GATE codes it. -/
  | gateChange (target : Word16)
  /-- GATE_LIST_SWITCH (R266): target as TRAFFIC_SET_GATE codes it. -/
  | gateListSwitch (target : Word16)
  /-- GATE_HOLD_TEST (R267): queue number. -/
  | gateHoldTest (q : Nat)
  /-- HOST_RX_DELIVER (R429): bufAddr: BUF_ADDR of the posted descriptor, read by DMA. -/
  | hostRxDeliver (r : Fin 4) (bufAddr : Word64)
  /-- HOST_TX_FETCH (R430): the 32 descriptor bytes and the buffer read by DMA, none when the read fails. -/
  | hostTxFetch (r : Fin 4) (desc : Bytes) (data : Option Bytes)
  /-- MERGE_RETIRE (R502): controller 0-23 by bank group, 24 DRAM. -/
  | mergeRetire (ctl : Fin 25) (cause : RetireCause) (writes : List MergeWrite := [])
  /-- SCRUB_READ (R505). -/
  | scrubRead (region : Fin 15) (addr : Nat) (verdict : EccVerdict) (user : Bool := false)
  /-- ECC_BUCKET_LEAK (R504). -/
  | eccBucketLeak (region : Fin 15)
  /-- ECC_FILTER_EXPIRY (R500). -/
  | eccFilterExpiry (region : Fin 15) (addr : Nat)
  /-- RESTORATION (R507): shadowOk: the shadow itself is readable. -/
  | restoration (region : Fin 15) (addr : Nat) (shadowOk : Bool)
  /-- DOMAIN_WAKE (R477): crcOk: verdict of the retention check where one is made. -/
  | domainWake (d : Fin 96) (crcOk : Bool)
  /-- DOMAIN_IDLE_OFF (R476). -/
  | domainIdleOff (d : Fin 96)
  /-- D2_ENTRY (R481). -/
  | d2Entry
  /-- WAKE_SOURCE (R486). -/
  | wakeSource (w : WakeSource)
  /-- D2_EXIT_DONE (R482): bank groups whose retention check failed. -/
  | d2ExitDone (lost : List (Fin 24))
  /-- D3_ENTRY_DONE (R483). -/
  | d3EntryDone
  /-- D3_EXIT_DONE (R484): bank groups whose retention check failed. -/
  | d3ExitDone (lost : List (Fin 24))
  /-- POWER_STATE_CHANGE_DONE (R480). -/
  | powerStateChangeDone
  /-- AUDIT_POINT (R533): everything it counts is in the state, so that its operand carries nothing. -/
  | auditPoint (none_ : Unit := ())
  /-- DUMP_DONE (R527). -/
  | dumpDone
  /-- IPFIX_RECORD (R542). -/
  | ipfixRecord (e : IpfixEntry) (reason : Byte)
  /-- IPFIX_TEMPLATE (R544). -/
  | ipfixTemplate
  /-- COLLECTOR_RESOLVE (R540). -/
  | collectorResolve (resolved : Bool)
  /-- OPTIC_DIAG_READ (R581): none: the transaction failed. -/
  | opticDiagRead (ch : Fin 4) (page : Option Bytes)
  /-- CHECKPOINT (R556). -/
  | checkpoint
  /-- RANDOM_RESEED (R554). -/
  | randomReseed
  /-- EVENT_BACKLOG_DRAIN (R424). -/
  | eventBacklogDrain
  /-- MSIX_HOLDOFF_EXPIRY (R426). -/
  | msixHoldoffExpiry (vec : Fin 32)
  /-- LINK_CONDITION_CHANGE (R351): the new conditions. -/
  | linkConditionChange (p : Fin 16) (aligned fecLock localFault remoteFault : Bool)
  /-- AUTO_NEGOTIATION_COMPLETE (R350): rsFec: resolution gave RS-FEC; trained: link training completed; precode:
  training enabled precoding (R371). -/
  | autoNegotiationComplete (p : Fin 16) (rsFec trained : Bool) (precode : Bool := false)
  /-- MGMT_SYNCHRONISATION_CHANGE (R383). -/
  | mgmtSynchronisationChange (acquired : Bool) (orderedSets : Nat := 3) (commas : Nat := 1)
  /-- RECEIVE_LPI (R387). -/
  | receiveLpi (lane : Fin 16) (phase : LpiPhase)
  /-- PERST_N_RELEASE (R604): ps for which PERST_N has been high. -/
  | perstNRelease (held : Nat := 100000)
  /-- JTAG_INSTRUCTION (R585). -/
  | jtagInstruction (i : JtagInstr)
  /-- SUSTAINED_SAG (R489). -/
  | sustainedSag (d : Fin 48)
  /-- PROTOCOL_TIMER (R473). -/
  | protocolTimer (kind : ProtocolKind) (p : Fin 17)
  /-- UNKNOWN_OPCODE (R414). -/
  | unknownOpcode (n : Fin 16)
  /-- COUNTER_ACCUMULATION (R542). -/
  | counterAccumulation
  deriving DecidableEq, Repr

end Sys2Proof
end

