-- ==== Sys2Proof/Decode.lean ====
section
/-! DEFINITION. The command a word spells. spec/opcode_table.json gives no row bits: its commands
arrive as host accesses, pins and events, not as words. So no word spells a command. -/

namespace Sys2Proof

/-- The command of nbits bits w: none, since no row of the table carries bits. -/
def decodeTableWord (_nbits _w : Nat) : Option Instr := none

end Sys2Proof
end

