-- ==== Sys2Proof/Machine/Operands.lean ====
section
/-! DEFINITION. The operand forms of the manual: bit fields, little-endian words of the host side
and big-endian words of the fibre side (R3 to R6), and signed fields. -/

namespace Sys2Proof.Machine

open Sys2Proof

/-- Bits [lo + n - 1 : lo] of a word (R3). -/
def fld (w lo n : Nat) : Nat := w / 2 ^ lo % 2 ^ n

/-- Bit i of a word. -/
def bit (w i : Nat) : Bool := w / 2 ^ i % 2 == 1

/-- A word with bit i set to b. -/
def setBit (w i : Nat) (b : Bool) : Nat :=
  let clear := w - (if bit w i then 2 ^ i else 0)
  if b then clear + 2 ^ i else clear

/-- 1 for true. -/
def b2n (b : Bool) : Nat := if b then 1 else 0

/-- Byte i of a byte array, 0 beyond its end. -/
def byteAt (b : Bytes) (i : Nat) : Nat := (b.getD i 0).toNat

/-- A little-endian field of n bytes at offset off (R4). -/
def le (b : Bytes) (off : Nat) : Nat → Nat
  | 0 => 0
  | n + 1 => byteAt b off + 256 * le b (off + 1) n

/-- A big-endian field of n bytes at offset off (R5). -/
def be (b : Bytes) (off : Nat) : Nat → Nat
  | 0 => 0
  | n + 1 => byteAt b off * 256 ^ n + be b (off + 1) n

/-- A value as n little-endian bytes (R4). -/
def leBytes : Nat → Nat → Bytes
  | 0, _ => []
  | n + 1, v => BitVec.ofNat 8 v :: leBytes n (v / 256)

/-- A value as n big-endian bytes (R5). -/
def beBytes (n v : Nat) : Bytes := (leBytes n v).reverse

/-- n zero bytes. -/
def zeros (n : Nat) : Bytes := List.replicate n 0

/-- A byte array of exactly n bytes, cut or filled with 0. -/
def fit (n : Nat) (b : Bytes) : Bytes := (b ++ zeros n).take n

/-- len bytes of a byte array from offset off, 0 beyond its end. -/
def slice (b : Bytes) (off len : Nat) : Bytes := fit len (b.drop off)

/-- The two's-complement value of an n-bit field. -/
def sint (n v : Nat) : Int := if v < 2 ^ (n - 1) then (v : Int) else (v : Int) - (2 ^ n : Nat)

/-- An integer as an n-bit two's-complement field. -/
def uint (n : Nat) (i : Int) : Nat := (i % (2 ^ n : Nat)).toNat

/-- a comes before b in serial order modulo 2 ^ n. -/
def before (n a b : Nat) : Bool := decide ((a + 2 ^ n - b % 2 ^ n) % 2 ^ n ≥ 2 ^ (n - 1))

/-- (a − b) mod 2 ^ n. -/
def subMod (n a b : Nat) : Nat := (a + 2 ^ n - b % 2 ^ n) % 2 ^ n

/-- The numbers below n whose bit is set in a mask. -/
def setBits (n mask : Nat) : List Nat := (List.range n).filter (bit mask)

/-- Number of ones among the low n bits. -/
def popCount (n mask : Nat) : Nat := (setBits n mask).length

/-- A mask of the numbers listed. -/
def maskOf (l : List Nat) : Nat := l.foldl (fun m i => setBit m i true) 0

/-- v is a power of two between lo and hi. -/
def isPow2 (v : Nat) : Bool := decide (0 < v) && decide (2 ^ Nat.log2 v = v)

/-- The bits of a byte, most significant first (R5). -/
def byteBits (b : Byte) : List Bool := (List.range 8).map (fun i => b.getLsbD (7 - i))

/-- The bits of a byte array in fibre order (R5). -/
def bitsOf (b : Bytes) : List Bool := b.flatMap byteBits

/-- n bits of a word, most significant first (R5). -/
def wordBits (n w : Nat) : List Bool := (List.range n).map (fun i => bit w (n - 1 - i))

/-- The number that bits spell, most significant first. -/
def ofBits (l : List Bool) : Nat := l.foldl (fun a b => 2 * a + b2n b) 0

/-- Bytes from bits in fibre order; the last byte is filled with zeros. -/
def packBits : Nat → List Bool → Bytes
  | 0, _ => []
  | n + 1, l => BitVec.ofNat 8 (ofBits ((l ++ List.replicate 8 false).take 8)) :: packBits n (l.drop 8)

end Sys2Proof.Machine
end

