-- ==== Sys2Proof/Machine/Flags.lean ====
section
/-! DEFINITION. The check computations of the manual: the CRCs of frames, arguments and headers, and the
validation of a public key. -/

namespace Sys2Proof.Machine

open Sys2Proof

/-- One bit step of a reflected 32-bit CRC. -/
def crcBit (poly c : Word32) : Word32 :=
  if c.getLsbD 0 then (c >>> 1) ^^^ poly else c >>> 1

/-- One byte of a reflected 32-bit CRC. -/
def crcByte (poly c : Word32) (b : Byte) : Word32 :=
  let step := crcBit poly
  step (step (step (step (step (step (step (step (c ^^^ b.setWidth 32))))))))

/-- A reflected 32-bit CRC with initial value and final XOR of all ones. -/
def crc32 (poly : Word32) (b : Bytes) : Word32 := ~~~ (b.foldl (crcByte poly) 0xFFFFFFFF)

/-- CRC-32C as iSCSI uses it (R432). -/
def crc32c (b : Bytes) : Word32 := crc32 0x82F63B78 b

/-- The Ethernet CRC-32, 0x04C1_1DB7 reflected (R352, R493). -/
def crc32e (b : Bytes) : Word32 := crc32 0xEDB88320 b

/-- A CRC computed most significant bit first over bits, from initial value 0 unless given. -/
def crcMsb (width poly init : Nat) (l : List Bool) : Nat :=
  l.foldl (fun c b =>
    let top := bit c (width - 1) != b
    let c2 := c * 2 % 2 ^ width
    if top then Nat.xor c2 poly else c2) init

/-! ### The HEC of chapter 2 -/

/-- The 12 parity bits of 51 protected bits (R64). -/
def hecParity (m : Nat) : Nat := crcMsb 12 0x539 0 (wordBits 51 m)

/-- Bit 0 that makes the number of ones even. -/
def evenBit (w : Nat) : Nat := popCount 64 w % 2

/-- A HEC-protected word from its 51 bits (R64). -/
def hecWord (m : Nat) : Nat :=
  let w := m * 2 ^ 13 + hecParity m * 2
  w + evenBit w

/-- The BCH syndrome of a received word. -/
def hecSyndrome (w : Nat) : Nat := Nat.xor (hecParity (fld w 13 51)) (fld w 1 12)

/-- The syndrome of a single error in word bit i. -/
def hecPosition (i : Nat) : Nat := hecSyndrome (2 ^ i)

/-- The one or two positions among bits 63 to 1 whose errors give a syndrome (R65). -/
def hecErrors (syn : Nat) : Option (List Nat) :=
  let table := (List.range 63).map (fun i => (i + 1, hecPosition (i + 1)))
  match table.find? (fun e => e.2 == syn) with
  | some e => some [e.1]
  | none =>
    table.findSome? (fun e =>
      (table.find? (fun f => decide (e.1 < f.1) && Nat.xor e.2 f.2 == syn)).map
        (fun f => [e.1, f.1]))

/-- The decision of R65: the word as decoded and whether it was corrected, none when invalid. -/
def hecDecode (w : Nat) : Option (Nat × Bool) :=
  let syn := hecSyndrome w
  if syn = 0 then
    if evenBit w = 0 then some (w, false) else some (Nat.xor w 1, true)
  else
    match hecErrors syn with
    | none => none
    | some l =>
      let v := l.foldl (fun v i => Nat.xor v (2 ^ i)) w
      if evenBit v = 0 then some (v, true) else none

/-- CRC-8 of a GSN word's bits [31:8] (R75). -/
def gsnCrc (w : Nat) : Nat := crcMsb 8 0x07 0 (wordBits 24 (w / 256))

/-! ### Scrambler and LDPC code of chapter 2 -/

/-- The scrambler of R58 over some bits, from a 58-bit state. -/
def scramble : Nat → List Bool → List Bool
  | _, [] => []
  | st, b :: l =>
    let f := bit st 57 != bit st 38
    (b != f) :: scramble ((st * 2 + b2n f) % 2 ^ 58) l

/-- Bitwise sum of two lists of bits. -/
def xorBits (a b : List Bool) : List Bool := List.zipWith (fun x y => x != y) a b

/-- A block shifted as a base entry s shifts it: bit k is bit (k + s) mod Z (R59). -/
def shiftBlock (s : Nat) (b : List Bool) : List Bool := b.drop s ++ b.take s

/-- The base matrix's information columns (R60): one row of four shifts per column. -/
def ldpcBase : List (List (Option Nat)) :=
  [[some 117, some 842, some 305, some 961], [some 609, none, some 1002, some 44],
   [some 388, some 71, none, some 730], [none, some 519, some 866, some 203],
   [some 951, some 284, some 127, none], [some 36, some 1045, some 598, some 411],
   [some 702, none, some 253, some 880], [some 455, some 916, none, some 92],
   [none, some 158, some 734, some 547], [some 820, some 603, some 19, none],
   [some 263, some 377, some 941, some 676], [some 1064, none, some 482, some 319],
   [some 591, some 808, none, some 1011], [none, some 29, some 655, some 438],
   [some 174, some 731, some 390, none], [some 898, some 462, some 817, some 58],
   [some 345, none, some 96, some 767], [some 12, some 1073, none, some 526],
   [none, some 640, some 211, some 994], [some 779, some 205, some 563, none]]

/-- u_r: the sum of row r's information blocks (R61). -/
def ldpcRow (r : Nat) (info : List Bool) : List Bool :=
  (ldpcBase.zipIdx).foldl (fun acc e =>
    match e.1.getD r none with
    | none => acc
    | some s => xorBits acc (shiftBlock s ((info.drop (1080 * e.2)).take 1080)))
    (List.replicate 1080 false)

/-- The 4,320 parity bits of 21,600 information bits (R61). -/
def ldpcParity (info : List Bool) : List Bool :=
  let u0 := ldpcRow 0 info
  let u1 := ldpcRow 1 info
  let u2 := ldpcRow 2 info
  let u3 := ldpcRow 3 info
  let p0 := xorBits (xorBits u0 u1) (xorBits u2 u3)
  let p1 := xorBits u0 (shiftBlock 1 p0)
  let p2 := xorBits u1 p1
  let p3 := xorBits u2 (xorBits p0 p2)
  p0 ++ p1 ++ p2 ++ p3

/-- Information words coded into codewords of 675 words, the last one shortened (R109). -/
def ldpcEncode : Nat → List Bool → List Bool
  | 0, _ => []
  | n + 1, l =>
    if l.isEmpty then []
    else
      let c := l.take 21600
      c ++ ldpcParity (c ++ List.replicate (21600 - c.length) false) ++ ldpcEncode n (l.drop 21600)

/-- CRC-7 of a bandwidth-map entry's bits [63:7] (R103). -/
def mapCrc (w : Nat) : Nat := crcMsb 7 0x09 0 (wordBits 57 (w / 2 ^ 7))

/-! ### The Ethernet FCS -/

/-- The FCS of a frame's bytes, as its four last bytes (R352). -/
def fcsBytes (b : Bytes) : Bytes := leBytes 4 (crc32e b).toNat

/-- A frame whose last four bytes are its FCS. -/
def fcsOk (b : Bytes) : Bool :=
  decide (b.length ≥ 4) && b.drop (b.length - 4) == fcsBytes (b.take (b.length - 4))

/-! ### P-384 points (R151) -/

/-- The field prime of curve P-384 (PRESUMED, FIPS 186; log entry 6). -/
def p384 : Nat := 2 ^ 384 - 2 ^ 128 - 2 ^ 96 + 2 ^ 32 - 1

/-- The coefficient b of curve P-384 (PRESUMED, FIPS 186; log entry 6). -/
def p384B : Nat :=
  0xb3312fa7e23ee7e4988e056be3f82d19181d9c6efe8141120314088f5013875ac656398d8a2ed19d2a85c8edd3ec2aef

/-- Full public-key validation of X ‖ Y (R151): both lie in the field and y² = x³ - 3x + b. The point at
infinity has no such spelling, and the curve's order is prime. -/
def validPoint (q : Bytes) : Bool :=
  let x := be q 0 48
  let y := be q 48 48
  decide (x < p384) && decide (y < p384)
    && decide (y * y % p384 = (x * x * x + (p384 - 3) * x + p384B) % p384)

end Sys2Proof.Machine
end

