-- ==== Sys2Proof/Config.lean ====
section
/-! DEFINITION. What an implementation fixes and what the manual leaves open: fused values, the
cryptographic primitives whose standards lie outside the manual, and the free values. None has a
body, so no proof can rest on a value. -/

namespace Sys2Proof.Config

/-- The manufacturer identity of the JTAG IDCODE, which the ordering supplement gives (R584). -/
opaque jtagMaker : Nat

/-- A fresh free value: applied to `State.fresh`, which the step that uses it advances (log entry 5). -/
opaque freeValue : Nat → Nat

/-- Grade fuse: true for PF7440-C (R1, R614). -/
opaque gradeC : Bool

/-- The 4-byte device number fused at manufacture (R131). -/
opaque deviceNumber : Word32

/-- The identity public key Q_ID as X ‖ Y, 96 bytes (R152). -/
opaque identityKey : BitVec 768

/-- The vendor attestation r ‖ s, 96 bytes (R152). -/
opaque attestation : BitVec 768

/-- The fused security epoch at power-on of a new part (R566). -/
opaque fusedEpoch : Nat

/-- GCM keystream byte i under a key and IV (AES-256 in counter mode; 08 R291). -/
opaque gcmPad (key : BitVec 256) (iv : BitVec 96) (i : Nat) : Byte

/-- GCM tag over additional data and ciphertext. -/
opaque gcmTag (key : BitVec 256) (iv : BitVec 96) (aad cipher : Bytes) : BitVec 128

/-- GHASH accumulator, or CMAC chaining value, after so many whole blocks of a text (R282). -/
opaque blockState (key : BitVec 256) (iv : BitVec 96) (text : Bytes) (blocks : Nat) : BitVec 128

/-- AES-256 of one block (R289). -/
opaque aesBlock (key : BitVec 256) (block : BitVec 128) : BitVec 128

/-- AES-CMAC. -/
opaque aesCmac (key : BitVec 256) (msg : Bytes) : BitVec 128

/-- ECDSA P-384 verification with SHA-384: key, message, signature r ‖ s (R151, R563). -/
opaque ecdsaVerify (key msg sig : Bytes) : Bool

/-- The fused firmware-authentication public key (R563). -/
opaque firmwareKey : BitVec 768

/-- SHA-384 (R563). -/
opaque sha384 (msg : Bytes) : BitVec 384

/-- The terminal's ephemeral public key of registration number k (R151). -/
opaque ephemeralKey (k : Nat) : BitVec 768

/-- The x-coordinate Z of d_T × Q_HE for registration number k (R151). -/
opaque sharedSecret (k : Nat) (qHe : Bytes) : BitVec 384

/-- The terminal's identity signature r ‖ s over a message (R152). -/
opaque identitySign (k : Nat) (msg : Bytes) : BitVec 768

/-- ICK and KEK derived from a CAK and CKN under IEEE 802.1X-2020 (R285). -/
opaque deriveIck (cak ckn : Bytes) : BitVec 256
opaque deriveKek (cak ckn : Bytes) : BitVec 256

/-- Salt XOR (SSCI ‖ 0) of a SAK and SC, which the packet number completes under XPN (R297). -/
opaque xpnMask (key : BitVec 256) (sci : Word64) : BitVec 96

/-- The SAK that MKA distributes in the frame with this free index, unwrapped with a KEK (R285). -/
opaque unwrapSak (kek : BitVec 256) (k : Nat) : BitVec 256

/-- The least Tw_sys_tx in µs that IEEE 802.3 Clause 78 gives for the PHY of a MODE (R361). -/
opaque clause78Tw (mode : Nat) : Nat

/-- Entry i of the distribution table of an aggregation whose members collect and distribute as the mask
says, as a choice among them (R367). -/
opaque distribution (members i : Nat) : Nat

/-- The item that holds a word of a memory region, as a number that the region's table of items reads
(R496, R507). -/
opaque itemAt (region addr : Nat) : Nat

/-- The address in region 12 of the shadow record of an item of a region (R507). -/
opaque shadowAt (region item : Nat) : Nat

/-- What Knarrasar writes after the EtherType of a protocol frame of its own, by free index: the texts of the
protocols' standards lie outside the manual (R329, R358). -/
opaque ownFrame (k : Nat) : Bytes

/-- Clock class and accuracy announced under a main time status, by the host's policy (R329). -/
opaque clockQuality (status : Nat) : Nat

/-- The part of an IPv4 link-local address that Knarrasar claims (R540). -/
opaque claimedAddress : Nat

end Sys2Proof.Config
end

