-- ==== Sys2Proof/Machine/State.lean ====
section
/-! DEFINITION. The state of the PF7440: every register, store, queue, mode and pin the manual
gives it, as plain data, and the state right after a power-on reset. A field's default value is
its reset value; INVENTORY.md names the rule of each. -/

namespace Sys2Proof.Machine

open Sys2Proof

/-- The model's faults. No row raises one: errors of the device are statuses, events and drop
reasons. It stands for an order that names what the device does not have. -/
inductive Fault where
  /-- Raised by nothing in this model; safe. -/
  | noSuchUnit
  deriving DecidableEq, Repr

/-- Refusals. -/
inductive Refusal where
  /-- Raised by an arm of exec whose command has no meaning yet; safe. -/
  | notModelled (mnemonic : String)
  deriving DecidableEq, Repr

/-! ### Names -/

/-- Device states (R441). -/
inductive DevState where
  | cold | loading | standby | active | degraded | safe | maintenance
  deriving DecidableEq, Repr

/-- Operating profiles, coded 0 to 3 (R40, R419). -/
inductive Profile where
  | latency | balanced | depth | economy
  deriving DecidableEq, Repr

/-- Power states (R475). -/
inductive PowerState where
  | d0 | d1 | d2 | d3
  deriving DecidableEq, Repr

/-- Delineation states (R51). -/
inductive Delin where
  | hunt | presync | sync
  deriving DecidableEq, Repr

/-- Activation states F0 to F7 (R131). -/
inductive Act where
  | f0 | f1 | f2 | f3 | f4 | f5 | f6 | f7
  deriving DecidableEq, Repr

/-- Colours (R251, R255). -/
inductive Colour where
  | none | green | yellow | red
  deriving DecidableEq, Repr

/-- States of a rule-set version tag (R191). -/
inductive TagState where
  | free | staged | current | draining
  deriving DecidableEq, Repr

/-- States of a time domain (R312). -/
inductive DomState where
  | unused | acquiring | locked | holdover
  deriving DecidableEq, Repr

/-- States of a lane (R389). -/
inductive LaneState where
  | off | deep | exiting | ready
  deriving DecidableEq, Repr

/-- Consequent actions (R159). -/
inductive Action where
  | report | withdraw | switch
  deriving DecidableEq, Repr

/-- Flow-control modes (R259). -/
inductive FlowMode where
  | off | pause | pfc
  deriving DecidableEq, Repr

/-- Sources of time domain B (R328). -/
inductive DomBSource where
  | none | ptp | pps
  deriving DecidableEq, Repr

/-- Phases of a power-state change (R479 to R484). -/
inductive PowerPhase where
  | idle
  | toD1 | fromD1
  | enteringD2 | enteringD3
  | exitingD2 | exitingD3
  deriving DecidableEq, Repr

/-- Phases of doze (R157, R158). -/
inductive DozePhase where
  | idle | requested | scheduled | dozing
  deriving DecidableEq, Repr

/-- Recorder modes (R470). -/
inductive Recorder where
  | stopped | running | frozen
  deriving DecidableEq, Repr

/-- Control-sector states of a flash slot (R564). -/
inductive SlotState where
  | stored | trial | trying | confirmed | failed
  deriving DecidableEq, Repr

/-! ### Packets -/

/-- A recorded header instance (R172 HDR). -/
structure HdrInst where
  typ : Nat
  off : Nat
  len : Nat
  deriving DecidableEq, Repr

/-- Kinds of copies that reach a host receive ring (R429). -/
inductive CopyKind where
  | forwarded | punt | mirror | trap | sample
  deriving DecidableEq, Repr

/-- A packet and its metadata, from ingress to the last place it stands (R170, R179, R197, R226). -/
structure Pkt where
  /-- The buffer frame it stands in (R233). -/
  fid : Nat := 0
  /-- Bytes of the present pass. -/
  frame : Bytes := []
  /-- Stored length (R233), and the one it entered the device with once a recirculation has changed
  it, 0 before (R535). -/
  stored : Nat := 0
  entered : Nat := 0
  /-- Port-table index, SOURCE, PORT_ID of R179. -/
  inPort : Nat := 0
  source : Nat := 0
  portId : Word16 := 0
  /-- Counting port (R201). -/
  cport : Nat := 0
  pass : Nat := 0
  tag : Nat := 0
  node : Nat := 0
  slice : Nat := 0
  decrypted : Bool := false
  /-- Marked under R234: the free list ran out. -/
  marked : Bool := false
  /-- Its FCS is wrong and it goes on towards a cut-through egress (R35, R36). -/
  badFcs : Bool := false
  /-- Receive timestamp in units of 2^-16 ns (R330). -/
  stamp : Nat := 0
  /-- Transmit timestamp request: SOURCE and TAG (R333). -/
  tsReq : Option (Bool × Nat) := none
  /-- Selected for sampling, traced (R528, R530). -/
  sampled : Bool := false
  traced : Bool := false
  /-- What classification left (R177 to R190). -/
  flags : Word16 := 0
  hdrs : List HdrInst := []
  prio : Option Nat := none
  cls : Nat := 0
  colour : Colour := .none
  vid : Nat := 0
  policer : Option Nat := none
  reason : Nat := 0
  kind : CopyKind := .forwarded
  /-- Forwarding key h_0 bits for an aggregation (R367). -/
  hash : Nat := 0
  /-- Packet ID of R528. -/
  ident : Nat := 0
  /-- The pipeline whose hold buffer released it, and TS32 of that moment (R531). -/
  held : Option (Nat × Nat) := none
  /-- A word of the store that holds it is uncorrectable (R249, R507). -/
  bad : Bool := false
  deriving DecidableEq, Repr

/-- A copy in a queue (R235, R240, R260). -/
structure Copy where
  pkt : Pkt
  cells : Nat
  spilled : Bool
  /-- Instant it joined the queue (R248). -/
  joined : Nat
  /-- Ingress account it charges: client port and class (R260). -/
  account : Option (Nat × Nat)
  /-- Read back from DRAM into the prefetch (R245). -/
  prefetched : Bool := false
  deriving DecidableEq, Repr

/-! ### Frames of Knarrasar's own (R329, R358) -/

/-- What a PTP message of the boundary clock carries (R329): a time as R307, or the clock quality. -/
inductive PtpSend where
  | sync
  | followUp (time : BitVec 96)
  | announce (quality : Nat)
  | delayReq
  | delayResp (time : BitVec 96)
  deriving DecidableEq, Repr

structure OwnFrame where
  kind : ProtocolKind
  ptp : Option PtpSend := none
  /-- What an LLDP frame advertises as the port's Tw_sys_tx, in µs, where it carries EEE information (R361). -/
  eee : Option Nat := none
  deriving DecidableEq, Repr

/-! ### Outputs -/

/-- What a flow-export message carries in its headers: source and collector address as IPv6 or IPv4-mapped, UDP
port, export time in Beryl seconds, sequence number and observation domain (R540, R544). -/
structure ExportHeader where
  /-- The management lane's MAC address (R359). -/
  mac : Nat
  src : Nat
  dst : Nat
  port : Nat
  time : Nat
  sequence : Nat
  domain : Nat
  deriving DecidableEq, Repr

/-- What leaves the device. The list in `State.out` is the model's own trace (log entry 4). -/
inductive Out where
  /-- Completion of a host read. -/
  | readData (data : Nat)
  /-- Completion as an Unsupported Request (R11, R401). -/
  | unsupported (bar : Bar)
  /-- Configuration Request Retry Status (R605). -/
  | configRetry
  /-- MSI-X message of a vector (R425). -/
  | msix (vec : Nat)
  /-- A DMA write (events, descriptors, frames, dumps, the recorder's ring). -/
  | hostWrite (addr : Nat) (data : Bytes)
  /-- A frame on a client port; stomped (R36) or whole. -/
  | clientFrame (port : Nat) (data : Bytes) (stomped : Bool)
  /-- A generated PAUSE or PFC frame: its source address, enable vector and times per class (R261, R359), and the
  instant before which it does not leave (R362). -/
  | flowFrame (port : Nat) (src : Nat) (pfc : Bool) (enable : Nat) (times : List Nat) (start : Nat)
  /-- A protocol frame of Knarrasar's own, FCS left out (R358, R473), with the PTP domain number and what a PTP
  message carries (R329). -/
  | protocol (f : OwnFrame) (port : Nat) (data : Bytes) (ptpDomain : Nat)
  /-- Remote fault on a client port, sent from now on or no longer (R351). -/
  | remoteFault (port : Nat) (on : Bool)
  /-- The BEN pin of a channel: its level, true high, or none at high impedance (R127, R576). -/
  | ben (ch : Nat) (level : Option Bool)
  /-- A burst from the preamble to the last parity bit (R108), as PAM4 levels (R371); its first header bit leaves
  at bit time hdrBit (R100). -/
  | burst (ch hdrBit : Nat) (levels : List Nat)
  /-- A fibre transmit lane holds level 0: from BEN's assertion to the first preamble bit, and from the end of a burst
  on (R372). -/
  | levelZero (ch : Nat)
  /-- A PPS_OUT pulse of so many ns (R337) and a ToD message (R339). -/
  | pps (width : Nat)
  | tod (msg : Bytes)
  /-- An MDIO frame: the MDIO_CMD word and the MDIO_DATA word sent (R586). -/
  | mdio (cmd data : Word32)
  /-- A flow-export message: its header, and the template set sent or one data record (R540 to R544). -/
  | ipfix (h : ExportHeader) (templateId : Nat) (data : List Nat)
  /-- What a read of a word that a merge buffer holds returns to its requester (R502). -/
  | merged (region addr : Nat) (data : Word128)
  /-- What a lane's generator drives: pattern code and its first symbols (R392). -/
  | pattern (lane code : Nat) (levels : List Nat)
  /-- A lane held at level 0 or, on the management lane, at idle: near-end parallel loopback (R397); or held static
  (R375). -/
  | still (lane : Nat)
  /-- The transmit polarity of a lane at the balls (R374, R375). -/
  | polarity (lane : Nat) (inverted : Bool)
  /-- V1P8_OUT on or off (R578). -/
  | v1p8 (on : Bool)
  /-- A request for the collector's MAC address, by ARP for an IPv4-mapped collector, else by NDP (R540). -/
  | resolve (mac : Nat) (arp : Bool) (collector : Nat)
  /-- An LPI request on a client port (R361). -/
  | lpi (port : Nat)
  deriving DecidableEq, Repr

/-! ### Device -/

structure Dev where
  state : DevState := .cold
  /-- State MAINTENANCE was entered from (R442). -/
  maintFrom : DevState := .standby
  ready : Bool := false
  selected : Profile := .balanced
  inForce : Profile := .balanced
  /-- Causes of R443, one bit each. -/
  causes : BitVec 5 := 0
  /-- Alarm sources latched (R551), asserted now (R453), and those of the last SAFE entry. -/
  alarmLatch : BitVec 5 := 0
  alarmNow : BitVec 5 := 0
  alarmSinceReset : Bool := false
  erasing : Bool := false
  /-- SAFE waits for a running power-state entry or exit to complete (R487). -/
  safeWaits : Bool := false
  lockstep : Bool := false
  cause : Byte := 0x01
  previous : Byte := 0x00
  /-- RESET_N held low; reset released (R605); an image booted in this LOADING (R565). -/
  pinLow : Bool := false
  released : Bool := false
  booted : Bool := false
  /-- Boot logic has tried the slots of this LOADING, and tries nothing again (R567); the instant of reset release. -/
  bootTried : Bool := false
  releasedAt : Nat := 0
  /-- A warm reset runs, until READY (R607, R609). -/
  warm : Bool := false
  /-- Mailboxes that were PENDING when the warm reset began (R436). -/
  pendingMask : Word16 := 0
  /-- Instant of entry to STANDBY after the last reset (R565). -/
  readyAt : Option Nat := none
  deriving DecidableEq, Repr

/-! ### Host interface -/

structure Event where
  seq : Word32
  typ : Word16
  urgent : Bool
  index : Byte
  time : BitVec 96
  /-- Record bytes 20 to 31. -/
  payload : Bytes
  deriving DecidableEq, Repr

structure MsixVec where
  addr : Word64 := 0
  data : Word32 := 0
  masked : Bool := true
  pend : Bool := false
  countM1 : Byte := 0
  holdoff : BitVec 10 := 0
  causes : Nat := 0
  first : Option Nat := none
  deriving DecidableEq, Repr

structure Ring where
  enable : Bool := false
  entries : Nat := 0
  bufLen : Nat := 0
  base : Word64 := 0
  rate : Nat := 0
  burst : Nat := 0
  /-- Tokens in units of 10^-12 token, as of the instant `filled`. -/
  tokens : Nat := 0
  filled : Nat := 0
  head : Word32 := 0
  tail : Word32 := 0
  deriving DecidableEq, Repr

structure Bell where
  mbx : Nat
  /-- Instant and Beryl time of the ring (R410, R415). -/
  at_ : Nat
  beryl : BitVec 96
  deriving DecidableEq, Repr

/-- A command taken up and not yet final. -/
structure Running where
  mbx : Nat
  opcode : Nat
  seq : Word32
  args : Bytes
  /-- Instant the deadline passes. -/
  deadline : Nat
  background : Bool
  /-- It waits for the exit from D2 or D3 before its own effect (R487). -/
  afterExit : Bool := false
  deriving DecidableEq, Repr

/-- The kept response of a mailbox (R413). -/
structure Kept where
  status : Byte
  rolled : Bool
  isPartial : Bool
  jseq : Nat
  data : Bytes
  deriving DecidableEq, Repr

/-- A journal entry (R432). -/
structure JEntry where
  jseq : Nat
  time : BitVec 96
  cmdSeq : Word32
  opcode : Nat
  mbx : Nat
  isPartial : Bool
  rolled : Bool
  status : Byte
  argCrc : Word32
  first32 : Bytes
  deriving DecidableEq, Repr

/-- The latched snapshot registers (R626, R627). -/
structure Snapshot where
  seq : Word16 := 0
  valid : Bool := false
  status : BitVec 9 := 0
  main : BitVec 96 := 0
  ts32 : Word32 := 0
  shadowA : BitVec 96 := 0
  shadowB : BitVec 96 := 0
  bound : Word32 := 0
  deriving DecidableEq, Repr

/-- What the function's configuration space holds of the host's settings, and what link training came to (R399). Reset
values from the PCI Express family (PRESUMED, log entry 48). -/
structure Pcie where
  maxPayload : Nat := 128
  maxRead : Nat := 512
  /-- The host's own completion timeout, in µs (R403). -/
  completionUs : Nat := 50000
  aspmL1 : Bool := false
  gen : Nat := 1
  width : Nat := 1
  deriving DecidableEq, Repr

structure Hif where
  /-- The 16 mailboxes: one byte memory, mailbox n at n × 4,096 (R400, R406). -/
  mbox : List Host.Cell := []
  lastSeq : Tab (Option Word32) := []
  kept : Tab (Option Kept) := []
  bells : List Bell := []
  running : List Running := []
  done : Word16 := 0
  irqEn : Word16 := 0
  evtEnable : Bool := false
  evtPhase : Bool := true
  evtBase : Word64 := 0
  evtEntries : BitVec 17 := 0
  evtProducer : Word32 := 0
  evtConsumer : Word32 := 0
  evtSeq : Word32 := 0
  /-- Records written and events lost since SEQ last began at 0 (R533). -/
  evtWritten : Nat := 0
  evtLost : Nat := 0
  backlog : List Event := []
  /-- Lowest lost SEQ and the number lost, until reported (R424). -/
  lost : Option (Word32 × Nat) := none
  msix : Tab MsixVec := []
  busMaster : Bool := false
  d3hot : Bool := false
  linkUp : Bool := false
  perst : Bool := false
  pcie : Pcie := {}
  rx : Tab Ring := []
  tx : Tab Ring := []
  /-- Newest first, at most 8,192 entries. -/
  journal : List JEntry := []
  /-- Highest JOURNAL_SEQ written; the next entry takes the one above it (R432, R624). -/
  jrnHead : Nat := 0
  jrnWindowSeq : Word64 := 0
  /-- JRN_WINDOW's bytes; bytes not held read 0. -/
  jrnWindow : Bytes := []
  /-- Copies ordered and not yet complete, oldest first (R625). -/
  copies : List Word64 := []
  /-- Held low words and shadowed high words, by register offset (R12, R13). -/
  lowHeld : Tab (Option Word32) := []
  highShadow : Tab (Option Word32) := []
  snap : Snapshot := {}
  dumpGen : Word32 := 0
  mdioCmd : Word32 := 0
  mdioData : Word32 := 0
  /-- When the MDIO frame in progress was sent. -/
  mdioAt : Nat := 0
  gpioDir : Word16 := 0
  gpioOut : Word16 := 0
  /-- The filtered levels of the inputs, and of the outputs before their latest change. -/
  gpioIn : Word16 := 0
  /-- When each output's ball last took a new level. -/
  gpioAt : Tab Nat := []
  sensorFail : Bool := false
  refLoss : Bool := false
  deriving DecidableEq, Repr

/-! ### Fibre -/

/-- A reassembly context (R83). -/
structure Reasm where
  portId : Word16
  keyIdx : BitVec 2
  data : Bytes
  stamp : Nat
  /-- The number of fragments so far. -/
  frags : Nat
  deriving DecidableEq, Repr

/-- A PFE frame in a reorder store; foreign ones leave no payload (R88). -/
structure Stored where
  gsn : Nat
  foreign : Bool
  portId : Word16
  first : Bool
  last : Bool
  keyIdx : BitVec 2
  payload : Bytes
  stamp : Nat
  deriving DecidableEq, Repr

/-- Receive side of one fibre channel. -/
structure RxChan where
  lock : Bool := false
  holdover : Bool := false
  delin : Delin := .hunt
  slots : Tab (Option Nat) := []
  sfc : BitVec 51 := 0
  mismatch : Option (BitVec 51) := none
  misses : Nat := 0
  expLabel : Byte := 0
  /-- Expected channel number, less the unit's own, modulo 4 (R73). -/
  expChan : Nat := 0
  /-- Expected label as of the frame being processed (R456). -/
  frameLabel : Byte := 0
  /-- Defects raised, bit n − 1 for code n of R474; skew stands at the bonding unit. -/
  defects : BitVec 7 := 0
  hdrRun : Nat := 0
  hdrBad : Bool := false
  labRun : Nat := 0
  labBad : Bool := false
  chRun : Nat := 0
  chBad : Bool := false
  sfRun : Nat := 0
  sfBad : Bool := false
  /-- Uncorrectable codewords and corrected bits of the windows that run (R95). -/
  winBad : Bool := false
  winBits : Nat := 0
  /-- Bits received in the 1 s window that runs (R95). -/
  winRx : Nat := 0
  ctx : Option Reasm := none
  /-- Bytes of the PFE region not yet parsed; 0 when nothing is to be parsed. -/
  regionLeft : Nat := 0
  /-- Those bytes; what is left off at the end is 0. -/
  region : Bytes := []
  /-- Codewords of the frame being processed that failed to decode (R63). -/
  badWords : List Nat := []
  /-- Arrival of the frame being processed (R330). -/
  frameAt : Nat := 0
  /-- T_rx of the latest frame, in bit times since instant 0; none out of SYNC (R99). -/
  trx : Option Nat := none
  /-- GSN floor of the frame being processed, none where word 1 is not usable. -/
  floorNow : Option Nat := none
  /-- A PSTC frame is being processed. -/
  inFrame : Bool := false
  lastGsn : Option Nat := none
  floorDone : Option Nat := none
  store : List Stored := []
  /-- Cells of the reorder reservation (R87). -/
  reserved : Nat := 0
  joining : Bool := false
  /-- Superframe counter and arrival of the latest frames, newest first (R90). -/
  arrivals : List (Nat × Nat) := []
  skew : Nat := 0
  deriving DecidableEq, Repr

/-- An own downstream port ID (R80, R229, R286). -/
structure OwnPort where
  cls : Nat
  keySlot : Option Nat
  deriving DecidableEq, Repr

structure Bond where
  members : BitVec 4 := 0
  working : Option Nat := none
  standby : Option Nat := none
  /-- NEXT, once the first floor has been finished (R91). -/
  started : Bool := false
  next : Nat := 0
  /-- Floors finished and when (R91 first_floor_time). -/
  floors : List (Nat × Nat) := []
  ctx : Option Reasm := none
  skewDefect : Bool := false
  skewRun : Nat := 0
  /-- The highest superframe counter judged for skew (R95). -/
  skewAt : Nat := 0
  overflowed : Bool := false
  deriving DecidableEq, Repr

/-- A burst profile (R112). -/
structure BurstProfile where
  words : Nat
  pattern : Word32
  delim : Word64
  deriving DecidableEq, Repr

/-- Activation of one channel (R131 to R148). -/
structure ActChan where
  act : Act := .f0
  silenced : Bool := false
  profiles : Tab (Option BurstProfile) := []
  preEqd : Option Nat := none
  randSteps : Nat := 1
  stationId : Option (BitVec 10) := none
  eqd : Option Nat := none
  /-- EqD before the latest RANGING_TIME, and the first upstream frame of the latest (R148). -/
  eqdOld : Option Nat := none
  eqdFrom : Nat := 0
  /-- Instant the ranging timer, the 100 ms timer runs out. -/
  rangingEnd : Option Nat := none
  f6End : Option Nat := none
  /-- Host settings of FIBRE_SET_CHANNEL (R455). -/
  activate : Bool := false
  txEnable : Bool := false
  benLow : Bool := false
  /-- Its BEN level has been applied since the last cold reset (R579). -/
  benSet : Bool := false
  /-- Transmitter enabled now (withdrawal disables it, R160). -/
  txOn : Bool := false
  withdrawn : Option Trigger := none
  switched : Bool := false
  /-- A member of the bonded group when it was withdrawn (R161). -/
  wasMember : Bool := false
  txFault : Bool := false
  /-- The filtered level of TXFAULT; isolated, the input reads as asserted (R576). -/
  txPin : Bool := false
  deriving DecidableEq, Repr

/-- A station message received and queued for Knarrasar (R137). -/
structure RxMsg where
  ch : Nat
  sfc : Nat
  bytes : Bytes
  deriving DecidableEq, Repr

/-- A station message waiting for a slot (R114, R138). -/
structure TxMsg where
  typ : Byte
  seq : Byte
  group : Nat
  content : Bytes
  deriving DecidableEq, Repr

/-- The kept request and response of R143. -/
structure Repeat where
  seq : Byte
  content : Bytes
  response : List TxMsg
  deriving DecidableEq, Repr

structure EpochEntry where
  epoch : Nat
  pending : Bool
  deriving DecidableEq, Repr

structure EpochSwitch where
  epoch : Nat
  /-- The epoch before it; none where no root was current. -/
  old : Option Nat
  sfc : Nat
  fromPending : Bool
  applied : Bool
  deriving DecidableEq, Repr

/-- A channel group (R150 to R155, R287). -/
structure Group where
  mask : BitVec 4 := 0
  repeats : Tab (Option Repeat) := []
  segs : Tab (Option Bytes) := []
  segFirst : Option Nat := none
  segCh : Nat := 0
  /-- SEQ of the segment received last. -/
  segSeq : Byte := 0
  curRoot : Bool := false
  pendRoot : Bool := false
  /-- A pending root that waits while the bank of pending roots serves a switch (R154, R155; log entry 41). -/
  heldRoot : Option (BitVec 256) := none
  epoch : Nat := 0
  /-- Entries of KEY_INDEX 0b01 and 0b10. -/
  entry1 : Option EpochEntry := none
  entry2 : Option EpochEntry := none
  /-- KEY_INDEX of the epoch retired last, until an epoch takes it again (R155). -/
  retired : Option Nat := none
  upIndex : BitVec 2 := 0
  switch : Option EpochSwitch := none
  txSeq : Byte := 0
  keyReqAt : Nat := 0
  deriving DecidableEq, Repr

structure Policy where
  /-- Actions by row of R159, withdraw where none is listed. -/
  action : Tab Action := [(5, .report)]
  holdoff : Tab Nat := []
  restoreMs : Nat := 1000
  degradeExp : Nat := 4
  rekeyS : Nat := 0
  deriving DecidableEq, Repr

structure Doze where
  phase : DozePhase := .idle
  n : Nat := 0
  start : Nat := 0
  ch : Nat := 0
  deriving DecidableEq, Repr

structure Fib where
  rx : Tab RxChan := []
  bond : Bond := {}
  ports : Tab (Option OwnPort) := []
  act : Tab ActChan := []
  rxMsgs : List RxMsg := []
  accepted : Option RxMsg := none
  txMsgs : List TxMsg := []
  groups : Tab Group := []
  heKey : Option Bytes := none
  policy : Policy := {}
  /-- Instants at which a trigger rose, or at which the last one cleared, by channel × 8 + row. -/
  trigSince : Tab (Option Nat) := []
  clearSince : Tab (Option Nat) := []
  lastUsable : BitVec 4 := 0
  doze : Doze := {}
  deriving DecidableEq, Repr

/-! ### Upstream -/

structure ListEntry where
  queue : Nat
  weighted : Bool
  weight : Nat
  deriving DecidableEq, Repr

/-- A frame in staging (R119, R120). -/
structure Staged where
  pkt : Pkt
  queue : Nat
  /-- The image sent: clear frame, or ciphertext, counter and tag (R291). -/
  image : Bytes
  keyed : Bool
  ready : Bool
  /-- Channel group, KEY_INDEX and epoch it was staged under. -/
  epoch : Option (Nat × BitVec 2 × Nat)
  portId : Word16
  /-- Sequence number of its cipher request. -/
  ticket : BitVec 20
  deriving DecidableEq, Repr

structure Alloc where
  id : Nat
  /-- none: the bonded group (R117). -/
  binding : Option Nat
  list : List ListEntry := []
  deficits : Tab Nat := []
  turn : Nat := 0
  staging : List Staged := []
  /-- Payload bytes of the head frame already committed (R122). -/
  sent : Nat := 0
  deriving DecidableEq, Repr

structure UpQueue where
  portId : Word16 := 0
  keyed : Bool := false
  slot : Option Nat := none
  deriving DecidableEq, Repr

/-- An accepted grant or window (R103, R146). -/
structure Grant where
  alloc : Nat
  start : Nat
  size : Nat
  profile : Nat
  report : Bool
  smsg : Bool
  /-- Upstream frame K. -/
  k : Nat
  /-- some n: a window answered with random step n. -/
  window : Option Nat
  deriving DecidableEq, Repr

/-- A committed section (R121, R129). -/
structure Section where
  grant : Grant
  /-- Information bytes, the first section's burst header left out. -/
  bytes : Bytes
  sentBytes : Nat
  idleBytes : Nat
  pfeBytes : Nat
  /-- Client frames whose last fragment lies here, and the frame left open. -/
  frames : List Pkt
  openFrame : Option Pkt
  /-- PFE frames with LAST = 0, and with FIRST = LAST = 1; a station message, or a no-message (R130). -/
  fragments : Nat
  wholes : Nat
  messages : Nat
  noMessages : Nat
  gsnFloor : Nat
  deriving DecidableEq, Repr

structure Burst where
  k : Nat
  profile : Nat
  /-- That profile as held when the map was processed (R112). -/
  shape : BurstProfile
  /-- Bit time of the first header bit since instant 0: T_rx(K) + E + 32 × (START …) (R100, R147). -/
  hdrBit : Nat
  sections : List Section
  grants : List Grant
  launched : Bool
  header : Word64
  stationId : BitVec 10
  deriving DecidableEq, Repr

structure TxChan where
  bursts : List Burst := []
  ben : Bool := false
  deriving DecidableEq, Repr

structure Up where
  allocs : List Alloc := []
  storedLists : Tab (Option (List ListEntry)) := []
  queues : Tab UpQueue := []
  gsn : Nat := 0
  tx : Tab TxChan := []
  deriving DecidableEq, Repr

/-! ### Classification and tables -/

structure Rule where
  value : BitVec 640
  mask : BitVec 640
  control : Word64
  action : Word64
  versions : Byte
  pkts : BitVec 40
  bytes : BitVec 48
  deriving DecidableEq, Repr

structure Positions where
  l4Src : Nat := 0
  l4Dst : Nat := 0
  vid : Nat := 0
  dscp : Nat := 0
  zoneBase : Nat := 0
  zoneLen : Nat := 0
  deriving DecidableEq, Repr

/-- A decided packet and where it goes (R225, R227). -/
structure Decided where
  pkt : Pkt
  /-- Queues, one per copy, with the kind of each copy. -/
  dests : List (Nat × CopyKind)
  /-- Instant its slice presented it (R253). -/
  at_ : Nat
  deriving DecidableEq, Repr

structure Cls where
  load : Tab Word64 := []
  store : Tab Word64 := []
  /-- Address of each valid node; a node that is not valid is none (default: valid, 0x000). -/
  nodes : Tab (Option Nat) := []
  pos : Positions := {}
  comparators : Tab Word64 := []
  rules : Tab (Option Rule) := []
  tags : Tab TagState := [(0, .current)]
  refs : Tab Nat := []
  trap : BitVec 256 := 0
  /-- Packets on their way into a slice, by slice × 5 + input: lane group 0 to 3, or 4 for the bonding unit
  (R17, R30). The first fill the bridge and the rest wait with their sender (R24). -/
  inputs : Tab (List Pkt) := []
  /-- Credits of the slices' weighted round robin, by slice × 5 + input (R30). -/
  credits : Tab Int := []
  /-- The engine that takes a slice's next packet (R168). -/
  engine : Tab Nat := []
  decided : List Decided := []
  deriving DecidableEq, Repr

/-- An exact-match entry (R208); an invalid one is not held. -/
structure EmEntry where
  age : BitVec 2
  static : Bool
  learned : Bool
  profile : Nat
  pkts : BitVec 40
  bytes : BitVec 48
  action : Word64
  key : BitVec 320
  /-- When the aging engine visited it last (R221). -/
  visited : Option Nat := none
  deriving DecidableEq, Repr

/-- Key profile: DST and SRC selectors 0 to 39 (R206). -/
structure KeyProfile where
  dst : Tab Byte := []
  src : Tab Byte := []
  deriving DecidableEq, Repr

structure AgedRec where
  number : Nat
  key : BitVec 320
  profile : Nat
  pkts : BitVec 40
  bytes : BitVec 48
  deriving DecidableEq, Repr

structure Candidate where
  key : BitVec 320
  profile : Nat
  port : Nat
  move : Bool
  deriving DecidableEq, Repr

structure Tables where
  /-- Exact-match entries at way × 131,072 + index. -/
  em : Tab (Option EmEntry) := []
  profiles : Tab KeyProfile := []
  agingS : Nat := 75
  limits : Tab Nat := []
  /-- Newest first, at most 4,096 records. -/
  aged : List AgedRec := []
  nextAged : Nat := 1
  pending : List Candidate := []
  tokens : Nat := 1024
  tokensAt : Nat := 0
  learnQueue : List Candidate := []
  ports : Tab Word64 := []
  vlans : Tab Word64 := []
  deriving DecidableEq, Repr

/-! ### Traffic -/

structure Queue where
  desc : Word128 := 0
  pkts : List Copy := []
  deficit : Nat := 0
  /-- Instant of first hold of the head (R267). -/
  hold : Option Nat := none
  deriving DecidableEq, Repr

structure Policer where
  desc : Word128
  tc : Nat
  tp : Nat
  last : Nat
  deriving DecidableEq, Repr

structure Shaper where
  desc : Word64 := 0
  pending : Option Word64 := none
  /-- Credit in units of 2^-32 byte. -/
  credit : Int := 0
  deriving DecidableEq, Repr

structure PauseCfg where
  mode : FlowMode := .off
  obey : Bool := false
  quanta : Nat := 0
  high : Tab Nat := []
  low : Tab Nat := []
  /-- XOFF outstanding per class; last XOFF instant. -/
  xoff : Byte := 0
  sentAt : Tab Nat := []
  /-- Received pause: the instant each class resumes. -/
  until_ : Tab Nat := []
  /-- Since when each class stands paused (R271). -/
  since : Tab Nat := []
  deriving DecidableEq, Repr

/-- A gate list (R264): BASE in ns since 0 s, CYCLE, entries (GATES, DURATION). -/
structure GateList where
  base : Nat
  cycle : Nat
  entries : List (Byte × Nat)
  deriving DecidableEq, Repr

structure Gate where
  active : Option GateList := none
  /-- Pending list (none: removal) and its switch instant S. -/
  pending : Option (Option GateList × Nat) := none
  gates : Byte := 0xFF
  deriving DecidableEq, Repr

/-- The frame leaving a client port. -/
structure Leaving where
  copy : Copy
  queue : Nat
  /-- Egress bytes after every edit, FCS included. -/
  bytes : Bytes
  cutThrough : Bool
  /-- It waits for its MACsec protection (R365). -/
  waiting : Bool
  /-- Time of its first bit as R307 (R330, R333). -/
  time : Nat
  deriving DecidableEq, Repr

structure Hist where
  /-- Kind 0 queue, 1 port, 2 allocation, and its number. -/
  source : Option (Nat × Nat) := none
  bins : Tab Nat := []
  deriving DecidableEq, Repr

/-- A buffer frame: the copies that use its cells, its cells, and the frame that takes them over where
copies of it still use them, as a recirculated packet's cells go back to what it was cut from (R235). -/
structure FrameRef where
  copies : Nat := 0
  cells : Nat := 0
  heir : Nat := 0
  /-- Its cells hold an uncorrectable word, and are zeroed before they are free again (R507, R534). -/
  bad : Bool := false
  deriving DecidableEq, Repr

structure Tm where
  free : Nat := 262144
  quarantine : Nat := 0
  spillFree : Nat := 31457280
  /-- The next buffer frame; number 0 stands for no frame. -/
  nextFid : Nat := 1
  refs : Tab FrameRef := []
  queues : Tab Queue := []
  policers : Tab Policer := []
  shapers : Tab Shaper := []
  pause : Tab PauseCfg := []
  accounts : Tab Nat := []
  gates : Tab Gate := []
  leaving : Tab (Option Leaving) := []
  drr : Tab Nat := []
  hists : Tab Hist := []
  hostTurn : Nat := 0
  recircTurn : Tab Nat := []
  deriving DecidableEq, Repr

/-! ### Cipher -/

inductive CipherOp where
  | encrypt | decrypt | cmacGenerate | cmacVerify
  deriving DecidableEq, Repr

/-- What a result releases. -/
inductive CipherRef where
  | fibreDown (r : Reasm)
  | upstream (alloc : Nat)
  | macsecIn (port : Nat) (p : Pkt) (sc : Nat) (an : Nat) (pn : Nat)
  | macsecOut (port : Nat)
  | macsecOwn (port : Nat) (f : OwnFrame)
  | hive
  deriving DecidableEq, Repr

structure CipherReq where
  slot : Nat
  keyIdx : BitVec 2
  op : CipherOp
  bulk : Bool
  source : Nat
  aad : Bytes
  text : Bytes
  iv : BitVec 96
  tag : BitVec 128
  /-- The source's request number, modulo 2^20. -/
  seq : BitVec 20
  /-- The source's handle, and what it names. -/
  handle : Word64
  ref : CipherRef
  /-- A frame of a port in clear, which is returned as it came (R120). -/
  keyless : Bool := false
  /-- The key-derivation unit has looked at the descriptor (R289). -/
  looked : Bool := false
  /-- A word of its data is uncorrectable (R298, R507). -/
  bad : Bool := false
  /-- Since when it has waited in a queue. -/
  at_ : Nat := 0
  deriving DecidableEq, Repr

/-- A request in its pipeline with the result it comes to, or a result held until its turn (R281). -/
structure Result where
  req : CipherReq
  /-- Status of R281, and the output bytes. -/
  status : Nat
  bytes : Bytes
  pipe : Nat
  /-- It has taken one of its engine's descriptors (R280). -/
  taken : Bool := true
  deriving DecidableEq, Repr

/-- What a pipeline saves of a bulk request: the block it goes on with, the GCM counter of that block, and the
GHASH accumulator or CMAC chaining value (R282). -/
structure Saved where
  block : Nat
  counter : Word32
  value : BitVec 128
  deriving DecidableEq, Repr

structure Pipe where
  queue : List CipherReq := []
  running : Option Result := none
  /-- The block at which the running request started or resumed. -/
  block : Nat := 0
  /-- The suspend register: the bulk request, and what is saved of it. -/
  suspended : Option Result := none
  saved : Option Saved := none
  share : Bool := false
  /-- While the oldest bulk request waits, the instant from which its wait counts; while it runs, how long it
  has waited (R284). -/
  bulkWait : Option Nat := none
  hold : Nat := 0
  deriving DecidableEq, Repr

structure Sa where
  an : Nat
  root : Nat
  nextPn : Nat
  lowest : Nat
  inUse : Bool
  /-- Receive: packet numbers accepted that are not below `lowest` (R364). -/
  seen : List Nat
  deriving DecidableEq, Repr

structure RxSc where
  sci : Word64
  sas : List Sa
  deriving DecidableEq, Repr

structure Macsec where
  xpn : Bool := false
  offset : Nat := 0
  withSci : Bool := false
  integrityOnly : Bool := false
  window : Nat := 0
  sci : Word64 := 0
  tx : List Sa := []
  rx : Tab (Option RxSc) := []
  ckn : Bytes := []
  mkaUp : Bool := false
  deriving DecidableEq, Repr

/-- An entry of the derived-key cache: slot and epoch (0 for a direct slot), the key whose schedule it holds, and the
GHASH subkey (R289). -/
structure KeyEntry where
  id : Nat × Nat
  key : BitVec 256
  h : BitVec 128
  deriving DecidableEq, Repr

structure Cipher where
  slots : Tab Word64 := []
  roots : Tab (BitVec 256) := []
  /-- The derived-key cache, most recently used first. -/
  cache : List KeyEntry := []
  /-- Derivations that run or wait, oldest first (R289). -/
  derivations : List (Nat × Nat) := []
  pipes : Tab Pipe := []
  /-- Requests offered by each source and not yet taken by an engine's queue. -/
  waiting : Tab (List CipherReq) := []
  /-- Free descriptors of an engine's request queues (R280). -/
  freeDesc : Tab Nat := []
  nextSeq : Tab (BitVec 20) := []
  handles : Tab Word64 := []
  /-- Next sequence each source releases; results held until then. -/
  release : Tab (BitVec 20) := []
  results : Tab (List Result) := []
  /-- Invocation and last-accepted counters at slot × 4 + KEY_INDEX. -/
  invocation : Tab Nat := []
  accepted : Tab Nat := []
  threshold : Nat := 4294967295
  failures : Tab Nat := []
  /-- Since when the failures are counted (R300). -/
  failuresAt : Nat := 0
  /-- The result last reported to Hive: SEQ, REF, status and output (R281). -/
  reported : Option (BitVec 20 × Word64 × Nat × Bytes) := none
  macsec : Tab Macsec := []
  registrations : Nat := 0
  deriving DecidableEq, Repr

/-! ### Time -/

/-- A counter of R306: seconds, nanoseconds, and fifths of 2^-40 ns, in which a tick of 0.8 ns is
whole (log entry 15); the 40 visible fraction bits are frac / 5. -/
structure Beryl where
  sec : Nat := 0
  ns : Nat := 0
  frac : Nat := 0
  deriving DecidableEq, Repr

structure Servo where
  state : DomState := .unused
  shadow : Beryl := {}
  rate : Int := 0
  acc : Int := 0
  kp : Word32 := 0x00370000
  ki : Word32
  lockNs : Nat := 100
  holdS : Nat := 3
  inRun : Nat := 0
  outRun : Nat := 0
  first : Bool := true
  everLocked : Bool := false
  lastAt : Option Nat := none
  /-- The host has written the gains (R314). -/
  gainsSet : Bool := false
  /-- It has reached LOCKED since the wake from D3 (R311, R343). -/
  sinceWake : Bool := false
  /-- A sample on its way to the servo, with its capture instant (R315, R323, R328). -/
  pending : Option (Int × Nat) := none
  deriving DecidableEq, Repr

/-- Host items of R321 for one channel. -/
structure FibreDelay where
  lambdaD : Nat := 0
  lambdaU : Nat := 0
  delayRx : Nat := 0
  delayTx : Nat := 0
  asym : Int := 0
  deriving DecidableEq, Repr

/-- A capture of one ToD field (R323): SFC, T_c and H_c in units of 2^-16 ns. -/
structure Capture where
  sfc : Nat
  tc : Nat
  hc : Nat
  deriving DecidableEq, Repr

/-- What one second gives of one channel for the differences of R324: T_c − DELAY_RX − H_c and F_c in 2^-16 ps,
x(LAMBDA_D) and x(LAMBDA_U) in 10^-9 nm. -/
structure ChanSecond where
  ch : Nat
  arrival : Int
  round : Int
  xDown : Int
  xUp : Int
  deriving DecidableEq, Repr

/-- An island's replica of the main counter: by how much it differs, and the instant from which it is aligned
(R19, R308). -/
structure Replica where
  off : Int := 0
  from_ : Nat := 0
  deriving DecidableEq, Repr

structure FibreTime where
  theta : Nat := 0
  delays : Tab FibreDelay := []
  lambdaRef : Nat := 1550000
  kappa : Nat := 5400
  captures : Tab (Option Capture) := []
  /-- Last 16 seconds, newest first. -/
  history : List (List ChanSecond) := []
  /-- P̂ in units of 2^-16 ps/nm; 0 invalid, 1 valid, 2 held. -/
  pHat : Int := 0
  validity : Nat := 0
  single : Bool := false
  /-- SFC of the fields last sampled and last estimated from. -/
  sampled : Option Nat := none
  estimated : Option Nat := none
  /-- The fields held at the last sample and at the last estimate: channel and SFC. -/
  sampledOf : List (Nat × Nat) := []
  estimatedOf : List (Nat × Nat) := []
  /-- Instant of the last estimate (R324). -/
  estimatedAt : Nat := 0
  deriving DecidableEq, Repr

structure TsEntry where
  knarrasar : Bool
  tag : Nat
  outcome : Nat
  reason : Nat
  time : BitVec 96
  deriving DecidableEq, Repr

/-- The sleep timer (R342): the source that counts now and since when, whole periods counted before
it in ps, and their error in 10^-7 ps. -/
structure Sleep where
  te : Beryl
  /-- Time asleep so far, in ps. -/
  elapsed : Nat
  onRef : Bool
  since : Nat
  counted : Nat
  error : Nat
  usedRef : Bool
  usedOsc : Bool
  deriving DecidableEq, Repr

structure Time where
  main : Beryl := {}
  mainRate : Int := 0
  a : Servo := { ki := 0x00010000 }
  b : Servo := { ki := 0x00001000 }
  stepNs : Nat := 1000
  slewPpm : Nat := 50
  selectedB : Bool := false
  slewing : Bool := false
  /-- Instant the slew that runs began (R344). -/
  slewAt : Nat := 0
  /-- A domain has reached LOCKED since cold reset or the last TIME_SET (R311). -/
  served : Bool := false
  /-- Woken from D3 and not yet relocked, with its bound in ns (R343). -/
  woke : Option Nat := none
  fibre : FibreTime := {}
  sourceB : DomBSource := .none
  ref25 : Bool := false
  ppsInDelay : Int := 0
  refTol : Nat := 46
  refOk : Bool := false
  ppsEnable : Bool := false
  ppsOffset : Int := 0
  ppsWidth : Nat := 100000000
  todOut : Nat := 3
  todIn : Nat := 3
  /-- Restored configuration waits for the first whole second after READY (R603). -/
  ppsHeld : Bool := false
  /-- The second of the last PPS_OUT edge, none where the next one is the next boundary (R338). -/
  lastPps : Option Nat := none
  /-- Instant at which PPS_OUT falls, or fell (R337). -/
  ppsFall : Nat := 0
  /-- The ToD message still to be sent: the second it names, and the instant of that edge (R339). -/
  todDue : Option (Nat × Nat) := none
  edgeAt : Option (Beryl × Nat) := none
  lastEdge : Option Beryl := none
  ptpDomain : Nat := 24
  ptpMask : Word16 := 0
  ptpAsym : Tab Int := []
  slave : Option Nat := none
  /-- Tag of Knarrasar's next timestamp request (R333). -/
  ownTag : BitVec 15 := 0
  txStamps : Tab (List TsEntry) := []
  lostTags : Tab (List (Bool × Nat)) := []
  /-- Replicas by island (R19, R308). -/
  replicas : Tab Replica := []
  sleep : Option Sleep := none
  deriving DecidableEq, Repr

/-! ### Client ports and lanes -/

structure Port where
  desc : Word64 := 0x005EE00320000000
  filters : Tab (BitVec 48) := []
  aligned : Bool := false
  fecLock : Bool := false
  localFault : Bool := false
  remoteFault : Bool := false
  /-- Since when every link condition has held, or one has failed. -/
  goodSince : Option Nat := none
  badSince : Option Nat := none
  link : Bool := false
  /-- Instant of the last change of the link (R369, time down). -/
  linkAt : Nat := 0
  anDone : Bool := false
  anFailed : Bool := false
  txLpi : Bool := false
  rxLpi : Bool := false
  /-- Instants transmit and receive LPI began. -/
  lpiAt : Nat := 0
  rxLpiAt : Nat := 0
  /-- Since when the port has had nothing to send. -/
  idleSince : Option Nat := none
  eeeKnown : Bool := false
  tw : Nat := 0
  /-- Divert tokens in units of 10^-12 frame, as of `divertAt`. -/
  divert : Nat := 256000000000000
  divertAt : Nat := 0
  /-- Frames on their way to Knarrasar, each with its receive timestamp (R330). -/
  diverted : List (ProtocolKind × Bytes × Nat) := []
  inject : List OwnFrame := []
  /-- Instant from which a first bit may leave after low-power idle (R362). -/
  readyAt : Nat := 0
  /-- Instant at which auto-negotiation last started (R350). -/
  anAt : Nat := 0
  /-- Link training has enabled precoding (R371). -/
  precode : Bool := false
  /-- The port transmits remote fault (R351). -/
  faultSent : Bool := false
  /-- Instants at which the protocols' own timers last ran, by protocol, and whether the next run of the PTP timer
  announces (R329, R473). -/
  timerAt : Tab Nat := []
  announces : Bool := true
  deriving DecidableEq, Repr

structure Lldp where
  enable : Bool := false
  eee : Bool := false
  interval : Nat := 0
  deriving DecidableEq, Repr

structure Aggregation where
  mask : Word16 := 0
  priority : Word16 := 0
  active : Bool := false
  /-- Members collecting and distributing. -/
  distributing : Word16 := 0
  deriving DecidableEq, Repr

structure Ports where
  port : Tab Port := []
  base : BitVec 48 := 0
  lldp : Tab Lldp := []
  aggs : Tab Aggregation := []
  mgmtMode : Nat := 0
  mgmtSync : Bool := false
  /-- Instant of the last reset, from which a link that has not come up since is down (R369). -/
  since : Nat := 0
  deriving DecidableEq, Repr

structure Lane where
  desc : Word64 := 0x00C940003AC00000
  /-- Transmit taps in use: C_M3, C_M2, C_M1, C0, C1 as in the descriptor's bits [41:12]. -/
  liveTaps : BitVec 30 := 0x3AC00
  startTaps : BitVec 30 := 0x3AC00
  state : LaneState := .off
  /-- Order waiting for a transition to end: true exit, false entry (R391). -/
  order : Option Bool := none
  entering : Bool := false
  energyHeld : Bool := false
  energy : Bool := false
  los : Bool := false
  /-- Instant LOS was raised (R398, time in LOS). -/
  losAt : Nat := 0
  lol : Bool := false
  losMasked : Bool := false
  frozen : Bool := false
  heldCoeffs : Bool := false
  /-- Equaliser coefficients as read last; none while there is none to keep (R378, R379). -/
  coeffs : Option Bytes := none
  /-- A masked LOS is unmasked from this instant on (R387). -/
  unmaskAt : Option Nat := none
  /-- SNR estimate, its low-water mark (0 when cleared), and the SNR at DEEP entry, in 0.1 dB. -/
  snr : Nat := 0
  snrLow : Nat := 0
  snrDeep : Nat := 0
  generator : Nat := 0
  checker : Nat := 0
  loopback : Nat := 0
  word : Word64 := 0
  checkLock : Bool := false
  /-- Instant up to which the locked checker's counts stand, and the errors injected by then (R393). -/
  checkedTo : Nat := 0
  injectsSeen : Nat := 0
  /-- The exit that runs began in OFF (R390, R398). -/
  fromOff : Bool := false
  /-- Injection: 0 off, 1 single, 2 continuous; n; into live traffic. -/
  inject : Nat := 0
  injectN : Nat := 0
  injectLive : Bool := false
  /-- Where continuous injection began, its free phase in bits, and the errors counted of it. -/
  injectAt : Nat := 0
  injectPhase : Nat := 0
  injectDone : Nat := 0
  deriving DecidableEq, Repr

/-! ### Power, memory integrity, observability, maintenance, supply -/

/-- What a packet-class bridge counts for one counting port: packets and stored bytes written and read (R519). -/
structure PortFlow where
  wrote : Nat := 0
  wroteBytes : Nat := 0
  took : Nat := 0
  tookBytes : Nat := 0
  deriving DecidableEq, Repr

/-- A handshake bridge: entries written and read so far (R519), and entries that the sender has offered and
holds while the bridge is full (R24). The entries in order are those of the hand-over lists. -/
structure Bridge where
  written : Nat := 0
  read : Nat := 0
  held : Nat := 0
  /-- Since when it has not been empty and has been full, and the ps for which it was so before (R514). -/
  busyAt : Option Nat := none
  fullAt : Option Nat := none
  busyPs : Nat := 0
  fullPs : Nat := 0
  /-- Cell pointers written and read, and the packets by counting port (R519). -/
  cellsIn : Nat := 0
  cellsOut : Nat := 0
  flow : Tab PortFlow := []
  deriving DecidableEq, Repr

structure Detect where
  threshold : Nat := 5
  half : Bool := false
  sustain : Nat := 20
  stretching : Bool := false
  /-- Start of the stretch that runs, and the last instant at which the supply was seen low in it. -/
  since : Nat := 0
  low : Nat := 0
  /-- Length of the stretches that have ended, in ps (R514). -/
  stretched : Nat := 0
  /-- Instants of the stretches, or of an exempt island's sags, in the last 1 ms. -/
  recent : List Nat := []
  sustained : Bool := false
  deriving DecidableEq, Repr

structure Sensor where
  /-- Reading in 0.1 °C. -/
  reading : Int := 0
  overAlarm : Bool := false
  overHot : Bool := false
  failed : Bool := false
  at_ : Nat := 0
  /-- Instant the reading fell to 112 °C or less. -/
  coolAt : Option Nat := none
  deriving DecidableEq, Repr

structure Domain where
  /-- Woken over its setting under R477, and the instant of the last access. -/
  woken : Bool := false
  access : Nat := 0
  /-- Gated and asleep. -/
  asleep : Bool := false
  deriving DecidableEq, Repr

structure Bank where
  retained : Bool := false
  /-- Marked lost: it holds cause bit 3 (R494). -/
  lost : Bool := false
  /-- Zero-filled, and not yet restored from its shadow (R494). -/
  zeroed : Bool := false
  crc : Word32 := 0
  deriving DecidableEq, Repr

structure Power where
  state : PowerState := .d0
  phase : PowerPhase := .idle
  heldWake : Option WakeSource := none
  /-- Instant of the last change of power state. -/
  changed : Nat := 0
  /-- Rails up: every domain takes its setting (R605). -/
  railsUp : Bool := false
  domains : Tab Domain := []
  /-- Power domains whose wake an entry on a bridge has requested (R26, R477). -/
  wanted : List Nat := []
  banks : Tab Bank := []
  detectors : Tab Detect := []
  cap : Nat := 0
  level : Nat := 0
  /-- Instant the level was taken (R495). -/
  levelAt : Nat := 0
  belowSince : Option Nat := none
  sensors : Tab Sensor := []
  throttle : Bool := false
  /-- Consequent actions held back until this instant, by channel (R485). -/
  holdUntil : Tab (Option Nat) := []
  /-- Tamper mismatches in a row (R547). -/
  tamperRun : Nat := 0
  deriving DecidableEq, Repr

structure FilterEntry where
  region : Nat
  addr : Nat
  last : Nat
  landed : Bool
  persistent : Bool
  deriving DecidableEq, Repr

structure MergeEntry where
  region : Nat
  addr : Nat
  data : Word128
  /-- Bytes written, out of `width` bytes. -/
  mask : Word16
  width : Nat
  oldBad : Bool
  at_ : Nat
  deriving DecidableEq, Repr

structure Region where
  bucket : Nat := 0
  latched : Bool := false
  threshold : Nat := 256
  leak : Nat := 16
  pending : Option (Nat × Nat) := none
  /-- Words that hold the poison syndrome, and words whose error has been reported (R503, R509). -/
  poisoned : List Nat := []
  reported : List Nat := []
  /-- In regions 1, 2 and 10, whose words are used again without a restoration: a reported word and the frame that held
  it. -/
  reportedFor : List (Nat × Nat) := []
  /-- Instant of the last leak. -/
  leakAt : Nat := 0
  /-- Where the scrubber of each controller stands, by its part of the region, and the parts that the lap has done
  (R505, R506). -/
  scrubAt : Tab (Option Nat) := []
  partsDone : List Nat := []
  lapStart : Nat := 0
  /-- The lap that runs has been counted as longer than 24 h (R506). -/
  lapLate : Bool := false
  deriving DecidableEq, Repr

/-- An item of a region that waits for its restoration, by the word that lost it (R507); whether it still
holds cause bit 4 (R508, R509). -/
structure LostItem where
  region : Nat
  addr : Nat
  item : Nat
  caused : Bool
  /-- Its restoration has found no usable shadow (R508). -/
  failed : Bool := false
  deriving DecidableEq, Repr

/-- A corrected word that is on its way back to its memory, and when it lands (R499). -/
structure WriteBack where
  region : Nat
  addr : Nat
  due : Nat
  deriving DecidableEq, Repr

structure MemInt where
  regions : Tab Region := []
  /-- The repeat filter of each controller, most recent first, at most 16 (R500): 0 to 23 the bank groups', 24 the
  DRAM's, 25 Hive's, 26 the cipher complex's. -/
  filters : Tab (List FilterEntry) := []
  backs : List WriteBack := []
  /-- Data of the code words that merge buffers have written, by region × 2^40 + address (R502). -/
  words : Tab (Option Word128) := []
  merge : Tab (List MergeEntry) := []
  lost : List LostItem := []
  deriving DecidableEq, Repr

structure ObsCounter where
  count : BitVec 48 := 0
  wrap : Bool := false
  code : Word16 := 0
  level : Bool := false
  /-- What the counted occurrences stood at when they were last counted in. -/
  base : Nat := 0
  deriving DecidableEq, Repr

/-- A trace stamp (R531). -/
structure Stamp where
  code : Nat
  island : Nat
  datum : Nat
  ts32 : Word32
  deriving DecidableEq, Repr

/-- A trace of a tagged packet, by packet ID (R532). -/
structure Trace where
  packet : Nat
  stamps : List Stamp
  copies : Nat
  reason : Nat
  deriving DecidableEq, Repr

structure AuditRec where
  /-- 0 BALANCED, 1 WINDOW, 2 IMBALANCE, 3 SUSPENDED (R539). -/
  state : Nat := 0
  unit : Nat := 0
  time : Word64 := 0
  amount : Int := 0
  /-- IMBALANCE has been raised since the quantity last balanced (R538). -/
  raised : Bool := false
  deriving DecidableEq, Repr

/-- The record stream of an exact-match or rule entry (R542): the counters last read, the 64-bit totals,
the totals its last record gave, and when. -/
structure Stream where
  rawPkts : Nat := 0
  rawBytes : Nat := 0
  pkts : Nat := 0
  bytes : Nat := 0
  sentPkts : Nat := 0
  sentBytes : Nat := 0
  /-- Time in ns of the previous record or of the entry's creation; its instant. -/
  time : Nat := 0
  at_ : Nat := 0
  /-- Instant of the last read that found the counts changed. -/
  changedAt : Nat := 0
  /-- The idle record has been sent since. -/
  idle : Bool := false
  deriving DecidableEq, Repr

structure Ipfix where
  enable : Bool := false
  mask : Byte := 0
  collector : BitVec 128 := 0
  port : Word16 := 0
  domain : Word32 := 0
  active : Nat := 1
  idle : Nat := 1
  /-- The request for the collector's address has been sent; the address has been learnt. -/
  asked : Bool := false
  resolved : Bool := false
  /-- Resolution has failed, and is tried again (R540). -/
  failed : Bool := false
  /-- Messages that wait for the resolution, or for the export to resume: template ID, fields, and whether a data
  record (R540). -/
  held : List (Nat × List Nat × Bool) := []
  sequence : Word32 := 0
  /-- Instant up to which the messages sent fill 100 Mb/s (R543; log entry 28). -/
  filledTo : Nat := 0
  templateAt : Option Nat := none
  resolveAt : Nat := 0
  /-- Streams by entry: profile × 2^320 + key, or 2^330 + rule entry. -/
  streams : Tab Stream := []
  /-- Counter values that the records of the previous dump generation gave, by counter key. -/
  sent : Tab Nat := []
  deriving DecidableEq, Repr

/-- A sample record with what flow export adds to it (R528, R541). -/
structure Sample where
  record : Bytes
  /-- Receive time in ns, counting port and frame length (R541). -/
  time : Nat
  cport : Nat
  length : Nat
  deriving DecidableEq, Repr

/-- A dump that is being written: its generation, its contents, whether the host takes a copy, and what
flow export draws from it (R520, R523, R541). -/
structure DumpJob where
  gen : Nat
  bytes : Bytes
  host : Bool
  cnt : Tab Nat
  samples : List Sample
  audit : Tab AuditRec
  /-- The dump instant in ns, the host buffer and its slots (R523, R541). -/
  at_ : Nat
  addr : Nat
  slots : Nat
  deriving DecidableEq, Repr

structure Obs where
  cycles : Tab Nat := []
  /-- Islands whose clock stood still when their group was last latched, and has not been given one since (R513). -/
  stopped : List Nat := []
  counters : Tab ObsCounter := []
  dumpPeriod : Nat := 0
  dumpHost : Bool := false
  dumpAddr : Word64 := 0
  dumpBytes : Nat := 0
  dumpGenNext : Nat := 1
  dumpWriting : Option DumpJob := none
  dumpSkipped : Nat := 0
  /-- A sample or a trace was lost since the previous generation; a slot was found damaged (R525). -/
  dumpLost : Bool := false
  /-- A counter was lost to an uncorrectable word since the previous generation: it reads as 0 (R525). -/
  dumpZeroed : Bool := false
  /-- Region 13: the dump in each of its 16 slots (R523). -/
  dumps : Tab Bytes := []
  /-- The slots whose generation has been found damaged (R507, R527). -/
  damaged : List Nat := []
  mode : Nat := 0
  rateN : Nat := 0
  lfsr : Tab Word32 := []
  passCount : Tab Nat := []
  /-- Sample records of 128 bytes per slice, newest first (R528). -/
  samples : Tab (List Sample) := []
  traces : List Trace := []
  open_ : List Trace := []
  audit : Tab AuditRec := []
  /-- What the latest point latched: the counts of the bridges, and FLIGHT by counting port × 2, plus 1 for bytes
  (R519, R535). -/
  bridges : Tab Bridge := []
  flight : Tab Nat := []
  /-- The latest audit point, in ms of Beryl time (R518). -/
  auditAt : Option Nat := none
  /-- Offsets of rebased books, by counting port × 2, plus 1 for bytes (R537). -/
  offsets : Tab Int := []
  /-- The first audit point after READY sets RESET_LOSS (R537). -/
  resetLossDue : Bool := false
  /-- Books rebased at the next point, by counting port (R537). -/
  rebase : List Nat := []
  ipfix : Ipfix := {}
  deriving DecidableEq, Repr

/-- A record that Amber holds: where it was written, in bytes since cold reset, and its bytes (R552). -/
structure AmberRec where
  at_ : Nat
  bytes : Bytes
  deriving DecidableEq, Repr

structure Slot where
  /-- The first 16 bytes of the control sector (R564). -/
  sector : Bytes := []
  image : Bytes := []
  deriving DecidableEq, Repr

structure Maint where
  slots : Tab Slot := []
  slot : Nat := 0
  fallback : Bool := false
  /-- Fuses blown in service, over Config.fusedEpoch. -/
  epochBlown : Nat := 0
  /-- The diagnostic page last read from each channel's optics (R547, R581). -/
  optics : Tab Bytes := []
  recorder : Recorder := .running
  ringOffset : Nat := 0
  /-- The records that rules name, newest first (R553; log entry 20). -/
  ring : List AmberRec := []
  recSeq : Word32 := 0
  gap : Nat := 0
  gapDue : Bool := false
  checkpoint : Nat := 0
  /-- Offsets of complete checkpoints and reset markers, newest first, with the version there. -/
  starts : List (Nat × Nat) := []
  seed : BitVec 128 := 0
  seedAt : Nat := 0
  /-- Instant of the last checkpoint, and whether the device state has changed since (R556). -/
  checkAt : Nat := 0
  checkDue : Bool := false
  jtag : JtagInstr := .idcode
  deriving DecidableEq, Repr

structure Supply where
  lockout : Bool := false
  vinMv : Nat := 5000
  pgood : Bool := true
  /-- Since when PGOOD_IN has been high and VIN above 2.65 V together. -/
  goodSince : Option Nat := none
  dyingGasp : Bool := false
  refOk : Bool := false
  /-- The earliest instant of reset release: 1 ms after the lockout's, or 10 ms after a host cold reset. -/
  releaseAt : Nat := 0
  vioLow : Bool := false
  deriving DecidableEq, Repr

/-! ### The whole -/

structure State where
  /-- Commands waiting, first in first out. -/
  pending : List Instr := []
  /-- The model's clock in ps (R415; log entry 2). -/
  now : Nat := 0
  /-- Index of the next free value (log entry 5). -/
  fresh : Nat := 0
  /-- What has left the device, newest first (log entry 4). -/
  out : List Out := []
  /-- Every 64-bit counter and mark, keyed by rule, row and unit (R97; log entry 7). -/
  cnt : Tab Nat := []
  dev : Dev := {}
  hif : Hif := {}
  fib : Fib := {}
  up : Up := {}
  cls : Cls := {}
  tab : Tables := {}
  tm : Tm := {}
  cip : Cipher := {}
  time : Time := {}
  prt : Ports := {}
  lan : Tab Lane := []
  pow : Power := {}
  mem : MemInt := {}
  obs : Obs := {}
  mnt : Maint := {}
  sup : Supply := {}
  /-- The bridges by number, in the order of R17 and R18 (R23). -/
  brg : Tab Bridge := []
  deriving DecidableEq, Repr

/-- The machine right after a power-on reset: COLD, D0, Balanced, RESET_CAUSE 0x01
(R441, R602, R615, R616). -/
def State.reset : State := {}

end Sys2Proof.Machine
end

