-- ==== Sys2Proof/Machine/Table.lean ====
section
/-! DEFINITION. Reads and writes of the sparse tables and of the mailbox memory. A table's
canonical form is: keys strictly rising, and no entry equal to what an unlisted key reads as. -/

namespace Sys2Proof.Machine

open Sys2Proof

/-- What key k reads: its entry, or d when it has none. -/
def tget {α : Type} (d : α) : Tab α → Nat → α
  | [], _ => d
  | e :: t, k => if e.1 = k then e.2 else tget d t k

/-- The table with no entry at k. -/
def terase {α : Type} : Tab α → Nat → Tab α
  | [], _ => []
  | e :: t, k => if e.1 = k then terase t k else e :: terase t k

/-- An entry put in at its place in the rising order. -/
def tinsert {α : Type} : Tab α → Nat → α → Tab α
  | [], k, v => [(k, v)]
  | e :: t, k, v => if k < e.1 then (k, v) :: e :: t else e :: tinsert t k v

/-- Key k written with v; a value equal to the default leaves no entry. -/
def tset {α : Type} [DecidableEq α] (d : α) (t : Tab α) (k : Nat) (v : α) : Tab α :=
  if v = d then terase t k else tinsert (terase t k) k v

/-- Keys strictly rising. -/
def tsorted {α : Type} : Tab α → Bool
  | [] => true
  | [_] => true
  | e :: f :: t => decide (e.1 < f.1) && tsorted (f :: t)

/-- The canonical form over the default d. -/
def twf {α : Type} [DecidableEq α] (d : α) (t : Tab α) : Bool :=
  tsorted t && t.all (fun e => decide (e.2 ≠ d))

/-- Bytes written from address a upwards. -/
def putBytes (m : Tab Byte) : Nat → Bytes → Tab Byte
  | _, [] => m
  | a, b :: bs => putBytes (tset 0 m a b) (a + 1) bs

/-- len bytes read from address a upwards. -/
def getBytes (m : Tab Byte) (a len : Nat) : Bytes :=
  (List.range len).map (fun i => tget 0 m (a + i))

/-- Every byte from address a below address e reads 0. -/
def zeroBytes (m : Tab Byte) (a e : Nat) : Tab Byte :=
  m.filter (fun c => decide (c.1 < a) || decide (e ≤ c.1))

end Sys2Proof.Machine
end

