-- ==== Sys2Proof/Machine/Ops.lean ====
section
/-! DEFINITION. The named operations every family shares: counters, free values, the output trace,
Beryl time, MSI-X causes, events and the event ring, the state word and changes of device state. -/

namespace Sys2Proof.Machine

open Sys2Proof

/-- The outcome of every command that completes. -/
abbrev Answer := Host.Outcome State Fault Refusal

/-! ### Counters, free values, outputs -/

/-- The key of the counter that a rule's table row keeps for a unit (log entry 7). -/
def ck (rule row unit : Nat) : Nat := (rule * 256 + row) * 16777216 + unit

/-- The value of a counter. -/
def State.count (s : State) (k : Nat) : Nat := tget 0 s.cnt k

/-- A counter with n added. -/
def bump (k n : Nat) (s : State) : State := { s with cnt := tset 0 s.cnt k (tget 0 s.cnt k + n) }

/-- A counter or mark set to n. -/
def setCount (k n : Nat) (s : State) : State := { s with cnt := tset 0 s.cnt k n }

/-- A high-water mark raised to n. -/
def markHigh (k n : Nat) (s : State) : State :=
  if tget 0 s.cnt k < n then setCount k n s else s

/-- The free value at hand, and the state whose next free value is another (log entry 5). -/
def takeFree (s : State) : Nat × State := (Config.freeValue s.fresh, { s with fresh := s.fresh + 1 })

/-- An output appended to the trace. -/
def emit (o : Out) (s : State) : State := { s with out := o :: s.out }

/-! ### Beryl time -/

/-- Units of `Beryl.frac` in one nanosecond. -/
def fracNs : Nat := 5 * 2 ^ 40

/-- A counter as a number of fifths of 2^-40 ns since 0 s. -/
def Beryl.total (b : Beryl) : Nat := (b.sec * 1000000000 + b.ns) * fracNs + b.frac

/-- The counter that stands at a total. -/
def berylOf (n : Nat) : Beryl :=
  { sec := n / fracNs / 1000000000, ns := n / fracNs % 1000000000, frac := n % fracNs }

/-- A counter moved by a signed number of units, not below 0. -/
def Beryl.add (b : Beryl) (d : Int) : Beryl := berylOf ((b.total : Int) + d).toNat

/-- The 96-bit structure of R307; further fraction bits are truncated. -/
def Beryl.word (b : Beryl) : Nat := (b.sec % 2 ^ 48) * 2 ^ 48 + b.ns * 2 ^ 16 + b.frac / 5 / 2 ^ 24

/-- A counter loaded with a structure of R307. -/
def berylOfWord (w : Nat) : Beryl :=
  { sec := fld w 48 48, ns := fld w 16 32, frac := fld w 0 16 * 2 ^ 24 * 5 }

/-- A period of the sleep timer's source in ps: 100 ns or 40 ns on the reference, 30.518 µs on the
internal oscillator (R342). -/
def sleepPeriod (t : Time) (onRef : Bool) : Nat :=
  if onRef then (if t.ref25 then 40000 else 100000) else 30518000

/-- Whole periods that the present source has counted, in ps. -/
def sleepRun (t : Time) (sl : Sleep) : Nat :=
  (sl.elapsed - sl.since) / sleepPeriod t sl.onRef * sleepPeriod t sl.onRef

/-- E, in ps (R342). -/
def sleepE (t : Time) (sl : Sleep) : Nat := sl.counted + sleepRun t sl

/-- Tolerance of a source in 10^-7: REF_TOL, or 200 ppm (R342). -/
def sleepTol (t : Time) (onRef : Bool) : Nat := if onRef then t.refTol else 2000

/-- B in ps, rounded up (R342). -/
def sleepB (t : Time) (sl : Sleep) : Nat :=
  (sl.error + sleepRun t sl * sleepTol t sl.onRef + 9999999) / 10000000
    + (if sl.usedRef then sleepPeriod t true else 0) + (if sl.usedOsc then sleepPeriod t false else 0)

/-- The main counter as it reads now: in D3 the sleep timer stands for it (R342). -/
def mainNow (s : State) : Beryl :=
  match s.time.sleep with
  | none => s.time.main
  | some sl => sl.te.add ((sleepE s.time sl * fracNs / 1000 : Nat) : Int)

/-- TIME as R307 at this moment. -/
def timeWord (s : State) : Nat := (mainNow s).word

/-- Units of 2^-16 ns of a counter: the grain of the model's packet stamps. -/
def Beryl.stamp (b : Beryl) : Nat := b.total / (5 * 2 ^ 24)

/-- The instant n microseconds or milliseconds after another, in ps. -/
def us (n : Nat) : Nat := n * 1000000
def ms (n : Nat) : Nat := n * 1000000000

/-- An instant that has been set and reached. -/
def due (s : State) (o : Option Nat) : Bool :=
  match o with
  | none => false
  | some t => decide (t ≤ s.now)

/-- An interval of d ps since a noted start has passed. -/
def passed (s : State) (start : Option Nat) (d : Nat) : Bool :=
  match start with
  | none => false
  | some t => decide (t + d ≤ s.now)

/-! ### MSI-X (R425, R426) -/

def vecOf (s : State) (v : Nat) : MsixVec := tget {} s.hif.msix v

def setVec (v : Nat) (x : MsixVec) (s : State) : State :=
  { s with hif := { s.hif with msix := tset {} s.hif.msix v x } }

/-- DMA is allowed: Bus Master Enable set and the function not in D3hot (R404). -/
def dmaOk (s : State) : Bool := s.hif.busMaster && !s.hif.d3hot

/-- A vector fires: its message leaves, or its pending bit is set where it is masked or no message
may be sent (R404, R426). The causes it stood for are spent. -/
def fireVec (v : Nat) (s : State) : State :=
  let x := vecOf s v
  let quiet := { x with causes := 0, first := none }
  if x.masked || !dmaOk s then setVec v { quiet with pend := true } s
  else emit (.msix v) (setVec v quiet s)

/-- The moderation of a vector has been met: COUNT causes, or HOLDOFF past since the first (R426). -/
def vecDue (s : State) (x : MsixVec) : Bool :=
  decide (x.causes > 0) &&
    (decide (x.causes ≥ x.countM1.toNat + 1) || passed s x.first (us x.holdoff.toNat))

/-- A cause of a vector (R425): vector 1 has no moderation (R426). -/
def causeVec (v : Nat) (s : State) : State :=
  if v = 1 then fireVec v s
  else
    let x := vecOf s v
    let y := { x with causes := x.causes + 1, first := some (x.first.getD s.now) }
    if vecDue s y then fireVec v (setVec v y s) else setVec v y s

/-! ### Events (R420 to R424) -/

/-- The 32-byte record of an event (R421). -/
def eventBytes (e : Event) (phase : Bool) : Bytes :=
  leBytes 4 e.seq.toNat ++ leBytes 2 e.typ.toNat ++ leBytes 1 (b2n phase + 2 * b2n e.urgent)
    ++ [e.index] ++ leBytes 12 e.time.toNat ++ fit 12 e.payload

/-- The ring takes records: enabled, DMA allowed, and not full (R404, R420, R621). -/
def ringRoom (s : State) : Bool :=
  s.hif.evtEnable && dmaOk s
    && decide (subMod 32 s.hif.evtProducer.toNat s.hif.evtConsumer.toNat < s.hif.evtEntries.toNat)

/-- One record written at the next position, with its cause on vector 0 or 1 (R422, R425). -/
def writeRecord (e : Event) (s : State) : State :=
  let n := s.hif.evtEntries.toNat
  let pos := s.hif.evtProducer.toNat % n
  let addr := s.hif.evtBase.toNat + 32 * pos
  let phase := if pos + 1 = n then !s.hif.evtPhase else s.hif.evtPhase
  let s1 := emit (.hostWrite addr (eventBytes e s.hif.evtPhase)) s
  let s2 := { s1 with hif := { s1.hif with
    evtProducer := s1.hif.evtProducer + 1, evtPhase := phase, evtWritten := s1.hif.evtWritten + 1 } }
  causeVec (if e.urgent then 1 else 0) s2

/-- An event counted as lost, its SEQ noted when it is the lowest (R424, R440). -/
def loseEvent (seq : Word32) (s : State) : State :=
  let lost := match s.hif.lost with
    | none => (seq, 1)
    | some (lo, n) => (if before 32 seq.toNat lo.toNat then seq else lo, n + 1)
  bump (ck 440 5 0) 1 { s with hif := { s.hif with lost := some lost, evtLost := s.hif.evtLost + 1 } }

/-- The newest non-urgent event taken out of a backlog. -/
def takeNewest : List Event → Option (Event × List Event)
  | [] => none
  | e :: l =>
    match takeNewest l with
    | some (x, rest) => some (x, e :: rest)
    | none => if e.urgent then none else some (e, l)

/-- An event put into the backlog of 256 (R424). -/
def backlogEvent (e : Event) (s : State) : State :=
  if s.hif.backlog.length < 256 then
    { s with hif := { s.hif with backlog := s.hif.backlog ++ [e] } }
  else if e.urgent then
    match takeNewest s.hif.backlog with
    | some (x, rest) => loseEvent x.seq { s with hif := { s.hif with backlog := rest ++ [e] } }
    | none => loseEvent e.seq s
  else loseEvent e.seq s

/-- An event raised with a TIME of its own (R421): SEQ is assigned now, and the record is written at
once, or waits in the backlog while the ring has no room or older events wait (R424). -/
def raiseAt (time : Nat) (typ : Nat) (urgent : Bool) (index : Nat) (payload : Bytes)
    (s : State) : State :=
  let e : Event := { seq := s.hif.evtSeq, typ := BitVec.ofNat 16 typ, urgent := urgent,
                     index := BitVec.ofNat 8 index, time := BitVec.ofNat 96 time, payload := payload }
  let s1 := { s with hif := { s.hif with evtSeq := s.hif.evtSeq + 1 } }
  if ringRoom s1 && s1.hif.backlog.isEmpty && s1.hif.lost.isNone then writeRecord e s1
  else backlogEvent e s1

/-- An event raised at the moment of detection. -/
def raise (typ : Nat) (urgent : Bool) (index : Nat) (payload : Bytes) (s : State) : State :=
  raiseAt (timeWord s) typ urgent index payload s

/-! ### Device state (R419, R441, R442) -/

/-- Device state codes (R419). -/
def DevState.code : DevState → Nat
  | .cold => 1 | .loading => 2 | .standby => 3 | .active => 4 | .degraded => 5 | .safe => 6
  | .maintenance => 7

def Profile.code : Profile → Nat
  | .latency => 0 | .balanced => 1 | .depth => 2 | .economy => 3

def profileOf : Nat → Profile
  | 0 => .latency | 1 => .balanced | 2 => .depth | _ => .economy

def PowerState.code : PowerState → Nat
  | .d0 => 0 | .d1 => 1 | .d2 => 2 | .d3 => 3

def powerOf : Nat → PowerState
  | 0 => .d0 | 1 => .d1 | 2 => .d2 | _ => .d3

/-- The word that reports device states (R419). -/
def stateWord (s : State) : Nat :=
  s.dev.state.code + 256 * s.pow.state.code + 4096 * s.dev.inForce.code

/-- The device runs traffic: ACTIVE or DEGRADED, or MAINTENANCE entered from either (R441). -/
def inService (s : State) : Bool :=
  match s.dev.state with
  | .active | .degraded => true
  | .maintenance => s.dev.maintFrom == .active || s.dev.maintFrom == .degraded
  | _ => false

/-- A state after LOADING (R473). -/
def afterLoading (s : State) : Bool :=
  match s.dev.state with
  | .cold | .loading => false
  | _ => true

/-- The states in which Knarrasar's standard services run (R473). -/
def servicesRun (s : State) : Bool :=
  s.dev.state == .active || s.dev.state == .degraded || s.dev.state == .maintenance

/-- A change of device state with its STATE_CHANGE event; entry to ACTIVE ends random tagging
(R442, R469, R474, R530). -/
def changeState (d : DevState) (s : State) : State :=
  let old := stateWord s
  let mode := if d == .active && s.obs.mode == 2 then 0 else s.obs.mode
  let s1 := { s with
    dev := { s.dev with state := d }, obs := { s.obs with mode := mode }
    mnt := { s.mnt with checkDue := true } }
  let why := if d == .safe then s.dev.alarmLatch.toNat else s.dev.causes.toNat
  raise 0x0101 (d == .safe || s.dev.state == .safe) 0xFF
    (leBytes 4 (stateWord s1) ++ leBytes 4 old ++ leBytes 4 why) s1

/-- A cause of R443 set or cleared. -/
def setCause (i : Nat) (b : Bool) (s : State) : State :=
  { s with dev := { s.dev with causes := BitVec.ofNat 5 (setBit s.dev.causes.toNat i b) } }

/-! ### Power domains -/

/-- Power-cap level raised or lowered (R490), with DROOP_ESCALATION and cause bit 2 of R443. -/
def effectiveCap (s : State) : Nat :=
  let a := if s.pow.cap = 0 then 120 else min s.pow.cap 120
  if s.dev.inForce == .economy then min a 60 else a

/-- The Economy cap is the effective cap at this moment (R490). -/
def economyCaps (s : State) : Bool := s.dev.inForce == .economy && decide (effectiveCap s = 60)

def setLevel (n index : Nat) (s : State) : State :=
  let s0 := bump (ck 495 18 s.pow.level) ((s.now - s.pow.levelAt) / 1000000) s
  let s1 := { s0 with pow := { s0.pow with level := n, levelAt := s.now } }
  let s2 := setCause 2 (decide (n ≥ 1) && !economyCaps s1) s1
  raise 0x0A03 false index (leBytes 1 n) s2

end Sys2Proof.Machine
end

