-- ==== Sys2Proof/Machine/Clock.lean ====
section
/-! DEFINITION. The passing of one main-counter tick, which is what a step does while no command
waits (log entry 2). -/

namespace Sys2Proof.Machine

open Sys2Proof

/-- Units a counter advances by in a tick of 0.8 ns at a rate correction in 2^-40 ns per tick
(R306, R310). -/
def tickUnits (rate : Int) : Int := 4 * 2 ^ 40 + 5 * rate

/-- The main counter's rate: the selected shadow's, bent towards it while a slew runs (R317, R319). -/
def slewedRate (t : Time) : Int :=
  let x := if t.selectedB then t.b else t.a
  if t.slewing then
    let delta : Int := ((t.main.total : Int) - x.shadow.total) / 5
    let step : Nat := t.slewPpm * 4 * 2 ^ 40 / 5000000
    x.rate - delta.sign * (min step delta.natAbs : Nat)
  else x.rate

/-- One main-counter tick: the counters advance, or in D3 the sleep timer does (R306, R342). -/
def idleTick (s : State) : State :=
  let t := s.time
  let t1 := match t.sleep with
    | some sl => { t with sleep := some { sl with elapsed := sl.elapsed + 800 } }
    | none =>
      { t with
        mainRate := slewedRate t
        main := t.main.add (tickUnits (slewedRate t))
        a := { t.a with shadow := t.a.shadow.add (tickUnits t.a.rate) }
        b := { t.b with shadow := t.b.shadow.add (tickUnits t.b.rate) } }
  { s with now := s.now + 800, time := t1 }

/-! ### Instants that an event names

A row of the table such as a timer's expiry says that its instant has come. Where the clock has not
reached that instant yet, the ticks until then pass first (log entry 2). -/

/-- What is left of a slew's difference after n ticks (R319). -/
def slewLeft (t : Time) (n : Nat) : Int :=
  let x := if t.selectedB then t.b else t.a
  let delta : Int := (t.main.total : Int) - x.shadow.total
  let step : Nat := t.slewPpm * 4 * 2 ^ 40 / 5000000
  delta.sign * (delta.natAbs - 5 * step * n : Nat)

/-- n main-counter ticks at once. -/
def ticks (n : Nat) (s : State) : State :=
  let t := s.time
  let run := fun (x : Servo) => { x with shadow := x.shadow.add (n * tickUnits x.rate) }
  let a := run t.a
  let b := run t.b
  let t1 := match t.sleep with
    | some sl => { t with sleep := some { sl with elapsed := sl.elapsed + 800 * n } }
    | none =>
      let x := if t.selectedB then b else a
      let main := if t.slewing then x.shadow.add (slewLeft t n)
        else t.main.add (n * tickUnits (if t.selectedB then t.b else t.a).rate)
      { t with main := main, a := a, b := b }
  { s with now := s.now + 800 * n, time := t1 }

/-- The clock has reached an instant. -/
def passTo (t : Nat) (s : State) : State :=
  if t ≤ s.now then s else ticks ((t - s.now + 799) / 800) s

/-- The clock has reached the end of an interval that began at a noted start. -/
def passSince (start : Option Nat) (d : Nat) (s : State) : State :=
  match start with
  | none => s
  | some t => passTo (t + d) s

/-- Ticks in which a counter at a total reaches a target at so many units per tick. -/
def ticksTo (total target per : Nat) : Nat := (target - total + per - 1) / per

/-- Ticks until the main counter reaches a target: at the slewed rate while the difference lasts, then with the
selected shadow (R317, R319). -/
def mainTicks (t : Time) (target : Nat) : Nat :=
  let x := if t.selectedB then t.b else t.a
  let per := (tickUnits x.rate).toNat
  let step : Nat := t.slewPpm * 4 * 2 ^ 40 / 5000000
  let delta : Int := (t.main.total : Int) - x.shadow.total
  let n := ticksTo t.main.total target (tickUnits (x.rate - delta.sign * step)).toNat
  if t.slewing && decide (5 * step * n < delta.natAbs) then n else ticksTo x.shadow.total target per

/-- The main counter has reached a total. -/
def passMain (target : Nat) (s : State) : State :=
  if target ≤ s.time.main.total then s else ticks (mainTicks s.time target) s

/-! ### Fibre bit times

A bit time of 99.5328 Gb/s is 10^7 / 995,328 ps (R46, R98). -/

/-- The instant of a bit time since instant 0. -/
def bitsPs (n : Nat) : Nat := n * 10000000 / 995328

/-- The bit time at an instant. -/
def psBits (t : Nat) : Nat := t * 995328 / 10000000

/-! ### Replicas (R19, R308, R330) -/

def replicaOf (s : State) (i : Nat) : Replica := tget {} s.time.replicas i

/-- An island's replica is aligned. -/
def replicaAligned (s : State) (i : Nat) : Bool := decide ((replicaOf s i).from_ ≤ s.now)

/-- The time that an island reads on its replica (R308). -/
def replicaNow (s : State) (i : Nat) : Beryl := (mainNow s).add (replicaOf s i).off

/-- A deglitch filter of a width: a level held for less is ignored and counted; one held for the width takes effect
the width after the pin's edge, which is now (R546). -/
def deglitch (row unit width held : Nat) (f : State → State) (s : State) : State :=
  if held < width then bump (ck 546 row unit) 1 s else f (passTo (s.now + width) s)

/-- An island's replica realigns: within 2 µs, to within 0.2 ns of the main counter (R308). -/
def realign (i : Nat) (s : State) : State :=
  let (v, s1) := takeFree s
  let x : Replica := {
    off := (v % (2 * (fracNs / 5) + 1) : Nat) - ((fracNs / 5 : Nat) : Int), from_ := s.now + v % 2000001 }
  { s1 with time := { s1.time with replicas := tset {} s1.time.replicas i x } }

/-- The islands that take timestamps or time gates (R308, R330, R531). -/
def replicaIslands : List Nat :=
  (List.range 10) ++ (List.range 4).map (10 + ·) ++ (List.range 6).map (15 + ·) ++ (List.range 4).map (22 + ·)
    ++ (List.range 8).map (26 + ·) ++ [40]

/-- A stamp taken on an island's replica, in units of 2^-16 ns; while it is not aligned none is taken, and what
stands in its place is free (R308, R330). -/
def stampOn (i : Nat) (s : State) : Nat × State :=
  if replicaAligned s i then ((replicaNow s i).stamp, s)
  else
    let (v, s1) := takeFree s
    (v % 2 ^ 112, s1)

/-- A stamp in units of 2^-16 ns as R307. -/
def stampWord (t : Nat) : Nat :=
  t / 65536 / 1000000000 * 2 ^ 48 + t / 65536 % 1000000000 * 65536 + t % 65536

end Sys2Proof.Machine
end

