-- ==== Sys2Proof/Machine/Access.lean ====
section
/-! DEFINITION. Reads and changes of the units' records: one read and one modification per unit,
through which every family goes. -/

namespace Sys2Proof.Machine

open Sys2Proof

def rxOf (s : State) (ch : Nat) : RxChan := tget {} s.fib.rx ch

def modRx (ch : Nat) (f : RxChan → RxChan) (s : State) : State :=
  { s with fib := { s.fib with rx := tset {} s.fib.rx ch (f (tget {} s.fib.rx ch)) } }

def modBond (f : Bond → Bond) (s : State) : State :=
  { s with fib := { s.fib with bond := f s.fib.bond } }

def actOf (s : State) (ch : Nat) : ActChan := tget {} s.fib.act ch

def modAct (ch : Nat) (f : ActChan → ActChan) (s : State) : State :=
  { s with fib := { s.fib with act := tset {} s.fib.act ch (f (tget {} s.fib.act ch)) } }

def groupOf (s : State) (g : Nat) : Group := tget {} s.fib.groups g

def modGroup (g : Nat) (f : Group → Group) (s : State) : State :=
  { s with fib := { s.fib with groups := tset {} s.fib.groups g (f (tget {} s.fib.groups g)) } }

def txOf (s : State) (ch : Nat) : TxChan := tget {} s.up.tx ch

def modTx (ch : Nat) (f : TxChan → TxChan) (s : State) : State :=
  { s with up := { s.up with tx := tset {} s.up.tx ch (f (tget {} s.up.tx ch)) } }

def portOf (s : State) (p : Nat) : Port := tget {} s.prt.port p

def modPort (p : Nat) (f : Port → Port) (s : State) : State :=
  { s with prt := { s.prt with port := tset {} s.prt.port p (f (tget {} s.prt.port p)) } }

def laneOf (s : State) (l : Nat) : Lane := tget {} s.lan l

def modLane (l : Nat) (f : Lane → Lane) (s : State) : State :=
  { s with lan := tset {} s.lan l (f (tget {} s.lan l)) }

def queueOf (s : State) (q : Nat) : Queue := tget {} s.tm.queues q

def modQueue (q : Nat) (f : Queue → Queue) (s : State) : State :=
  { s with tm := { s.tm with queues := tset {} s.tm.queues q (f (tget {} s.tm.queues q)) } }

def pauseOf (s : State) (p : Nat) : PauseCfg := tget {} s.tm.pause p

def modPause (p : Nat) (f : PauseCfg → PauseCfg) (s : State) : State :=
  { s with tm := { s.tm with pause := tset {} s.tm.pause p (f (tget {} s.tm.pause p)) } }

def macsecOf (s : State) (p : Nat) : Macsec := tget {} s.cip.macsec p

def modMacsec (p : Nat) (f : Macsec → Macsec) (s : State) : State :=
  { s with cip := { s.cip with macsec := tset {} s.cip.macsec p (f (tget {} s.cip.macsec p)) } }

def pipeOf (s : State) (p : Nat) : Pipe := tget {} s.cip.pipes p

def modPipe (p : Nat) (f : Pipe → Pipe) (s : State) : State :=
  { s with cip := { s.cip with pipes := tset {} s.cip.pipes p (f (tget {} s.cip.pipes p)) } }

def regionOf (s : State) (r : Nat) : Region := tget {} s.mem.regions r

def modRegion (r : Nat) (f : Region → Region) (s : State) : State :=
  { s with mem := { s.mem with regions := tset {} s.mem.regions r (f (tget {} s.mem.regions r)) } }

/-! ### Items lost to uncorrectable words (R507 to R509) -/

/-- Kinds of items: in region 3 queue, policer, shaper and gate list; in region 5 parse word, comparator,
key profile, port entry and VLAN entry; in region 8 slot, epoch entry and counter. Elsewhere 0. -/
def item (kind n : Nat) : Nat := kind + 8 * n

/-- The bank group that holds an item, where a zero fill loses it with the group (R491, R494; log entry 47). -/
def bankOfItem (region i : Nat) : Option Nat :=
  match region with
  | 0 => some (i / 8 / 131072 * 2 + i / 8 % 131072 / 65536)
  | 3 => some 18 | 5 => some 20 | 6 => some 21 | 7 => some 22
  | 8 => if i % 8 = 2 then none else some 23
  | _ => none

/-- The item of a region that a word belongs to. A shadow record's item names the region and the item it shadows. -/
def itemOfWord (r addr : Nat) : Nat :=
  let v := Config.itemAt r addr
  match r with
  | 0 => item 0 (v % 524288)
  | 3 =>
    if v % 4 = 0 then item 0 (v / 4 % 1024)
    else if v % 4 = 1 then item 1 (v / 4 % 8192)
    else if v % 4 = 2 then item 2 (v / 4 % 1088)
    else item 3 (if v / 4 % 2 = 0 then v / 8 % 16 else 0x8000 + v / 8 % 16384)
  | 4 => item (v % 2) (v / 2 % 16)
  | 5 =>
    if v % 5 = 0 then item 0 (v / 5 % 4096)
    else if v % 5 = 1 then item 1 (v / 5 % 256)
    else if v % 5 = 2 then item 2 (v / 5 % 15)
    else if v % 5 = 3 then item 3 (v / 5 % 64)
    else item 4 (v / 5 % 4096)
  | 6 => item 0 (v % 8192)
  | 7 => item 0 (8192 + v % 8192)
  | 8 =>
    if v % 3 = 0 then item 0 (v / 3 % 8192)
    else if v % 3 = 1 then item 1 (v / 3 % 16)
    else item 2 (v / 3)
  | 12 => v
  | _ => item 0 addr

/-- The shadow record of an item, as an item of region 12. -/
def shadowItem (region i : Nat) : Nat := 16 * i + region

/-- The shadows that region 12 keeps: those of the regions that R507 restores from it. -/
def hasShadow (r : Nat) : Bool := [0, 3, 4, 5, 6, 7, 8].contains r

/-- An item is to be treated as R507 states until it is restored, or until its group is (R494). -/
def itemLost (s : State) (region i : Nat) : Bool :=
  s.mem.lost.any (fun e => e.region == region && e.item == i)
    || (match bankOfItem region i with
      | some g => (tget {} s.pow.banks g).zeroed
      | none => false)

/-- Cause bit 4 follows the items that hold it (R509). -/
def settleLoss (s : State) : State := setCause 4 (s.mem.lost.any (·.caused)) s

/-- Lost items that meet a condition are whole again. -/
def recover (f : LostItem → Bool) (s : State) : State :=
  if s.mem.lost.any f then
    settleLoss { s with mem := { s.mem with lost := s.mem.lost.filter (fun e => !f e) } }
  else s

/-- The words of an item are written whole: no error of theirs stands reported any more (R503, R509). -/
def freshWords (region i : Nat) (s : State) : State :=
  let x := regionOf s region
  if x.reported.isEmpty && x.poisoned.isEmpty then s
  else
    let other := fun (a : Nat) => itemOfWord region a != i
    modRegion region (fun x => { x with reported := x.reported.filter other, poisoned := x.poisoned.filter other }) s

/-- An item written anew, and its shadow with it (R508). -/
def rewriteItem (region i : Nat) (s : State) : State :=
  recover (fun e => (e.region == region && e.item == i) || (e.region == 12 && e.item == shadowItem region i))
    (freshWords 12 (shadowItem region i) (freshWords region i s))

def detectOf (s : State) (d : Nat) : Detect := tget {} s.pow.detectors d

def modDetect (d : Nat) (f : Detect → Detect) (s : State) : State :=
  { s with pow := { s.pow with detectors := tset {} s.pow.detectors d (f (tget {} s.pow.detectors d)) } }

def sensorOf (s : State) (d : Nat) : Sensor := tget {} s.pow.sensors d

def modSensor (d : Nat) (f : Sensor → Sensor) (s : State) : State :=
  { s with pow := { s.pow with sensors := tset {} s.pow.sensors d (f (tget {} s.pow.sensors d)) } }

def bankOf (s : State) (g : Nat) : Bank := tget {} s.pow.banks g

def modBank (g : Nat) (f : Bank → Bank) (s : State) : State :=
  { s with pow := { s.pow with banks := tset {} s.pow.banks g (f (tget {} s.pow.banks g)) } }

/-- A change applied for each unit listed. -/
def forEach (l : List Nat) (f : Nat → State → State) (s : State) : State :=
  l.foldl (fun s i => f i s) s

/-! ### Transmit low-power idle and the injection slot (R358, R361, R362) -/

/-- A port leaves transmit low-power idle; its time there is counted (R362, R369). -/
def leaveLpi (p : Nat) (s : State) : State :=
  if (portOf s p).txLpi then
    modPort p (fun x => { x with txLpi := false })
      (bump (ck 369 63 p) ((s.now - (portOf s p).lpiAt) / 1000000) s)
  else s

/-- The port has had nothing to send since now (R361). -/
def noteIdle (p : Nat) (s : State) : State := modPort p (fun x => { x with idleSince := some s.now }) s

/-- Something to send ends low-power idle, and waits Tw before its first bit (R362). -/
def wakePort (p : Nat) (s : State) : State :=
  if (portOf s p).txLpi then modPort p (fun x => { x with readyAt := s.now + us x.tw }) (leaveLpi p s) else s

/-- A frame of Knarrasar's own waits in the injection slot (R358). -/
def injectFrame (p : Nat) (f : OwnFrame) (s : State) : State :=
  noteIdle p (modPort p (fun x => { x with inject := x.inject ++ [f] }) (wakePort p s))

end Sys2Proof.Machine
end

