-- ==== Sys2Proof/Machine/LaneOps.lean ====
section
/-! DEFINITION. Client-port descriptors and lane ownership (R345 to R347), lane descriptors (R375),
and the orders that move a lane between its states (R389 to R391). -/

namespace Sys2Proof.Machine

open Sys2Proof

/-! ### Port descriptors (R347) -/

def Port.mode (p : Port) : Nat := fld p.desc.toNat 60 4
def Port.kr (p : Port) : Bool := p.desc.getLsbD 59
def Port.enable (p : Port) : Bool := p.desc.getLsbD 58
def Port.maxFrame (p : Port) : Nat := fld p.desc.toNat 44 14
def Port.lpiEn (p : Port) : Bool := p.desc.getLsbD 43
def Port.lpiIdle (p : Port) : Nat := fld p.desc.toNat 27 16
def Port.filter (p : Port) : Nat := fld p.desc.toNat 25 2
def Port.downHold (p : Port) : Nat := fld p.desc.toNat 18 7
def Port.macsecOn (p : Port) : Bool := p.desc.getLsbD 17

/-- Lanes of a MODE (R346). -/
def modeLanes : Nat → Nat
  | 1 => 1 | 2 => 1 | 3 => 1 | 4 => 2 | 5 => 4 | _ => 0

/-- Rate of a MODE in Gb/s (R346). -/
def modeRate : Nat → Nat
  | 1 => 25 | 2 => 50 | 3 => 100 | 4 => 200 | 5 => 400 | _ => 0

/-- The lanes that port p owns under a MODE (R346). -/
def lanesOf (p mode : Nat) : List Nat := (List.range (modeLanes mode)).map (p + ·)

/-- Port p owns lane l. -/
def owns (s : State) (p l : Nat) : Bool := (lanesOf p (portOf s p).mode).contains l

/-- The port that owns a client lane. -/
def ownerOf (s : State) (l : Nat) : Option Nat := (List.range 16).find? (fun p => owns s p l)

/-- A port whose MAC runs: ENABLE set, its MODE not 0x0, and the device not under DEVICE_STOP
(R347, R441, R452). -/
def portRuns (s : State) (p : Nat) : Bool :=
  (portOf s p).enable && decide ((portOf s p).mode ≠ 0)
    && (inService s || s.dev.state == .safe)

/-! ### Lane kinds (R370) -/

def isClientLane (l : Nat) : Bool := decide (l < 16)
def isFibreLane (l : Nat) : Bool := decide (16 ≤ l) && decide (l < 20)

/-- A client lane signals NRZ: its port runs 25GBASE-R (R346, R370). -/
def isNrz (s : State) (l : Nat) : Bool :=
  match ownerOf s l with
  | some p => (portOf s p).mode == 1
  | none => false

/-- A lane that signals PAM4 (R370). -/
def isPam4 (s : State) (l : Nat) : Bool := isFibreLane l || (isClientLane l && !isNrz s l)

/-! ### PAM4 on the fibre (R371) -/

/-- The level of a pair of bits, the first transmitted one the more significant. -/
def pamLevel : Bool → Bool → Nat
  | false, false => 0
  | false, true => 1
  | true, true => 2
  | true, false => 3

/-- The bits of a level. -/
def pamBits (n : Nat) : List Bool := [decide (2 ≤ n), n == 1 || n == 2]

/-- The symbols of a run of bits, two to a symbol, without precoding. -/
def pamLevels : List Bool → List Nat
  | a :: b :: l => pamLevel a b :: pamLevels l
  | _ => []

/-! ### Lane descriptors (R375) -/

def Lane.adapt (x : Lane) : Nat := fld x.desc.toNat 60 2
def Lane.squelch (x : Lane) : Bool := x.desc.getLsbD 59
def Lane.txInvert (x : Lane) : Bool := x.desc.getLsbD 63

def Lane.rxInvert (x : Lane) : Bool := x.desc.getLsbD 62
def Lane.losAssert (x : Lane) : Nat := fld x.desc.toNat 51 8
def Lane.losDeassert (x : Lane) : Nat := fld x.desc.toNat 43 8

/-- A byte as a PAM4 receiver reads it from levels that the descriptor inverts (R371, R374, R375). -/
def invertedByte (b : Byte) : Byte :=
  BitVec.ofNat 8 ((((pamLevels (bitsOf [b])).map (3 - ·)).flatMap pamBits).foldl (fun n x => 2 * n + b2n x) 0)

/-- The bytes of a fibre lane that its receiver makes of the levels at the balls. -/
def Lane.receive (x : Lane) (b : Bytes) : Bytes := if x.rxInvert then b.map invertedByte else b

/-- PAM4 levels as they reach the balls: inverted where the descriptor says so (R374, R375). -/
def Lane.drive (x : Lane) (l : List Nat) : List Nat := if x.txInvert then l.map (3 - ·) else l

/-- Link training owns the transmit FIR of a lane: its port is a KR port in training (R349, R376). -/
def trainingOwns (s : State) (l : Nat) : Bool :=
  match ownerOf s l with
  | some p => (portOf s p).kr && (portOf s p).enable && !(portOf s p).anDone
  | none => false

/-- A detector is armed only while its lane is READY and not being taken down (R386). -/
def armed (x : Lane) : Bool := x.state == .ready && !x.entering

/-- The management lane carries frames: it is configured and synchronised, its receiver is armed, and no test has
replaced its traffic (R368, R386, R392, R397). -/
def mgmtUp (s : State) : Bool :=
  let x := laneOf s 20
  decide (s.prt.mgmtMode ≠ 0) && s.prt.mgmtSync && armed x && x.generator == 0 && x.checker == 0
    && decide (x.loopback ≠ 3)

/-! ### Test patterns (R392) -/

/-- Bits of a linear feedback register of so many stages, its feedback the sum of the stages listed. -/
def prbs (deg : Nat) (taps : List Nat) : Nat → Nat → List Bool
  | 0, _ => []
  | n + 1, x =>
    let b := taps.foldl (fun p t => p != bit x (t - 1)) false
    b :: prbs deg taps n ((2 * x + b2n b) % 2 ^ deg)

/-- The first n bits of a pattern, by its code of R466: the PRBS polynomials are those of their names, the patterns of
Annex 36A repeat D21.5, K28.7 and K28.5 (PRESUMED, log entry 50); at which place a PRBS begins, and SSPRQ, are free. -/
def patternBits (code n seed : Nat) (word : Word64) (pam4 : Bool) : List Bool :=
  let cycle := fun (l : List Bool) => (List.range n).map (fun i => l.getD (i % max 1 l.length) false)
  let ten := fun (v : Nat) => (List.range 10).map (fun i => bit v (9 - i))
  match code with
  | 1 => prbs 7 [7, 6] n (1 + seed % 127)
  | 2 => prbs 9 [9, 5] n (1 + seed % 511)
  | 3 => prbs 15 [15, 14] n (1 + seed % 32767)
  | 4 => prbs 23 [23, 18] n (1 + seed % 8388607)
  | 5 => prbs 31 [31, 28] n (1 + seed % 2147483647)
  | 6 => prbs 13 [13, 12, 2, 1] n (1 + seed % 8191)
  | 7 => prbs 31 [31, 28] n (1 + seed % 2147483647)
  | 8 => (List.range n).map (bit seed)
  | 9 =>
    let high := if pam4 then [true, false] else [true]
    cycle ((List.replicate 8 high).flatten ++ List.replicate (8 * high.length) false)
  | 10 => cycle ((List.range 64).map (fun i => word.getLsbD (63 - i)))
  | 11 => cycle (ten 0x2AA)
  | 12 => cycle (ten 0x0F8)
  | _ => cycle (ten 0x0FA ++ ten 0x305)

/-- The first 64 symbols that a generator drives: levels on PAM4, bits otherwise. -/
def patternLevels (code seed : Nat) (word : Word64) (pam4 : Bool) : List Nat :=
  if pam4 then pamLevels (patternBits code 128 seed word true) else (patternBits code 64 seed word false).map b2n

/-! ### Injection and checkers (R393, R394) -/

/-- Bits on the wire of a lane in units of 10^-8 bit per ps (R370). -/
def laneRate (s : State) (l : Nat) : Nat :=
  if isFibreLane l then 9953280
  else if l = 20 then 125000
  else match ownerOf s l with
    | some p =>
      if (portOf s p).mode = 1 then 2578125 else if (portOf s p).mode = 2 then 5312500 else 10625000
    | none => 10625000

/-- Injection reaches what the lane sends: a generated pattern, or live traffic (R394). -/
def injects (x : Lane) : Bool := decide (x.generator ≠ 0) || x.injectLive

/-- Bits sent since continuous injection began: on a fibre lane in service, the bits of its bursts. -/
def injectBits (s : State) (l : Nat) : Nat :=
  let x := laneOf s l
  if isFibreLane l && decide (x.generator = 0) then s.count (ck 130 21 (l - 16)) - x.injectAt
  else (s.now - x.injectAt) * laneRate s l / 100000000

/-- The errors of a continuous injection counted up to now (R394, R398). -/
def settleInject (l : Nat) (s : State) : State :=
  let x := laneOf s l
  if x.inject = 2 && injects x then
    let n := (injectBits s l + x.injectPhase) / 2 ^ x.injectN
    bump (ck 398 21 l) (n - x.injectDone) (modLane l (fun x => { x with injectDone := n }) s)
  else s

/-- What a locked checker has compared since its counts were brought up to date (R393): bits at the lane's rate, and the
errors among them: those injected where the lane hears its own generator (R394, R397), and a free number of the
link's own. -/
def settleChecker (l : Nat) (s0 : State) : State :=
  let s := settleInject l s0
  let x := laneOf s l
  let inj := s.count (ck 398 21 l)
  let mark := modLane l (fun x => { x with checkedTo := s.now, injectsSeen := inj })
  if x.checkLock && decide (x.checkedTo < s.now) then
    let bits := (s.now - x.checkedTo) * laneRate s l / 100000000
    let own := if x.loopback = 1 ∧ x.generator = x.checker then inj - x.injectsSeen else 0
    let (v, s1) := takeFree s
    let (w, s2) := takeFree s1
    let errors := min bits (own + v)
    let s3 := bump (ck 398 18 l) errors (bump (ck 398 17 l) bits s2)
    mark (if isPam4 s l then bump (ck 398 19 l) (errors - w % (v / 2 + 1)) s3 else s3)
  else mark s

/-! ### The equaliser (R377 to R379) -/

/-- The coefficients of a lane stand: adaptation is frozen, or the lane holds them in DEEP (R378, R387, R389). -/
def keepsCoeffs (x : Lane) : Bool := x.frozen || x.adapt == 1 || x.state == .deep

/-- Adaptation freezes: the coefficients are those it has just now, a free value until they are read (R378, R387,
R389). -/
def freezeCoeffs (x : Lane) : Lane := if keepsCoeffs x then x else { x with coeffs := none }

/-- The SNR estimate, and its low-water mark over every estimate since the mark was read (R379). -/
def noteSnr (snr low : Nat) (x : Lane) : Lane :=
  let n := min snr low
  { x with snr := snr, snrLow := if x.snrLow = 0 then n else min x.snrLow n }

/-- The SNR estimate of a lane in READY with a signal, which the equaliser computes anew every 10 µs, and the lowest one
since it was sampled last: free values (R379; log entry 5). -/
def sampleSnr (l : Nat) (s : State) : State :=
  let x := laneOf s l
  if x.state == .ready && !x.los then
    let (v, s1) := takeFree s
    let (w, s2) := takeFree s1
    modLane l (noteSnr (v % 65536) (w % 65536)) s2
  else s

/-- The management link falls with its lane, with the event of R351. -/
def dropMgmt (l : Nat) (s : State) : State :=
  if l = 20 ∧ s.prt.mgmtSync then
    raise 0x0801 false 16 (leBytes 1 0 ++ leBytes 1 1) { s with prt := { s.prt with mgmtSync := false } }
  else s

/-- The running time of a LOS that ends with its lane (R398). -/
def endLos (l : Nat) (s : State) : State :=
  let x := laneOf s l
  if x.los then bump (ck 398 4 l) ((s.now - x.losAt) / 1000000) s else s

/-! ### Orders (R389 to R391) -/

/-- A lane ordered out of DEEP or OFF; during an entry the order waits for its end. -/
def orderExit (l : Nat) (s : State) : State :=
  modLane l (fun x =>
    if x.entering then { x with order := some true }
    else match x.state with
      | .off => { x with state := .exiting, energy := false, fromOff := true }
      | .deep => { x with state := .exiting, energy := false, fromOff := false }
      | .exiting => { x with order := none }
      | .ready => x) s

/-- A lane ordered into DEEP; during EXITING the order waits for READY. A lane that is OFF takes the
DEEP setting when its power domain powers it (R476). -/
def orderDeep (l : Nat) (s : State) : State :=
  modLane l (fun x =>
    match x.state with
    | .ready => { x with entering := true }
    | .exiting => { x with order := some false }
    | .off => { x with state := .deep }
    | .deep => x) s

/-- A lane whose power domain goes off: coefficients lost, nothing monitored (R389). -/
def laneOff (l : Nat) (s : State) : State :=
  dropMgmt l (modLane l (fun x => { x with
    state := .off, order := none, entering := false, energyHeld := false, energy := false,
    los := false, lol := false, losMasked := false, frozen := false, heldCoeffs := false, coeffs := none,
    snrDeep := 0, checkLock := false }) (endLos l (settleChecker l s)))

/-- A lane's power domain is on in D0: every fibre lane, a client lane that a port owns, the
management lane while it is configured (R475). -/
def laneWanted (s : State) (l : Nat) : Bool :=
  if isClientLane l then (ownerOf s l).isSome
  else if isFibreLane l then true
  else decide (s.prt.mgmtMode ≠ 0)

/-- Every lane follows its power domain in D0 and D1 (R348, R475). -/
def syncLanes (s : State) : State :=
  if s.pow.railsUp && (s.pow.state == .d0 || s.pow.state == .d1) then
    forEach (List.range 21) (fun l s =>
      if laneWanted s l then
        (if (laneOf s l).state == .off then orderExit l s else s)
      else laneOff l s) s
  else s

/-- Rate compensation of a lane in the idle before a frame: idle blocks, or on the management lane /I2/ ordered sets,
inserted or deleted as the two clocks differ, a free number (R381, R382, R398). -/
def compensate (l : Nat) (s : State) : State :=
  let (v, s1) := takeFree s
  bump (ck 398 (9 + v % 2) l) (v / 2) s1

/-- An exit that runs completes: the lane is READY, and the exit is counted (R389, R391, R398). -/
def completeExit (l : Nat) (s : State) : State :=
  let s1 := if (laneOf s l).fromOff then s else bump (ck 398 23 l) 1 s
  modLane l (fun x => { x with state := .ready, order := none, energy := false }) s1

end Sys2Proof.Machine
end

