-- ==== Sys2Proof/Machine/Domains.lean ====
section
/-! DEFINITION. The 96 power domains and the setting each takes in each power state (R475, R476). -/

namespace Sys2Proof.Machine

open Sys2Proof

/-- Settings of a power domain (R476). -/
inductive Setting where
  | on | off | gated | retained | deep
  deriving DecidableEq, Repr

/-- The power state whose settings stand: an exit has taken the D0 settings (R482, R484). -/
def settingState (s : State) : PowerState :=
  if s.pow.phase == .exitingD2 || s.pow.phase == .exitingD3 then .d0 else s.pow.state

/-- D2 or D3 settings stand. -/
def lowState (s : State) : Bool := settingState s == .d2 || settingState s == .d3

/-- The setting of a fibre channel's domains: 0 receive lane, 1 delineation, 2 transmit (R475). -/
def fibreSetting (s : State) (c k : Nat) : Setting :=
  match settingState s with
  | .d0 => .on
  | .d1 =>
    if (actOf s c).act == .f0 || (k == 2 && !(actOf s c).txOn) then .gated else .on
  | .d2 => if k < 2 && s.fib.doze.ch == c then .on else .off
  | .d3 => if k = 0 then .deep else .off

/-- A lane's domain: on in D0 and D1, DEEP below, off where nothing wants the lane (R475). -/
def laneSetting (s : State) (wanted : Bool) : Setting :=
  if !wanted then .off else if lowState s then .deep else .on

/-- On in D0 and D1, and off in D2 and D3. -/
def busySetting (s : State) : Setting := if lowState s then .off else .on

/-- On in D0, gated in D1, and off in D2 and D3. -/
def gatedSetting (s : State) : Setting :=
  if lowState s then .off else if settingState s == .d1 then .gated else .on

/-- A MAC/PCS block hosts a port: one of its two lanes is owned (R475). -/
def blockHosts (s : State) (b : Nat) : Bool :=
  (ownerOf s (2 * b)).isSome || (ownerOf s (2 * b + 1)).isSome

/-- The setting of a power domain (R475). -/
def domainSetting (s : State) (d : Nat) : Setting :=
  let eco := s.dev.inForce == .economy
  if d = 0 ∨ d = 89 ∨ d = 94 then .on
  else if !s.pow.railsUp then .off
  else if d = 1 then .on
  else if d = 2 then busySetting s
  else if d < 15 then fibreSetting s ((d - 3) / 3) ((d - 3) % 3)
  else if d < 31 then laneSetting s ((ownerOf s (d - 15)).isSome && !(eco && decide (23 ≤ d)))
  else if d < 39 then
    if blockHosts s (d - 31) && !(eco && decide (35 ≤ d)) then busySetting s else .off
  else if d < 51 then if eco && decide (45 ≤ d) then .off else gatedSetting s
  else if d < 55 then busySetting s
  else if d < 63 then if lowState s then .retained else .on
  else if d < 71 then busySetting s
  else if d < 79 then if lowState s then .retained else .on
  else if d < 87 then gatedSetting s
  else if d < 89 then busySetting s
  else if d = 90 then if settingState s == .d3 then .off else .on
  else if d = 91 then laneSetting s (decide (s.prt.mgmtMode ≠ 0))
  else busySetting s

def domainOf (s : State) (d : Nat) : Domain := tget {} s.pow.domains d

def modDomain (d : Nat) (f : Domain → Domain) (s : State) : State :=
  { s with pow := { s.pow with domains := tset {} s.pow.domains d (f (tget {} s.pow.domains d)) } }

/-- A power domain is usable: on, woken, or in DEEP (R618). -/
def domainOn (s : State) (d : Nat) : Bool :=
  match domainSetting s d with
  | .on | .deep => true
  | .gated => !(domainOf s d).asleep
  | .off | .retained => (domainOf s d).woken

/-- The mask of usable domains (R467, R618). -/
def domainMask (s : State) : Nat := maskOf ((List.range 96).filter (domainOn s))

end Sys2Proof.Machine
end

