-- ==== Sys2Proof/Machine/Bridges.lean ====
section
/-! DEFINITION. The handshake bridges between the 44 islands (R17, R18, R20, R23 to R27, R519): their classes,
their ends, the entries on them, and the wake that an entry towards a sleeping power domain requests. -/

namespace Sys2Proof.Machine

open Sys2Proof

/-! ### Classes (R23) -/

inductive BridgeClass where
  | packet | request | event | register
  deriving DecidableEq, Repr

/-- Entries that a bridge holds. -/
def BridgeClass.depth : BridgeClass → Nat
  | .packet => 32 | .request => 16 | .event => 8 | .register => 2

/-- Bits of an entry. -/
def BridgeClass.width : BridgeClass → Nat
  | .packet => 512 | .request => 128 | .event => 64 | .register => 64

/-- Entries that so many bytes come to. -/
def entriesFor (c : BridgeClass) (bytes : Nat) : Nat := (8 * bytes + c.width - 1) / c.width

/-! ### The power domain of an island -/

/-- The power domain of an island (log entry 17). -/
def islandDomain (i : Nat) : Nat :=
  if i < 4 then 4 + 3 * i
  else if i < 8 then 5 + 3 * (i - 4)
  else if i < 10 then 95
  else if i < 14 then 31 + 2 * (i - 10)
  else if i = 14 then 91
  else if i < 21 then 39 + 6 * ((i - 15) / 3) + (if i % 3 = 0 then 0 else if i % 3 = 1 then 2 else 5)
  else if i = 21 then 55
  else if i < 26 then 51 + (i - 22)
  else if i < 34 then 79 + (i - 26)
  else if i = 34 then 79
  else if i = 35 then 90
  else if i = 36 then 0
  else if i < 39 then 1
  else if i = 39 then 0
  else if i = 40 then 89
  else if i = 41 then 88
  else if i = 42 then 93
  else 94

/-- The power domains of a slice (R475). -/
def sliceDomains (k : Nat) : List Nat := (List.range 6).map (39 + 6 * k + ·)

/-! ### The bridges (R17, R18) -/

/-- A bridge: the islands that write and read it, and its class. -/
structure Link where
  sender : Nat
  receiver : Nat
  cls : BridgeClass
  deriving DecidableEq, Repr

/-- Sender and receiver pairs as bridges of one class. -/
def linksOf (c : BridgeClass) (l : List (Nat × Nat)) : List Link :=
  l.map (fun e => { sender := e.1, receiver := e.2, cls := c })

/-- One bridge from an island to each cipher engine. -/
def toEngines (i : Nat) : List (Nat × Nat) := (List.range 8).map (fun e => (i, 26 + e))

/-- The bonding unit and the cipher engines, whose hold buffers release frames. -/
def releasers : List Nat := 8 :: (List.range 8).map (26 + ·)

/-- The bridges by row of R17 and then of R18, each row in ascending instance number; a row between one block
and several islands of another has one instance for each (log entry 27). The last row is the bridges on which
Propolis sends the erase order to the cipher engines and to the key-derivation unit (R302). -/
def linkRows : List (List Link) :=
  [linksOf .packet ((List.range 4).map (fun n => (n, 8))),
   linksOf .request (toEngines 8),
   linksOf .packet (releasers.flatMap (fun i => [(i, 15), (i, 18)])),
   linksOf .packet (releasers.map (fun i => (i, 23))),
   linksOf .packet ((List.range 4).map (fun g => (10 + g, 15 + 3 * (g / 2)))),
   linksOf .packet ((List.range 4).map (fun g => (10 + g, 23))),
   linksOf .request ((List.range 4).flatMap (fun g => toEngines (10 + g))),
   linksOf .request [(16, 21), (19, 21)],
   linksOf .packet [(17, 22), (20, 22)],
   linksOf .packet ((List.range 4).map (fun g => (25, 10 + g))),
   linksOf .packet [(25, 15), (25, 18)],
   linksOf .packet [(25, 9)],
   linksOf .request (toEngines 9),
   linksOf .packet [(9, 8)],
   linksOf .packet ((List.range 4).map (fun n => (8, 4 + n))),
   linksOf .packet [(23, 41), (41, 23)],
   linksOf .packet [(25, 40), (40, 22)],
   linksOf .register (((List.range 44).filter (· != 37)).map (fun i => (37, i))),
   linksOf .request [(37, 40), (37, 39), (37, 41)],
   linksOf .event (toEngines 39 ++ [(39, 34)])]

/-- Every bridge, in the order of R514. -/
def links : List Link := linkRows.flatten

/-- The number of an instance of a row, both from 0. -/
def linkNo (row n : Nat) : Nat := ((linkRows.take row).flatten).length + n

/-- A bridge by its number. -/
def linkAt (n : Nat) : Link := links.getD n { sender := 37, receiver := 37, cls := .register }

/-- The bridge ports of an island: the bridges of R17 and R18 on which it sends, then those on which it receives
(R514). -/
def portsOf (i : Nat) : List Nat :=
  let has := fun (f : Link → Nat) => (List.range (linkNo 19 0)).filter (fun n => f (linkAt n) == i)
  has (·.sender) ++ has (·.receiver)

/-- The bridge by which Hive reaches an island: a request bridge to PCIe, Propolis and the DRAM controller, a
register bridge to any other (R18). -/
def hiveLink (i : Nat) : Nat :=
  if i = 40 then linkNo 18 0 else if i = 39 then linkNo 18 1 else if i = 41 then linkNo 18 2
  else linkNo 17 (if i < 37 then i else i - 1)

/-! ### Clocks, latency and rate (R20, R21, R23, R27) -/

/-- An island is exempt from stretching: the fibre islands and Beryl (R21). -/
def exemptIsland (i : Nat) : Bool := decide (i < 8) || i == 35 || i == 36

/-- The island of a droop detector: the first detectors in island order, then the second ones of the
two match islands, the table memory island and the buffer island (log entry 17). -/
def detectorIsland (d : Nat) : Nat :=
  if d < 44 then d else if d = 44 then 16 else if d = 45 then 19 else if d = 46 then 21 else 23

/-- An island's nominal clock in Hz (R20, R40). -/
def nominalHz (s : State) (i : Nat) : Nat :=
  if i < 8 then 388800000
  else if i < 10 then 1000000000
  else if i < 14 then 937500000
  else if i = 14 then 125000000
  else if i < 21 then (if s.dev.inForce == .economy then 900000000 else 1250000000)
  else if i < 36 then 1250000000
  else if i = 36 then (if s.time.refOk then (if s.time.ref25 then 25000000 else 10000000) else 32768)
  else if i = 37 then 2000000000
  else if i = 39 then 200000000
  else if i = 41 then 1600000000
  else if i = 43 then 250000000
  else 1000000000

/-- The rate to which a power-cap level holds an island, in percent (R490). -/
def capPercent (level i : Nat) : Nat :=
  let pipeline := decide (15 ≤ i) && decide (i < 21)
  let wider := pipeline || (decide (22 ≤ i) && decide (i < 34))
  if level = 0 then 100
  else if level = 1 then (if pipeline then 75 else 100)
  else if level = 2 then (if wider then 75 else 100)
  else (if wider then 50 else 100)

/-- The rate at which an island's clock runs, in percent of its nominal one: the thermal throttle, a droop
stretch, or the power-cap level, the slowest that is in force; none on an exempt island (R21, R38, R488,
R490). -/
def clockPercent (s : State) (i : Nat) : Nat :=
  if exemptIsland i then 100
  else if s.pow.throttle then 50
  else
    ((List.range 48).filter (fun d => detectorIsland d == i)).foldl (fun m d =>
      let x := detectOf s d
      if x.stretching then min m (if x.half then 50 else 75) else m) (capPercent s.pow.level i)

/-- Cycles of the sender and of the receiver in which an entry written to an empty bridge is usable (R23). -/
def latencyCycles : Nat × Nat := (2, 3)

/-- The time of some cycles of an island's clock as it runs now, in ps, rounded up. -/
def cyclesPs (s : State) (i n : Nat) : Nat :=
  let den := nominalHz s i * clockPercent s i
  (n * 100000000000000 + den - 1) / den

/-- The most an entry takes through an empty bridge now, in ps: a stretch on either side changes this and
nothing else of a bridge (R23, R27). -/
def bridgeLatency (s : State) (n : Nat) : Nat :=
  cyclesPs s (linkAt n).sender latencyCycles.1 + cyclesPs s (linkAt n).receiver latencyCycles.2

/-! ### Entries written and read (R24, R25, R519) -/

def bridgeOf (s : State) (n : Nat) : Bridge := tget {} s.brg n

def storeBridge (n : Nat) (b : Bridge) (s : State) : State := { s with brg := tset {} s.brg n b }

/-- The occupancy count of R25: entries written and not yet read. -/
def Bridge.occupied (b : Bridge) : Nat := b.written - b.read

/-- Since when a condition has held, and the ps for which it held before, as it turns on or off (R514). -/
def runningTime (now : Nat) (on : Bool) (at_ : Option Nat) (ps : Nat) : Option Nat × Nat :=
  if on then (some (at_.getD now), ps) else (none, ps + (now - at_.getD now))

/-- A bridge's counts after a write or a read, with the times for which it is not empty and is full. -/
def setBridge (n : Nat) (b : Bridge) (s : State) : State :=
  let busy := runningTime s.now (decide (b.occupied > 0)) b.busyAt b.busyPs
  let full := runningTime s.now (decide (b.occupied ≥ (linkAt n).cls.depth)) b.fullAt b.fullPs
  storeBridge n { b with busyAt := busy.1, busyPs := busy.2, fullAt := full.1, fullPs := full.2 } s

/-- Entries that the sender holds go onto a bridge of a depth as far as it has room (R24). -/
def Bridge.fill (depth : Nat) (b : Bridge) : Bridge :=
  let m := min b.held (depth - b.occupied)
  { b with written := b.written + m, held := b.held - m }

/-- So many entries offered: those the bridge has room for are written, the rest stay with the sender. -/
def Bridge.offer (depth k : Nat) (b : Bridge) : Bridge :=
  let c : Bridge := { b with held := b.held + k }
  c.fill depth

/-- So many entries taken by the receiver in the order in which they were offered, the sender writing on as
the bridge gains room; never more than were offered. -/
def Bridge.take (depth k : Nat) (b : Bridge) : Bridge :=
  let r := min (b.read + k) (b.written + b.held)
  let w := max b.written r
  let c : Bridge := { b with written := w, read := r, held := b.written + b.held - w }
  c.fill depth

/-- The bridge withholds ready: it holds its full depth (R24). -/
def bridgeReady (s : State) (n : Nat) : Bool := decide ((bridgeOf s n).occupied < (linkAt n).cls.depth)

/-- A power domain that is off is asked to wake (R26, R477). -/
def want (d : Nat) (s : State) : State :=
  if domainOn s d || s.pow.wanted.contains d then s
  else { s with pow := { s.pow with wanted := s.pow.wanted ++ [d] } }

def wantAll (l : List Nat) (s : State) : State := forEach l want s

/-- So many entries offered to a bridge (R24); the receiving island's power domain is asked to wake (R26). -/
def writeLink (n k : Nat) (s : State) : State :=
  want (islandDomain (linkAt n).receiver)
    (setBridge n ((bridgeOf s n).offer (linkAt n).cls.depth k) s)

/-- So many entries taken by the receiver (R24, R25). -/
def readLink (n k : Nat) (s : State) : State :=
  setBridge n ((bridgeOf s n).take (linkAt n).cls.depth k) s

/-- Entries that cross at once: the receiver takes each as it comes, its power domain being asked to wake where it
is off (R26). -/
def crossLink (n k : Nat) (s : State) : State := readLink n k (writeLink n k s)

/-! ### Packets and cells on bridges (R519) -/

def Bridge.flowOf (b : Bridge) (cport : Nat) : PortFlow := tget {} b.flow cport

/-- A packet of a counting port with its stored length written or read: what a bridge counts of it. -/
def noteFlow (n cport len : Nat) (wr rd : Bool) (s : State) : State :=
  let b := bridgeOf s n
  let x := b.flowOf cport
  setBridge n { b with flow := tset {} b.flow cport {
    wrote := x.wrote + b2n wr, wroteBytes := x.wroteBytes + len * b2n wr
    took := x.took + b2n rd, tookBytes := x.tookBytes + len * b2n rd } } s

/-- A packet's entries offered to a bridge. -/
def sendPacket (n k cport len : Nat) (s : State) : State := noteFlow n cport len true false (writeLink n k s)

/-- A packet's entries taken by the receiver. -/
def takePacket (n k cport len : Nat) (s : State) : State := noteFlow n cport len false true (readLink n k s)

/-- A packet that crosses at once. -/
def crossPacket (n k cport len : Nat) (s : State) : State := noteFlow n cport len true true (crossLink n k s)

/-- Cells that cross at once with their pointers. -/
def crossCells (n k cells : Nat) (s : State) : State :=
  let t := crossLink n k s
  let b := bridgeOf t n
  setBridge n { b with cellsIn := b.cellsIn + cells, cellsOut := b.cellsOut + cells } t

/-- Cell pointers in flight on some bridges, as counted (R519, R534). -/
def cellsInFlight (t : Tab Bridge) (l : List Nat) : Nat :=
  l.foldl (fun n i => n + ((tget {} t i).cellsIn - (tget {} t i).cellsOut)) 0

/-- Packets, or stored bytes, of a counting port in flight on the bridges, as counted (R519, R535). -/
def packetsInFlight (t : Tab Bridge) (cport : Nat) (bytes : Bool) : Nat :=
  t.foldl (fun n e =>
    let x := e.2.flowOf cport
    n + if bytes then x.wroteBytes - x.tookBytes else x.wrote - x.took) 0

/-! ### Events of islands (R514, R515) -/

/-- An island sees so many occurrences of one of its own events (R515). -/
def ownEvent (island n k : Nat) (s : State) : State := bump (ck 515 (16 + n) island) k s

/-- An island sees so many occurrences of a code that no chapter counts (R514). -/
def countIsland (island code n : Nat) (s : State) : State := bump (ck 514 0xE2 (island * 65536 + code)) n s

/-- A clock may start or stop: an island found stopped may not be so any more (R513). -/
def clocksMayRun (s : State) : State := { s with obs := { s.obs with stopped := [] } }

end Sys2Proof.Machine
end

