-- ==== Sys2Proof/Machine/TrafficOps.lean ====
section
/-! DEFINITION. Buffer cells, the packet books, drops, queues and flow control: what every family
that handles packets shares (chapters 5, 7 and 16). -/

namespace Sys2Proof.Machine

open Sys2Proof

/-! ### Cells (R233 to R235) -/

/-- A list's sum. -/
def total (l : List Nat) : Nat := l.foldl (· + ·) 0

/-- Cells of a stored length (R233). -/
def cellsOf (len : Nat) : Nat := (len + 255) / 256

/-- The quarantined cells zeroed and on the free list again: the zero write is done by the time buffer control admits
the next frame (R507, R534; log entry 40). -/
def zeroQuarantine (s : State) : State :=
  { s with tm := { s.tm with free := s.tm.free + s.tm.quarantine, quarantine := 0 } }

/-- A frame takes its cells; it is marked when the free list runs out (R234). -/
def admitFrame (p : Pkt) (s0 : State) : Pkt × State :=
  let s := zeroQuarantine s0
  let need := cellsOf p.stored
  let got := min need s.tm.free
  let fid := s.tm.nextFid
  ({ p with fid := fid, marked := decide (got < need) },
    { s with tm := { s.tm with
      free := s.tm.free - got, nextFid := fid + 1
      refs := tset {} s.tm.refs fid { copies := 1, cells := got } } })

/-- The slice an input feeds (R29). -/
def sliceOf (s : State) (p : Pkt) : Nat :=
  if s.dev.inForce == .economy then 0
  else if p.source = 0 then b2n (decide (p.inPort ≥ 8))
  else if p.source = 1 then p.portId.toNat % 2
  else b2n (decide (p.inPort ≥ 18))

/-- The input of a slice that a packet comes by: a lane group, or the bonding unit (R30). -/
def inputOf (p : Pkt) : Nat := if p.source = 1 then 4 else p.inPort / 4

/-- The bridge on which a packet's first 512 bytes cross to its slice: from its lane group, from the
bonding unit, or from the engine whose hold buffer released it (R17). -/
def sliceLink (p : Pkt) (k : Nat) : Nat :=
  match p.held with
  | some (pipe, _) => linkNo 2 (2 * (1 + pipe / 2) + k)
  | none => if p.source = 1 then linkNo 2 k else linkNo 4 (p.inPort / 4)

/-- The bridge on which the whole frame crosses to the traffic manager (R17). -/
def cellLink (p : Pkt) : Nat :=
  match p.held with
  | some (pipe, _) => linkNo 3 (1 + pipe / 2)
  | none => if p.source = 1 then linkNo 3 0 else linkNo 5 (p.inPort / 4)

/-- Entries of a packet on its way into a slice: the first 512 bytes, and one for its metadata. -/
def headEntries (p : Pkt) : Nat := entriesFor .packet (min 512 p.frame.length) + 1

/-- What waits for a slice at one of its inputs. -/
def inputList (s : State) (k i : Nat) : List Pkt := tget [] s.cls.inputs (k * 5 + i)

def setInput (k i : Nat) (l : List Pkt) (s : State) : State :=
  { s with cls := { s.cls with inputs := tset [] s.cls.inputs (k * 5 + i) l } }

/-- The stored length that a packet's book counts: it does not change inside the book (R535). -/
def Pkt.booked (p : Pkt) : Nat := if p.entered = 0 then p.stored else p.entered

/-- A frame takes its cells and enters its slice's input (R17, R29, R234); the bridge requests the wake of
the slice's domains where they are off (R26). -/
def toSlice (p : Pkt) (s : State) : State :=
  let (p1, s1) := admitFrame p s
  let k := sliceOf s p
  let p2 := { p1 with slice := k }
  wantAll (sliceDomains k) (setInput k (inputOf p2) (inputList s1 k (inputOf p2) ++ [p2])
    (sendPacket (sliceLink p2 k) (headEntries p2) p2.cport p2.booked
      (crossPacket (cellLink p2) (entriesFor .packet p2.frame.length) p2.cport p2.booked s1)))

/-- A buffer frame's references (R235). -/
def refOf (s : State) (fid : Nat) : FrameRef := tget {} s.tm.refs fid

def setRef (fid : Nat) (r : FrameRef) (s : State) : State :=
  { s with tm := { s.tm with refs := tset {} s.tm.refs fid r } }

/-- n further copies share a frame's cells (R235). -/
def addRefs (fid n : Nat) (s : State) : State :=
  let e := refOf s fid
  setRef fid { e with copies := e.copies + n } s

/-- Cells that a frame no longer uses: they go to the frame it was cut from where copies of that one still use
them, else to the free list (R235). -/
def giveCells (heir n : Nat) (s : State) : State :=
  let h := refOf s heir
  if heir ≠ 0 ∧ h.copies > 0 then setRef heir { h with cells := h.cells + n } s
  else { s with tm := { s.tm with free := s.tm.free + n } }

/-- A frame that no copy uses any more: its cells go to the frame it was cut from where copies of that one
still use them, and else to the free list (R235). -/
def freeFrame (fid : Nat) (s : State) : State :=
  let e := refOf s fid
  let s1 := { s with tm := { s.tm with
    refs := (tset {} s.tm.refs fid {}).map (fun x =>
      if x.2.heir = fid then (x.1, { x.2 with heir := e.heir }) else x) } }
  if e.bad then { s1 with tm := { s1.tm with quarantine := s1.tm.quarantine + e.cells } }
  else giveCells e.heir e.cells s1

/-- One copy no longer uses a frame's cells; the last returns them (R235). -/
def dropRef (fid : Nat) (s : State) : State :=
  let e := refOf s fid
  if e.copies ≤ 1 then freeFrame fid s else setRef fid { e with copies := e.copies - 1 } s

/-- A packet cut to a length of its own: the cells beyond it return, unless other copies still use the
whole frame; then the packet takes its cells as a frame of its own, which return to what it was cut from
(R233, R235). -/
def trimCells (fid len : Nat) (s : State) : Nat × State :=
  let e := refOf s fid
  let n := min e.cells (cellsOf len)
  if e.copies ≤ 1 then (fid, giveCells e.heir (e.cells - n) (setRef fid { e with cells := n } s))
  else
    let new := s.tm.nextFid
    let s1 := setRef new { copies := 1, cells := n, heir := fid }
      (setRef fid { e with copies := e.copies - 1, cells := e.cells - n } s)
    (new, { s1 with tm := { s1.tm with nextFid := new + 1 } })

/-- Entries of so many cells on a packet bridge. -/
def cellEntries (cells : Nat) : Nat := entriesFor .packet (256 * cells)

/-! ### Packet books (R535) -/

inductive Term where
  | input | repl | output | dropped | divert | resetLoss
  deriving DecidableEq, Repr

def Term.row : Term → Nat
  | .input => 0 | .repl => 2 | .output => 4 | .dropped => 6 | .divert => 8 | .resetLoss => 10

/-- A term of a counting port's book, in packets and in stored bytes. -/
def book (t : Term) (cport stored : Nat) (s : State) : State :=
  bump (ck 535 (t.row + 1) cport) stored (bump (ck 535 t.row cport) 1 s)

/-! ### Traces (R531, R532) -/

/-- A tagged packet stamps a stage on the island's replica, once that is aligned (R308); a packet stamps at most
14 times. -/
def stampAt (p : Pkt) (code island datum : Nat) (s : State) : State :=
  if p.traced && replicaAligned s island then
    let st : Stamp := { code := code, island := island, datum := datum
                        ts32 := BitVec.ofNat 32 ((replicaNow s island).stamp / 65536) }
    let add := fun (t : Trace) =>
      if t.packet = p.ident then { t with stamps := (t.stamps ++ [st]).take 14 } else t
    { s with obs := { s.obs with open_ := s.obs.open_.map add } }
  else s

/-- The slice of a packet ID. -/
def sliceOfIdent (n : Nat) : Nat := n / 2 ^ 31 % 2

/-- A trace ends; the 1,024-entry ring takes it, and a record overwritten counts as lost. -/
def endTrace (p : Pkt) (reason : Nat) (s : State) : State :=
  match (if p.traced then s.obs.open_.find? (fun t => t.packet == p.ident) else none) with
  | none => s
  | some t =>
    let k := sliceOfIdent p.ident
    let s1 := match s.obs.traces[1023]? with
      | none => s
      | some o =>
        bump (ck 545 8 (sliceOfIdent o.packet)) 1 { s with obs := { s.obs with dumpLost := true } }
    bump (ck 545 7 k) 1 { s1 with obs := { s1.obs with
      open_ := s1.obs.open_.filter (fun t => t.packet != p.ident)
      traces := ({ t with reason := reason } :: s1.obs.traces).take 1024 } }

/-! ### Transmit timestamps (R333 to R335, R431) -/

/-- An entry put into a client port's transmit timestamp queue, or lost (R335). -/
def pushStamp (port : Nat) (e : TsEntry) (s : State) : State :=
  let q := tget [] s.time.txStamps port
  let s0 := ownEvent 35 0 1 (bump (ck 344 11 port) 1 s)
  if q.length < 64 then
    { s0 with time := { s0.time with txStamps := tset [] s0.time.txStamps port (q ++ [e]) } }
  else
    let l := tget [] s.time.lostTags port
    let s1 := bump (ck 344 12 port) 1 s0
    if l.length < 16 then
      { s1 with time := { s1.time with
        lostTags := tset [] s1.time.lostTags port (l ++ [(e.knarrasar, e.tag)]) } }
    else bump (ck 344 13 port) 1 s1

/-- TIMESTAMP_LOST (R474): a frame of the host that asked for a timestamp left by another way. -/
def lostStamp (p : Pkt) (cause reason : Nat) (s : State) : State :=
  match p.tsReq with
  | some (false, tag) =>
    raise 0x0706 false 0xFF (leBytes 2 tag ++ leBytes 1 cause ++ leBytes 1 reason) s
  | _ => s

/-- The outcome of a timestamp request at a client egress port. -/
def stampOutcome (p : Pkt) (port outcome reason : Nat) (s : State) : State :=
  match p.tsReq with
  | some (k, tag) =>
    pushStamp port { knarrasar := k, tag := tag, outcome := outcome, reason := reason
                     time := BitVec.ofNat 96 (timeWord s) } s
  | none => s

/-! ### Ports -/

/-- A lane of port p carries a test in place of its traffic, or is looped at its far end (R392, R397). -/
def laneTested (s : State) (p : Nat) : Bool :=
  (lanesOf p (portOf s p).mode).any (fun l =>
    decide ((laneOf s l).generator ≠ 0) || decide ((laneOf s l).checker ≠ 0)
      || decide ((laneOf s l).loopback = 3))

/-- Nothing of a port's traffic reaches the balls of a lane: it is held static, carries a generated pattern, or is
looped where the transmitter sends something else (R375, R392, R397). -/
def mutedLane (x : Lane) : Bool := x.squelch || decide (x.generator ≠ 0) || decide (2 ≤ x.loopback)

/-- What a client port, or the management port 16, sends, where its lanes let it out. -/
def onWire (p : Nat) (o : Out) (s : State) : State :=
  if (if p = 16 then [20] else lanesOf p (portOf s p).mode).any (fun l => mutedLane (laneOf s l)) then s
  else emit o s

/-- Remote fault goes out on every port that runs with a local fault standing, and ends with it (R351). -/
def syncFaults (s : State) : State :=
  forEach (List.range 16) (fun p s =>
    let want := portRuns s p && (portOf s p).localFault
    if want = (portOf s p).faultSent then s
    else onWire p (.remoteFault p want) (modPort p (fun x => { x with faultSent := want }) s)) s

/-- A client port's link counts as up for R241: reported up, ENABLE set, and the device neither in
STANDBY nor in D3 (R347, R351, R452, R483). -/
def linkIsUp (s : State) (p : Nat) : Bool :=
  (portOf s p).link && portRuns s p && s.pow.state != .d3 && !laneTested s p

/-! ### Queue descriptors (R238) -/

def Queue.enable (q : Queue) : Bool := q.desc.getLsbD 127
def Queue.spill (q : Queue) : Bool := q.desc.getLsbD 126
def Queue.strict (q : Queue) : Bool := q.desc.getLsbD 125
def Queue.weight (q : Queue) : Nat := fld q.desc.toNat 117 8
def Queue.maxCells (q : Queue) : Nat := fld q.desc.toNat 92 25
def Queue.yellowCells (q : Queue) : Nat := fld q.desc.toNat 67 25
def Queue.redCells (q : Queue) : Nat := fld q.desc.toNat 42 25
def Queue.spillCells (q : Queue) : Nat := fld q.desc.toNat 24 18
def Queue.agg (q : Queue) : Nat := fld q.desc.toNat 18 6
def Queue.sojournField (q : Queue) : Nat := fld q.desc.toNat 0 16

/-- A queue's sojourn limit in ps, 0 for none (R196, R238). -/
def sojournLimit (s : State) (q : Nat) : Nat :=
  if 648 ≤ q ∧ q < 656 then us 20 else us (10 * (queueOf s q).sojournField)

/-- The copy of a queue that is leaving its client port (R243). -/
def leavingOf (s : State) (q : Nat) : List Copy :=
  match (if q < 128 then tget none s.tm.leaving (q / 8) else none) with
  | none => []
  | some l => if l.queue = q then [l.copy] else []

/-- The copies a queue holds: one that leaves a client port has not left its queue (R243). -/
def held (s : State) (q : Nat) : List Copy := leavingOf s q ++ (queueOf s q).pkts

/-- Cells of some copies, on die and in DRAM together. -/
def cellsIn (l : List Copy) : Nat := total (l.map (·.cells))

/-- Cells of some copies on die. -/
def onDie (l : List Copy) : Nat := cellsIn (l.filter (fun c => !c.spilled))

/-- Cells a queue holds. -/
def occupancy (s : State) (q : Nat) : Nat := cellsIn (held s q)

/-- A copy of so many cells would be spilled (R244). -/
def wouldSpill (s : State) (q : Nat) (cells : Nat) : Bool :=
  let x := queueOf s q
  s.dev.inForce == .depth && x.spill && decide (q < 640)
    && (x.pkts.any (·.spilled) || decide (onDie (held s q) + cells > x.spillCells))

/-! ### The counters of R243 -/

/-- Reasons broken down per queue, in ascending code order. -/
def queueReasons : List Nat :=
  [0x3A, 0x41, 0x42, 0x43, 0x44, 0x45, 0x46, 0x47, 0x48, 0x49, 0x4A, 0x50, 0x72]

/-- A reason's slot; the last counts every other reason. -/
def reasonSlot (r : Nat) : Nat := (queueReasons.findIdx? (· == r)).getD 13

def queueCount (q row bytes : Nat) (s : State) : State :=
  bump (ck 243 (row + 1) q) bytes (bump (ck 243 row q) 1 s)

def countRefused (q reason bytes : Nat) (s : State) : State :=
  queueCount q (4 + 2 * reasonSlot reason) bytes s

def countResident (q reason bytes : Nat) (s : State) : State :=
  queueCount q (32 + 2 * reasonSlot reason) bytes s

/-! ### Version references (R193) -/

def releaseTag (p : Pkt) (s : State) : State :=
  let k := p.slice * 8 + p.tag
  { s with cls := { s.cls with refs := tset 0 s.cls.refs k (tget 0 s.cls.refs k - 1) } }

/-! ### Flow control (R259 to R261) -/

/-- Ingress account of a copy: client port and class (R260). -/
def accountOf (p : Pkt) (q : Nat) : Option (Nat × Nat) :=
  if p.inPort < 16 then some (p.inPort, if q < 128 then q % 8 else p.cls) else none

/-- Cells of an ingress account; under PAUSE account 0 holds the port's total (R260). -/
def accountLevel (s : State) (p c : Nat) : Nat :=
  if (pauseOf s p).mode == .pause then
    if c = 0 then total ((List.range 8).map (fun i => tget 0 s.tm.accounts (p * 8 + i))) else 0
  else tget 0 s.tm.accounts (p * 8 + c)

/-- A port may start a frame: its MAC runs, its link is up and no fault stands on it (R241, R351). -/
def portOpen (s : State) (p : Nat) : Bool :=
  portRuns s p && linkIsUp s p && !(portOf s p).localFault && !(portOf s p).remoteFault

/-- The address that port p sends from; 16 is the management lane (R359). -/
def sourceAddress (s : State) (p : Nat) : Nat := (s.prt.base.toNat + p) % 2 ^ 48

/-- A flow-control frame of some classes leaves port p, with one pause time for them all (R261); time 0 is
an XON. -/
def sendFlow (p : Nat) (l : List Nat) (time : Nat) (s : State) : State :=
  if portOpen s p && !l.isEmpty then
    let pfc := (pauseOf s p).mode == .pfc
    let s1 := l.foldl (fun s c => bump (ck 271 ((if time = 0 then 8 else 0) + c) p) 1 s) (wakePort p s)
    onWire p (.flowFrame p (sourceAddress s p) pfc (if pfc then maskOf l else 0)
      ((List.range 8).map (fun i => if l.contains i then time else 0)) (max s.now (portOf s1 p).readyAt))
      (noteIdle p s1)
  else s

/-- The classes of which an account may call for a frame: class 0 alone under PAUSE (R259). -/
def accountClasses (s : State) (p : Nat) (l : List Nat) : List Nat :=
  match (pauseOf s p).mode with
  | .off => []
  | .pause => [0]
  | .pfc => l

/-- The marks of some accounts of a port compared after they changed: one frame carries every priority
whose XOFF falls due, another every one that resumes (R261). -/
def checkAccounts (p : Nat) (l : List Nat) (s : State) : State :=
  let x := pauseOf s p
  let cs := accountClasses s p l
  let up := cs.filter (fun c => !bit x.xoff.toNat c && decide (accountLevel s p c > tget 0 x.high c))
  let down := cs.filter (fun c => bit x.xoff.toNat c && decide (accountLevel s p c ≤ tget 0 x.low c))
  let s1 := modPause p (fun x => { x with
    xoff := BitVec.ofNat 8 (down.foldl (fun m c => setBit m c false)
      (up.foldl (fun m c => setBit m c true) x.xoff.toNat))
    sentAt := up.foldl (fun t c => tset 0 t c s.now) x.sentAt }) s
  sendFlow p down 0 (sendFlow p up x.quanta (if up.isEmpty && down.isEmpty then s1 else noteIdle p s1))

def charge (a : Option (Nat × Nat)) (cells : Nat) (s : State) : State :=
  match a with
  | none => s
  | some (p, c) =>
    checkAccounts p [c] { s with tm := { s.tm with
      accounts := tset 0 s.tm.accounts (p * 8 + c) (tget 0 s.tm.accounts (p * 8 + c) + cells) } }

def discharge (a : Option (Nat × Nat)) (cells : Nat) (s : State) : State :=
  match a with
  | none => s
  | some (p, c) =>
    checkAccounts p [c] { s with tm := { s.tm with
      accounts := tset 0 s.tm.accounts (p * 8 + c) (tget 0 s.tm.accounts (p * 8 + c) - cells) } }

/-! ### Ring limiters (R428) -/

/-- Tokens of a ring at this moment, in units of 10^-12 token. -/
def ringTokens (s : State) (r : Ring) : Nat :=
  min (r.burst * 1000000000000) (r.tokens + (s.now - r.filled) * r.rate)

/-- A ring's limiter holds a token. -/
def ringHasToken (s : State) (r : Ring) : Bool := decide (ringTokens s r ≥ 1000000000000)

/-- A token taken. -/
def takeToken (s : State) (r : Ring) : Ring :=
  { r with tokens := ringTokens s r - 1000000000000, filled := s.now }

/-! ### Enqueue checks (R240) -/

/-- The allocation that lists an upstream queue (R118). -/
def allocOfQueue (s : State) (uq : Nat) : Option Alloc :=
  s.up.allocs.find? (fun a => a.list.any (fun e => e.queue == uq))

/-- The first check of R240 that refuses a copy. R118's check for a queue of no allocation stands after the colour
limits and before the spill pool (DESIGN CHOICE, log entry 45). -/
def enqueueCheck (q : Nat) (p : Pkt) (s : State) : Option Nat :=
  let x := queueOf s q
  let cells := cellsOf p.stored
  let occ := occupancy s q + cells
  if !x.enable || decide (q ≥ 656) || itemLost s 3 (item 0 q) then some 0x3A
  else if q < 128 && !linkIsUp s (q / 8) then some 0x46
  else if p.marked then some 0x42
  else if occ > x.maxCells then some 0x41
  else if p.colour == .yellow && decide (occ > x.yellowCells) then some 0x41
  else if p.colour == .red && decide (occ > x.redCells) then some 0x41
  else if 128 ≤ q ∧ q < 640 ∧ (allocOfQueue s (q - 128)).isNone then some 0x50
  else if wouldSpill s q cells && (decide (s.tm.spillFree < cells) || decide (s.pow.level = 4)) then
    some 0x43
  else if 640 ≤ q ∧ q < 644 ∧ !ringHasToken s (tget {} s.hif.rx (q - 640)) then some 0x48
  else none

/-- A copy that passed every check joins its queue (R240, R243, R244, R260, R428). -/
def joinQueue (q : Nat) (p : Pkt) (s : State) : State :=
  let cells := cellsOf p.stored
  let spilled := wouldSpill s q cells
  let acc := accountOf p q
  let c : Copy := { pkt := p, cells := cells, spilled := spilled, joined := s.now, account := acc }
  let s0 := if q < 128 then noteIdle (q / 8) (wakePort (q / 8) s) else s
  let s1 := modQueue q (fun x => { x with pkts := x.pkts ++ [c] }) s0
  let s2 := if spilled then
      dropRef p.fid (ownEvent 22 2 cells <| crossCells (linkNo 15 0) (cellEntries cells) cells
        { s1 with tm := { s1.tm with spillFree := s1.tm.spillFree - cells } })
    else s1
  let s3 := if 640 ≤ q ∧ q < 644 then
      let r := q - 640
      { s2 with hif := { s2.hif with
        rx := tset {} s2.hif.rx r (takeToken s2 (tget {} s2.hif.rx r)) } }
    else s2
  let s4 := markHigh (ck 269 0 q) (occupancy s3 q) (queueCount q 0 p.stored s3)
  let s5 := stampAt p (if 648 ≤ q ∧ q < 656 then 5 else 6) 22 q s4
  charge acc cells s5

/-! ### Drops (R199 to R202) -/

/-- The island that drops a packet with a reason: that of the stage that R200 gives the reason to
(log entry 27). -/
def dropIsland (reason : Nat) (p : Pkt) : Nat :=
  let lanes := if p.inPort < 16 then 10 + p.inPort / 4 else 25
  if reason < 0x10 then lanes
  else if reason < 0x20 then 8
  else if reason < 0x30 then 15 + 3 * p.slice
  else if reason < 0x3A then 17 + 3 * p.slice
  else if reason = 0x49 ∨ reason = 0x70 ∨ reason = 0x71 then 40
  else if reason = 0x4A then 23
  else if reason = 0x44 ∨ reason = 0x45 ∨ reason = 0x46 then 24
  else if reason < 0x50 then 22
  else if reason < 0x60 then 9
  else if reason < 0x63 then 26
  else if reason < 0x70 then lanes
  else if reason = 0x72 then 22
  else 17 + 3 * p.slice

/-- A drop counted against the port on which the packet entered (R201), with its stored bytes in the books; in packets
the books take the sum of these counters (R535). -/
def countDrop (reason : Nat) (p : Pkt) (s : State) : State :=
  let i := dropIsland reason p
  endTrace p reason (stampAt p 12 i reason
    (bump (ck 535 (Term.dropped.row + 1) p.cport) p.booked
      (bump (ck 514 reason i) 1 (bump (ck 201 reason p.cport) 1 s))))

/-- A copy made for host receive ring 3: a trap copy or a sample copy (R202, R529). It shares the frame's
cells, or takes cells of its own where the frame holds none on die. -/
def ringThreeCopy (kind : CopyKind) (reason missRow : Nat) (p : Pkt) (s : State) : State :=
  let c := { p with kind := kind, reason := reason, tsReq := none, traced := false }
  let (c1, s1) := if (refOf s p.fid).copies = 0 then admitFrame c s else (c, addRefs p.fid 1 s)
  match enqueueCheck 643 c1 s1 with
  | none => joinQueue 643 c1 (book .repl p.cport p.booked s1)
  | some 0x48 => dropRef c1.fid (bump missRow 1 s1)
  | some r =>
    dropRef c1.fid (countRefused 643 r p.stored (countDrop r c1 (book .repl p.cport p.booked s1)))

/-- The trap copy of a dropped packet; a trap copy yields none (R202). -/
def trapCopy (reason : Nat) (p : Pkt) (s : State) : State :=
  if bit s.cls.trap.toNat reason && p.kind != .trap then
    ringThreeCopy .trap reason (ck 202 0 reason) p s
  else s

/-- A packet that stands in no queue is dropped: counted, trapped, its cells returned; a frame that
asked for a timestamp is reported (R199 to R202, R235, R431). -/
def dropPacket (reason : Nat) (p : Pkt) (s : State) : State :=
  dropRef p.fid (lostStamp p 3 reason (trapCopy reason p (countDrop reason p s)))

/-- A copy refused at enqueue (R240). -/
def refuseCopy (q reason : Nat) (p : Pkt) (s : State) : State :=
  dropPacket reason p (countRefused q reason p.stored s)

/-- A copy offered to a queue: it joins, or is refused at the first check that fails. -/
def offerCopy (q : Nat) (p : Pkt) (s : State) : State :=
  match enqueueCheck q p s with
  | none => joinQueue q p s
  | some r =>
    let s1 := if r = 0x48 then bump (ck 440 9 (q - 640)) 1 s else s
    refuseCopy q r p s1

/-! ### Leaving a queue (R235, R243, R269, R270) -/

/-- The bin of a sojourn in ns (R270). -/
def sojournBin (ns : Nat) : Nat := if ns = 0 then 0 else min 31 (Nat.log2 ns + 1)

/-- A histogram's source covers a queue. -/
def histCovers (s : State) (h : Hist) (q : Nat) : Bool :=
  match h.source with
  | none => false
  | some (0, n) => q == n
  | some (1, n) => decide (q < 128) && q / 8 == n
  | some (_, n) =>
    decide (128 ≤ q) && decide (q < 640)
      && s.up.allocs.any (fun a => a.id == n && a.list.any (fun e => e.queue == q - 128))

/-- A sojourn binned in every histogram that covers the queue. -/
def binSojourn (q ns : Nat) (s : State) : State :=
  let b := sojournBin ns
  let put := fun (h : Hist) =>
    if histCovers s h q then
      { h with bins := tset 0 h.bins b (min (2 ^ 48 - 1) (tget 0 h.bins b + 1)) }
    else h
  { s with tm := { s.tm with hists := s.tm.hists.map (fun e => (e.1, put e.2)) } }

/-- Sojourn of a copy in ns. -/
def sojournNs (s : State) (c : Copy) : Nat := (s.now - c.joined) / 1000

/-- A copy no longer stands in its queue: the account and the mark; a spilled copy's cells. -/
def unaccount (q : Nat) (c : Copy) (s : State) : State :=
  let s0 := if q < 128 then noteIdle (q / 8) s else s
  let s1 := markHigh (ck 269 1 q) (min 0xFFFFFFFF (sojournNs s c)) s0
  let s2 := if c.spilled then
      { s1 with tm := { s1.tm with spillFree := s1.tm.spillFree + c.cells } }
    else s1
  discharge c.account c.cells s2

/-- A copy leaves its queue (R243). -/
def leaveQueue (q : Nat) (c : Copy) (s : State) : State :=
  binSojourn q (sojournNs s c) (unaccount q c (queueCount q 2 c.pkt.stored s))

/-- Cells of a copy returned: a spilled copy holds none on die. -/
def returnCells (c : Copy) (s : State) : State := if c.spilled then s else dropRef c.pkt.fid s

/-- A resident copy is dropped (R243); a timestamp request at a client egress queue is answered
(R333), elsewhere reported lost (R431); a recirculating packet frees its tag (R193). -/
def dropResident (q reason : Nat) (c : Copy) (s : State) : State :=
  let s1 := countResident q reason c.pkt.stored (unaccount q c s)
  let s2 := trapCopy reason c.pkt (countDrop reason c.pkt s1)
  let s3 := if q < 128 then stampOutcome c.pkt (q / 8) 2 reason s2 else lostStamp c.pkt 3 reason s2
  let s4 := if 648 ≤ q ∧ q < 656 then releaseTag c.pkt s3 else s3
  returnCells c s4

/-- Every resident copy of a queue dropped with one reason (R241, R242). -/
def flushQueue (reason q : Nat) (s : State) : State :=
  let l := (queueOf s q).pkts
  l.foldl (fun s c => dropResident q reason c s)
    (modQueue q (fun x => { x with pkts := [], deficit := 0, hold := none }) s)

/-- The queues that hold anything. -/
def busyQueues (s : State) : List Nat :=
  (s.tm.queues.filter (fun e => !e.2.pkts.isEmpty)).map (·.1)

/-- Every queued packet discarded with one reason (R452, R481, R483). -/
def flushAll (reason : Nat) (s : State) : State := forEach (busyQueues s) (flushQueue reason) s

/-- The first copy of a queue taken out of it; a queue that empties loses its deficit (R246). -/
def popQueue (q : Nat) (s : State) : State :=
  modQueue q (fun x => { x with
    pkts := x.pkts.tail, hold := none, deficit := if x.pkts.tail.isEmpty then 0 else x.deficit }) s

/-! ### A client port whose link goes down (R241) -/

/-- The frame then leaving a port is counted as dropped under a reason and leaves its queue. -/
def abandonLeaving (p reason : Nat) (s : State) : State :=
  match tget none s.tm.leaving p with
  | none => s
  | some l =>
    let s1 := { s with tm := { s.tm with leaving := tset none s.tm.leaving p none } }
    dropResident l.queue reason l.copy s1

/-- EGRESS_DOWN for a port's eight queues and the frame that leaves it. -/
def egressDown (p : Nat) (s : State) : State :=
  abandonLeaving p 0x46 (forEach ((List.range 8).map (8 * p + ·)) (flushQueue 0x46) s)

end Sys2Proof.Machine
end

