-- ==== Sys2Proof/Machine/CipherOps.lean ====
section
/-! DEFINITION. Keys, slots, the derived-key cache and the requests of the cipher complex
(chapter 8): the operations its steps and its sources share. -/

namespace Sys2Proof.Machine

open Sys2Proof

/-! ### AES modes over the opaque primitives (log entry 6) -/

/-- Text XORed with the GCM key stream. -/
def gcmText (key : BitVec 256) (iv : BitVec 96) (b : Bytes) : Bytes :=
  b.zipIdx.map (fun e => e.1 ^^^ Config.gcmPad key iv e.2)

/-- 128 bits as 16 bytes in order. -/
def tagBytes (t : BitVec 128) : Bytes := beBytes 16 t.toNat

/-- The CMAC input of iteration i of the key derivation (R288). -/
def kdfInput (i dir portId epoch : Nat) : Bytes :=
  beBytes 1 i ++ beBytes 8 0x505354432D4B4559 ++ [0] ++ beBytes 1 dir ++ beBytes 2 portId
    ++ beBytes 4 epoch ++ beBytes 2 0x0100

/-- The derived key of R288. -/
def derivedKey (root : BitVec 256) (dir portId epoch : Nat) : BitVec 256 :=
  Config.aesCmac root (kdfInput 1 dir portId epoch)
    ++ Config.aesCmac root (kdfInput 2 dir portId epoch)

/-! ### Slots and roots (R285 to R287) -/

/-- A slot; a lost one is not valid (R507). -/
def slotOf (s : State) (n : Nat) : Nat :=
  if itemLost s 8 (item 0 n) then 0 else (tget 0 s.cip.slots n).toNat

/-- A slot descriptor of R286. -/
def slotWord (direct : Bool) (root dir portId : Nat) : Nat :=
  2 ^ 63 + 2 ^ 62 * b2n direct + 2 ^ 54 * root + 2 ^ 53 * dir + 2 ^ 37 * portId

def rootOf (s : State) (r : Nat) : BitVec 256 := tget 0 s.cip.roots r

def setRoot (r : Nat) (v : BitVec 256) (s : State) : State :=
  { s with cip := { s.cip with roots := tset 0 s.cip.roots r v } }

/-- The epoch entry that a KEY_INDEX names (R287). -/
def Group.entry (g : Group) (idx : Nat) : Option EpochEntry :=
  if idx = 1 then g.entry1 else if idx = 2 then g.entry2 else none

/-- The key a request uses and its cache entry; none answers NO_KEY (R281, R286, R287). -/
def resolveKey (s : State) (slot idx : Nat) : Option (BitVec 256 × (Nat × Nat)) :=
  let w := slotOf s slot
  if !bit w 63 then none
  else if bit w 62 then
    let k := rootOf s (fld w 54 8)
    if k = 0 then none else some (k, (slot, 0))
  else
    let n := fld w 54 8 % 4
    let g := groupOf s n
    match (if itemLost s 8 (item 1 (4 * n + idx)) then none else g.entry idx) with
    | none => none
    | some e =>
      if (if e.pending then g.pendRoot else g.curRoot) then
        let r := rootOf s (if e.pending then 4 + n else n)
        some (derivedKey r (fld w 53 1) (fld w 37 16) e.epoch, (slot, e.epoch))
      else none

/-! ### The derived-key cache (R289, R290) -/

/-- The cache holds an entry. -/
def cached (s : State) (c : Nat × Nat) : Bool := s.cip.cache.any (fun e => e.id == c)

/-- The key under which a request runs: that of its cache entry, else the one resolved (R289, R290). -/
def scheduleOf (s : State) (c : Nat × Nat) (k : BitVec 256) : BitVec 256 :=
  ((s.cip.cache.find? (fun e => e.id == c)).map (·.key)).getD k

/-- Cache entries that a change leaves, and derivations likewise. -/
def keepCache (f : Nat × Nat → Bool) (s : State) : State :=
  { s with cip := { s.cip with
      cache := s.cip.cache.filter (fun e => f e.id), derivations := s.cip.derivations.filter f } }

/-- A slot rewritten: its cache entries go (R290). -/
def writeSlot (slot w : Nat) (s : State) : State :=
  rewriteItem 8 (item 0 slot) <| keepCache (fun e => e.1 != slot)
    { s with cip := { s.cip with slots := tset 0 s.cip.slots slot (BitVec.ofNat 64 w) } }

/-- The slot is derived from a group's roots. -/
def slotInGroup (s : State) (g slot : Nat) : Bool :=
  let w := slotOf s slot
  bit w 63 && !bit w 62 && fld w 54 8 == g

/-- The slot takes a root directly. -/
def slotOnRoot (s : State) (r slot : Nat) : Bool :=
  let w := slotOf s slot
  bit w 63 && bit w 62 && fld w 54 8 == r

/-- An epoch of a group cleared or replaced (R290). -/
def forgetEpoch (g epoch : Nat) (s : State) : State :=
  keepCache (fun e => !(slotInGroup s g e.1 && e.2 == epoch)) s

/-- A group's pending root zeroed or replaced: the epochs that name it go (R290). -/
def forgetPending (g : Nat) (s : State) : State :=
  let x := groupOf s g
  ((x.entry1.toList ++ x.entry2.toList).filter (·.pending)).foldl (fun s e => forgetEpoch g e.epoch s) s

/-- A group's root zeroed or replaced (R290). -/
def forgetGroup (g : Nat) (s : State) : State := keepCache (fun e => !slotInGroup s g e.1) s

/-- A root written directly, with its cache entries gone (R290). -/
def replaceRoot (r : Nat) (v : BitVec 256) (s : State) : State :=
  keepCache (fun e => !slotOnRoot s r e.1) (setRoot r v s)

/-- The lowest slot that is not valid, from the first of those that Knarrasar deals out. -/
def freeSlot (s : State) (from_ n : Nat) : Option Nat :=
  ((List.range n).map (from_ + ·)).find? (fun i => !bit (tget 0 s.cip.slots i).toNat 63)

/-- The invocation and last-accepted counters of a group's slots restart for a KEY_INDEX (R292, R293). -/
def restartCounters (g idx : Nat) (s : State) : State :=
  let keep := fun (e : Nat × Nat) => !(slotInGroup s g (e.1 / 4) && e.1 % 4 == idx)
  { s with cip := { s.cip with
      invocation := s.cip.invocation.filter keep, accepted := s.cip.accepted.filter keep } }

/-! ### Requests (R279, R280) -/

/-- Pipelines that serve a source (R275); Hive's may run on any. -/
def pipesOf (src : Nat) : List Nat :=
  if src = 0 then [0, 1, 2]
  else if src = 1 then [3, 4, 5]
  else if src < 10 then [6, 7, 8, 9, 10, 11, 12, 13, 14, 15]
  else List.range 16

/-- A request offered by its source, with the source's next number and handle. -/
def offer (src : Nat) (r : CipherReq) (s : State) : State :=
  let n := tget 0 s.cip.nextSeq src
  let h := tget 0 s.cip.handles src
  let q := { r with bulk := decide (src = 10), source := src, seq := n, handle := h }
  { s with cip := { s.cip with
      nextSeq := tset 0 s.cip.nextSeq src (n + 1), handles := tset 0 s.cip.handles src (h + 1)
      waiting := tset [] s.cip.waiting src (tget [] s.cip.waiting src ++ [q]) } }

/-- A request under a key. -/
def offerRequest (src slot idx : Nat) (op : CipherOp) (aad text : Bytes) (iv : BitVec 96)
    (tag : BitVec 128) (ref : CipherRef) (s : State) : State :=
  offer src {
    slot := slot, keyIdx := BitVec.ofNat 2 idx, op := op, bulk := false, source := src
    aad := aad, text := text, iv := iv, tag := tag, seq := 0, handle := 0, ref := ref } s

/-- A frame of a port in clear, sent with no key (R120; log entry 41). -/
def offerClear (src : Nat) (text : Bytes) (ref : CipherRef) (s : State) : State :=
  offer src {
    slot := 0, keyIdx := 0, op := .encrypt, bulk := false, source := src, aad := [], text := text, iv := 0
    tag := 0, seq := 0, handle := 0, ref := ref, keyless := true } s

/-! ### A request on its bridge (R279) -/

def CipherOp.code : CipherOp → Nat
  | .encrypt => 0 | .decrypt => 1 | .cmacGenerate => 2 | .cmacVerify => 3

def CipherOp.isGcm : CipherOp → Bool
  | .encrypt | .decrypt => true
  | .cmacGenerate | .cmacVerify => false

def CipherOp.hasTag : CipherOp → Bool
  | .decrypt | .cmacVerify => true
  | .encrypt | .cmacGenerate => false

/-- The descriptor. -/
def CipherReq.descriptor (r : CipherReq) : BitVec 128 :=
  BitVec.ofNat 13 r.slot ++ r.keyIdx ++ BitVec.ofNat 2 r.op.code ++ BitVec.ofBool r.bulk
    ++ BitVec.ofNat 4 r.source ++ BitVec.ofNat 14 r.text.length ++ BitVec.ofNat 8 r.aad.length ++ r.seq
    ++ r.handle

/-- Bytes as 128-bit entries, the last one padded with zero bytes. -/
def entriesOf (b : Bytes) : List (BitVec 128) :=
  (List.range ((b.length + 15) / 16)).map (fun i => BitVec.ofNat 128 (be (fit 16 (slice b (16 * i) 16)) 0 16))

/-- The entries behind the descriptor. -/
def CipherReq.entries (r : CipherReq) : List (BitVec 128) :=
  (if r.op.isGcm then [r.iv ++ (0 : BitVec 32)] else []) ++ entriesOf r.aad ++ entriesOf r.text
    ++ (if r.op.hasTag then [r.tag] else [])

/-- Text bytes queued at a pipeline (R277). -/
def queuedText (s : State) (p : Nat) : Nat := total ((pipeOf s p).queue.map (·.text.length))

/-- Bytes of the entries behind a descriptor. -/
def entryRoom (r : CipherReq) : Nat := 16 * r.entries.length

/-- Bytes in an engine's input store (R280). -/
def inputStore (s : State) (e : Nat) : Nat :=
  total (((pipeOf s (2 * e)).queue ++ (pipeOf s (2 * e + 1)).queue).map entryRoom)

/-- Free descriptors of an engine, of 4,096 (R280). -/
def freeDescriptors (s : State) (e : Nat) : Nat := tget 4096 s.cip.freeDesc e

def setFreeDescriptors (e n : Nat) (s : State) : State :=
  { s with cip := { s.cip with freeDesc := tset 4096 s.cip.freeDesc e n } }

/-- The pipeline with the fewest queued text bytes, the lower-numbered on a tie (R277). -/
def leastLoaded (s : State) : List Nat → Option Nat
  | [] => none
  | p :: l =>
    match leastLoaded s l with
    | none => some p
    | some q => if queuedText s p ≤ queuedText s q then some p else some q

/-- A request's key is in the cache, or it needs none (R282). -/
def keyReady (s : State) (r : CipherReq) : Bool :=
  r.keyless || match resolveKey s r.slot r.keyIdx.toNat with
  | none => true
  | some (_, c) => cached s c

/-- A cache entry used: it becomes the most recent one (R289). -/
def touchKey (c : Nat × Nat) (s : State) : State :=
  match s.cip.cache.find? (fun e => e.id == c) with
  | some e => { s with cip := { s.cip with cache := e :: s.cip.cache.filter (fun e => e.id != c) } }
  | none => s

/-- A request uses its key's cache entry as it is served. -/
def touchRequest (r : CipherReq) (s : State) : State :=
  match (if r.keyless then none else resolveKey s r.slot r.keyIdx.toNat) with
  | none => s
  | some (_, c) => touchKey c s

/-- A lookup of the cache: a hit, or a miss that starts a derivation unless one is due already (R289). -/
def lookUp (r : CipherReq) (s : State) : State :=
  match (if r.keyless then none else resolveKey s r.slot r.keyIdx.toNat) with
  | none => s
  | some (_, c) =>
    if cached s c then touchKey c (bump (ck 305 30 0) 1 s)
    else if s.cip.derivations.contains c then bump (ck 305 31 0) 1 s
    else bump (ck 305 31 0) 1 { s with cip := { s.cip with derivations := s.cip.derivations ++ [c] } }

/-- Descriptors of a queue at which the key-derivation unit looks ahead, and derivations it keeps in
progress (R289). -/
def lookWindow : Nat := 64
def derivationsAtOnce : Nat := 20

/-- The derivations in progress; the others wait to start. -/
def inProgress (s : State) : List (Nat × Nat) := s.cip.derivations.take derivationsAtOnce

/-- A derivation for the descriptor's key runs or waits. -/
def derives (s : State) (r : CipherReq) : Bool :=
  match (if r.keyless then none else resolveKey s r.slot r.keyIdx.toNat) with
  | none => true
  | some (_, c) => s.cip.derivations.contains c

/-- The unit looks at the descriptors in the window of a pipeline's queue: at one that has come into it, and again at
one whose key has been evicted or invalidated since (R289, R290). -/
def lookAhead (p : Nat) (s : State) : State :=
  ((pipeOf s p).queue.take lookWindow).foldl
    (fun s r => if r.looked && (keyReady s r || derives s r) then s else lookUp r s) (modPipe p (fun x => { x with
    queue := (x.queue.take lookWindow).map (fun r => { r with looked := true }) ++ x.queue.drop lookWindow }) s)

/-! ### Results (R281) -/

/-- What a request comes to under its key (R281, R291); a frame in clear comes back as it is (R120). -/
def compute (s : State) (r : CipherReq) : Nat × Bytes :=
  if r.keyless then (0, r.text) else
  match resolveKey s r.slot r.keyIdx.toNat with
  | none => (2, [])
  | some (k0, c) =>
    let k := scheduleOf s c k0
    match r.op with
    | .encrypt =>
      let c := gcmText k r.iv r.text
      (0, c ++ tagBytes (Config.gcmTag k r.iv r.aad c))
    | .decrypt =>
      if Config.gcmTag k r.iv r.aad r.text = r.tag then (0, gcmText k r.iv r.text) else (1, [])
    | .cmacGenerate => (0, tagBytes (Config.aesCmac k r.text))
    | .cmacVerify => if Config.aesCmac k r.text = r.tag then (0, []) else (1, [])

/-! ### Hive's requests (R139, R284, R286, R297) -/

/-- The slot of a MACsec root: a SAK or an ICK (R286). -/
def rootSlot (root : Nat) : Nat := 7936 + root

/-- The slot of a group's message key for a direction (R139, R286). -/
def messageSlot (g dir : Nat) : Nat := 8120 + 2 * g + dir

/-- A CMAC that Hive has computed under a slot; with a MAC, it is verified. -/
def offerCmac (slot idx : Nat) (text : Bytes) (mac : Option (BitVec 128)) (s : State) : State :=
  offerRequest 10 slot idx (if mac.isSome then .cmacVerify else .cmacGenerate) [] text 0 (mac.getD 0) .hive s

/-- The MIC of a message as a bulk request: its text is SFC and the message's first 40 bytes (R139). -/
def offerMic (g dir epoch sfc : Nat) (body : Bytes) (s : State) : State :=
  offerCmac (messageSlot g dir) (if epoch % 2 = 1 then 1 else 2) (beBytes 8 sfc ++ body) none s

/-- The drop reason of a failed result, by source and status (R281). -/
def failReason (src status : Nat) : Nat :=
  if status = 4 then 0x72
  else if src = 0 then (if status = 2 then 0x61 else 0x60)
  else if src = 1 then (if status = 3 then 0x62 else 0x61)
  else if src < 6 then (if status = 2 then 0x66 else 0x68)
  else 0x69

end Sys2Proof.Machine
end

