-- ==== Sys2Proof/Machine/FibreOps.lean ====
section
/-! DEFINITION. Defects, triggers, reassembly and the bonding unit: what the downstream steps of
chapter 2 share. -/

namespace Sys2Proof.Machine

open Sys2Proof

/-! ### Triggers (R159) -/

/-- Rows of R159 from 0. -/
def trigRow : Trigger → Nat
  | .laneLoss => 0 | .laserFault => 1 | .syncOrFail => 2 | .channelMismatch => 3 | .skew => 4
  | .degrade => 5

def triggers : List Trigger :=
  [.laneLoss, .laserFault, .syncOrFail, .channelMismatch, .skew, .degrade]

/-- Defect code n of R474 stands on a channel. -/
def hasDefect (x : RxChan) (n : Nat) : Bool := bit x.defects.toNat (n - 1)

/-- Channel numbers of the bonded group's members. -/
def members (s : State) : List Nat := setBits 4 s.fib.bond.members.toNat

/-- The member with the highest skew, the lowest-numbered on a tie. -/
def mostSkewed (s : State) : Option Nat :=
  (members s).foldl (fun best c =>
    match best with
    | none => some c
    | some b => if (rxOf s c).skew > (rxOf s b).skew then some c else some b) none

/-- A trigger's condition on a channel. -/
def triggerHolds (s : State) (ch : Nat) (t : Trigger) : Bool :=
  let x := rxOf s ch
  match t with
  | .laneLoss => (laneOf s (16 + ch)).los || (laneOf s (16 + ch)).lol
  | .laserFault => (actOf s ch).txFault
  | .syncOrFail => hasDefect x 1 || hasDefect x 6
  | .channelMismatch => hasDefect x 4
  | .skew => s.fib.bond.skewDefect && mostSkewed s == some ch
  | .degrade => hasDefect x 5 || hasDefect x 2 || hasDefect x 3

/-- Since when each trigger of a channel stands, and since when none does, noted anew. -/
def noteTriggers (ch : Nat) (s : State) : State :=
  let since := triggers.foldl (fun t r =>
    let k := ch * 8 + trigRow r
    if triggerHolds s ch r then tset none t k (some ((tget none t k).getD s.now))
    else tset none t k none) s.fib.trigSince
  let clear := if triggers.any (triggerHolds s ch) then none
    else some ((tget none s.fib.clearSince ch).getD s.now)
  { s with fib := { s.fib with
      trigSince := since, clearSince := tset none s.fib.clearSince ch clear } }

/-! ### Defects (R95, R96) -/

/-- The superframe counter at this moment: that of the frame in progress (R96; log entry 39). -/
def counterNow (x : RxChan) : Nat :=
  match x.arrivals with
  | (n, _) :: _ => n
  | [] => x.sfc.toNat

/-- A defect of a channel set or cleared, with its event when it changes. -/
def setDefect (ch n : Nat) (b : Bool) (s : State) : State :=
  let x := rxOf s ch
  if hasDefect x n = b then s
  else
    let s1 := modRx ch (fun x => { x with
      defects := BitVec.ofNat 7 (setBit x.defects.toNat (n - 1) b) }) s
    noteTriggers ch (raise (if b then 0x0201 else 0x0202) false ch
      (leBytes 4 n ++ leBytes 8 (counterNow x)) s1)

/-- The bonding unit's skew defect, detected at counter sfc (R95, R96). -/
def setSkewDefect (b : Bool) (sfc : Nat) (s : State) : State :=
  if s.fib.bond.skewDefect = b then s
  else
    let s1 := raise (if b then 0x0201 else 0x0202) false 4 (leBytes 4 7 ++ leBytes 8 sfc)
      (modBond (fun x => { x with skewDefect := b, skewRun := 0 }) s)
    forEach (List.range 4) noteTriggers s1

/-- A run of like verdicts grown or begun again. -/
def runOf (bad was : Bool) (run : Nat) : Nat := if bad == was then run + 1 else 1

/-- What a run of a frame-count criterion makes of a defect: 4 frames either way. -/
def applyRun (ch n : Nat) (bad : Bool) (run : Nat) (s : State) : State :=
  if run ≥ 4 then setDefect ch n bad s else s

/-! ### Reassembly (R83, R84, R93) -/

/-- A fragment as reassembly takes it. -/
structure Frag where
  portId : Word16
  first : Bool
  last : Bool
  keyIdx : BitVec 2
  payload : Bytes
  stamp : Nat

/-- The packet that an own frame makes (R179, R229). -/
def fibrePkt (s : State) (r : Reasm) (frame : Bytes) : Pkt :=
  let cls := match tget none s.fib.ports r.portId.toNat with
    | some o => o.cls
    | none => 20
  { frame := frame, stored := frame.length, inPort := cls, source := 1, portId := r.portId
    cport := 16, decrypted := r.keyIdx != 0, stamp := r.stamp }

/-- The stored length of an own frame: its clear length (R233). -/
def clearLength (r : Reasm) : Nat := if r.keyIdx = 0 then r.data.length else r.data.length - 16

/-- A client frame discarded under a PFE or cipher drop reason (R83, R281, R535). -/
def discardFrame (reason : Nat) (r : Reasm) (s : State) : State :=
  let p := fibrePkt s r r.data
  dropPacket reason { p with stored := clearLength r } s

/-- A client frame that reassembly discards enters the book and drops (R535). -/
def discardOpen (reason : Nat) (r : Reasm) (s : State) : State :=
  discardFrame reason r (book .input 16 (clearLength r) s)

/-- The closing checks of R84 and R200; none passes. KEY_INDEX is judged before the length, which the manual does not
order (DESIGN CHOICE, log entry 52). -/
def closeFault (r : Reasm) : Option Nat :=
  let extra := if r.keyIdx = 0 then 0 else 16
  if r.keyIdx = 3 then some 0x15
  else if r.data.length > 9728 + extra then some 0x13
  else if r.data.length < 64 + extra then some 0x14
  else if r.keyIdx = 0 && !fcsOk r.data then some 0x16
  else none

/-- The KEY_INDEX of an epoch that a group of the slot's has retired (R155). -/
def retiredIndex (s : State) (slot idx : Nat) : Bool :=
  (List.range 4).any (fun g => slotInGroup s g slot && (groupOf s g).retired == some idx)

/-- An encrypted image goes to the cipher complex (R291); one under a retired epoch is discarded (R155). -/
def sendDecrypt (r : Reasm) (s : State) : State :=
  let n := r.data.length - 20
  let counter := be r.data n 4
  match (tget none s.fib.ports r.portId.toNat).bind (·.keySlot) with
  | none => discardFrame 0x61 r s
  | some slot =>
    if retiredIndex s slot r.keyIdx.toNat then discardFrame 0x15 r s
    else offerRequest 0 slot r.keyIdx.toNat .decrypt [] (r.data.take n) (BitVec.ofNat 96 counter)
      (BitVec.ofNat 128 (be r.data (n + 4) 16)) (.fibreDown r) s

/-- A reassembled client frame closes (R84). -/
def closeFrame (r : Reasm) (s : State) : State :=
  let s1 := book .input 16 (clearLength r) s
  match closeFault r with
  | some reason => discardFrame reason r s1
  | none =>
    if r.keyIdx = 0 then toSlice (fibrePkt s1 r r.data) s1
    else sendDecrypt r s1

/-- An own fragment meets a reassembly context (R83). -/
def takeFragment (ctx : Option Reasm) (f : Frag) (s : State) : Option Reasm × State :=
  let fresh : Reasm := {
    portId := f.portId, keyIdx := f.keyIdx, data := f.payload, stamp := f.stamp, frags := 1 }
  if f.first then
    let s1 := match ctx with
      | some r => discardOpen 0x10 r s
      | none => s
    if f.last then (none, closeFrame fresh s1) else (some fresh, s1)
  else
    match ctx with
    | none => (none, discardOpen 0x11 fresh s)
    | some r =>
      if r.portId = f.portId ∧ r.keyIdx = f.keyIdx then
        let grown := { r with data := r.data ++ f.payload, frags := r.frags + 1 }
        if f.last then (none, closeFrame grown s) else (some grown, s)
      else (none, discardOpen 0x10 fresh (discardOpen 0x10 r s))

/-- The open frame of an unbonded channel discarded (R83). -/
def dropOpen (ch reason : Nat) (s : State) : State :=
  match (rxOf s ch).ctx with
  | none => s
  | some r => discardOpen reason r (modRx ch (fun x => { x with ctx := none }) s)

/-! ### The bonding unit (R85 to R94) -/

/-- Units of 2^-16 ns in n microseconds. -/
def usUnits (n : Nat) : Nat := n * 65536000

/-- x comes after y in serial order modulo 2^20: by 1 to 524,287 (R91, R92). -/
def gsnAfter (x y : Nat) : Bool := decide (0 < subMod 20 x y) && decide (subMod 20 x y < 524288)

/-- A member channel is active (R89), once it takes part (R94). -/
def bondActive (s : State) (ch : Nat) : Bool :=
  let x := rxOf s ch
  let l := laneOf s (16 + ch)
  bit s.fib.bond.members.toNat ch && !x.joining && !l.los && !l.lol && x.delin == .sync
    && decide (x.skew ≤ usUnits 250)

/-- Payload bytes in a channel's reorder store. -/
def storeBytes (x : RxChan) : Nat := total (x.store.map (·.payload.length))

/-- A member's reorder store is full: 10,125 cells (R87), also where the reservation came out short, of which the manual
says nothing (DESIGN CHOICE, log entry 52). -/
def storeFull (x : RxChan) : Bool := decide (cellsOf (storeBytes x) ≥ 10125)

/-- A channel has passed a GSN (R91). -/
def passedGsn (x : RxChan) (g : Nat) : Bool :=
  (match x.lastGsn with
   | some l => gsnAfter l g
   | none => false)
  || (match x.floorDone with
   | some f => gsnAfter f g
   | none => false)

/-- The PFE frame stored under a GSN, with its channel. -/
def storedAt (s : State) (g : Nat) : Option (Nat × Stored) :=
  (List.range 4).findSome? (fun c =>
    ((rxOf s c).store.find? (fun e => e.gsn == g)).map (fun e => (c, e)))

/-- NEXT moved on by one. -/
def stepNext (s : State) : State :=
  modBond (fun b => { b with
    next := (b.next + 1) % 2 ^ 20
    floors := b.floors.filter (fun f => gsnAfter f.1 ((b.next + 1) % 2 ^ 20)) }) s

/-- The open frame of the group's context discarded (R93). -/
def dropGroup (s : State) : State :=
  match s.fib.bond.ctx with
  | none => s
  | some r => discardOpen 0x10 r (modBond (fun b => { b with ctx := none }) s)

/-- NEXT resolved as missing (R91, R93): counted in a row of R97, an open frame discarded. -/
def resolveMissing (row : Nat) (s : State) : State :=
  stepNext (dropGroup (bump (ck 97 row 4) 1 s))

/-- NEXT released: an own frame to reassembly; a foreign one leaves nothing there, and in R83's table it ends the
frame that is open (R91, R93; log entry 30). -/
def releaseStored (c : Nat) (e : Stored) (s : State) : State :=
  let s1 := modRx c (fun x => { x with store := x.store.filter (fun f => f.gsn != e.gsn) })
    (bump (ck 97 24 4) 1 s)
  let s2 := if e.foreign then dropGroup s1
    else
      let f : Frag := {
        portId := e.portId, first := e.first, last := e.last, keyIdx := e.keyIdx
        payload := e.payload, stamp := e.stamp }
      let (ctx, t) := takeFragment s1.fib.bond.ctx f s1
      modBond (fun b => { b with ctx := ctx }) t
  stepNext s2

/-- The earliest time at which any member finished a frame whose floor exceeds NEXT (R91). -/
def firstFloorTime (s : State) : Option Nat :=
  (s.fib.bond.floors.filter (fun f => gsnAfter f.1 s.fib.bond.next)).foldl
    (fun m f => match m with
      | none => some f.2
      | some t => some (min t f.2)) none

/-- One turn of the loop of R91; none where it waits. -/
def bondTurn (s : State) : Option State :=
  let b := s.fib.bond
  let active := (List.range 4).filter (bondActive s)
  if !b.started then none
  else
    match storedAt s b.next with
    | some (c, e) => some (releaseStored c e s)
    | none =>
      if !active.isEmpty && active.all (fun c => passedGsn (rxOf s c) b.next) then
        some (resolveMissing 25 s)
      else if passed s (firstFloorTime s) (us 250) then some (resolveMissing 25 s)
      else if (List.range 4).any (fun c => storeFull (rxOf s c)) then
        some (modBond (fun b => { b with overflowed := true }) (resolveMissing 29 s))
      else none

/-- The loop of R91 run until it waits; a full lap of GSNs bounds it. -/
def bondLoop : Nat → State → State
  | 0, s => s
  | n + 1, s =>
    match bondTurn s with
    | none => s
    | some t => bondLoop n t

/-- The highest counter that a member has come to. -/
def groupCounter (s : State) : Nat := (members s).foldl (fun n c => max n (counterNow (rxOf s c))) 0

/-- The bonding unit releases and resolves what it can (R91); an overflow raises skew (R95). -/
def bondRelease (s : State) : State :=
  let t := bondLoop (2 ^ 20) s
  if t.fib.bond.overflowed && !s.fib.bond.overflowed then setSkewDefect true (groupCounter t) t else t

/-- A member stops being waited for at once; its store stays eligible (R94). -/
def removeMember (ch : Nat) (s : State) : State :=
  if bit s.fib.bond.members.toNat ch then
    bondRelease (modBond (fun b => { b with
      members := BitVec.ofNat 4 (setBit b.members.toNat ch false) }) s)
  else s

/-- A channel may join: it is in SYNC and its skew is at most 250 µs (R94). -/
def canJoin (s : State) (ch : Nat) : Bool :=
  (rxOf s ch).delin == .sync && decide ((rxOf s ch).skew ≤ usUnits 250)

/-- A channel joins, with its reservation of cells; where fewer than 10,125 are free the join is accepted and takes
those (R87, R94; log entry 45). -/
def addMember (ch : Nat) (s : State) : State :=
  if bit s.fib.bond.members.toNat ch then s
  else
    let x := rxOf s ch
    let cells := if x.reserved > 0 then 0 else min 10125 s.tm.free
    let s1 := { s with tm := { s.tm with free := s.tm.free - cells } }
    let s2 := modRx ch (fun x => { x with
      reserved := x.reserved + cells, joining := true, lastGsn := none, floorDone := none }) s1
    let first := (members s2).isEmpty
    modBond (fun b => { b with
      members := BitVec.ofNat 4 (setBit b.members.toNat ch true)
      started := b.started && !first
      floors := if first then [] else b.floors }) s2

/-- The lowest GSN stored, or else the floor: none of the frames stored is late (R92, R94). -/
def lowestStored (f : Nat) (s : State) : Nat :=
  (List.range 4).foldl (fun n c =>
    (rxOf s c).store.foldl (fun n e => if gsnAfter n e.gsn then e.gsn else n) n) f

/-- NEXT starts as a member finishes its first floor: at the lowest number stored up to then, or else at that floor
(R91, R94; log entry 30). -/
def startNext (f : Nat) (s : State) : State :=
  let n := lowestStored f s
  modBond (fun b => { b with
    started := true, next := n, floors := if gsnAfter f n then [(f, s.now)] else [] }) s

/-- A frame's processing ends on a member: its floor, the start of NEXT, and the loop (R91). -/
def finishFloor (ch : Nat) (s : State) : State :=
  let x := rxOf s ch
  if bit s.fib.bond.members.toNat ch && !x.joining then
    match x.floorNow with
    | none => bondRelease s
    | some f =>
      let s1 := modRx ch (fun x => { x with floorDone := some f, floorNow := none }) s
      bondRelease (if s1.fib.bond.started then
          modBond (fun b => { b with floors := b.floors ++ [(f, s.now)] }) s1
        else startNext f s1)
  else s

/-! ### Frame starts (R54, R99) -/

/-- The next frame start is expected 12,441,600 bit times after the latest one (R99). -/
def nextTrx (s : State) (ch : Nat) : Option Nat := (rxOf s ch).trx.map (· + 12441600)

/-- The clock has come to the expected start of a channel's next frame (R54, R99). -/
def passTrx (ch : Nat) (s : State) : State :=
  match nextTrx s ch with
  | some b => passTo (bitsPs b) s
  | none => s

/-- A channel in SYNC has come to frame n, or its next frame is n (R66). -/
def comesTo (s : State) (ch n : Nat) : Bool := (rxOf s ch).delin == .sync && decide (n ≤ (rxOf s ch).sfc.toNat)

/-- The clock has come to T_rx(n) on a channel whose next frame that is. -/
def passFrame (ch n : Nat) (s : State) : State := if (rxOf s ch).sfc.toNat = n then passTrx ch s else s

/-! ### Delineation (R51 to R54) -/

/-- Bits in which a window differs from the start pattern (R51). -/
def windowErrors (w : Word64) : Nat := popCount 64 (Nat.xor w.toNat 0xC5E51D3B8A09F47E)

def windowMatches (w : Word64) : Bool := decide (windowErrors w ≤ 3)

/-- The loss-of-sync defect follows delineation once the lane is locked (R95). -/
def noteSync (ch : Nat) (s : State) : State :=
  let x := rxOf s ch
  if x.delin == .sync then setDefect ch 1 false s
  else if x.lock then setDefect ch 1 true s
  else s

end Sys2Proof.Machine
end

