-- ==== Sys2Proof/Machine/Amber.lean ====
section
/-! DEFINITION. Amber's ring: the records that rules name, their headers, and the write position (R552 to
R557). The records of hardware events, timers, hardware reads, inter-loop messages and digests are not held:
between the records that are, the position moves on by a free value (log entry 20). -/

namespace Sys2Proof.Machine

open Sys2Proof

/-- Size of the ring. -/
def ringSize : Nat := 2 ^ 28

/-- Length of a record with so many bytes of payload: a multiple of 64, at most 4,096 (R552). -/
def amberLen (payload : Nat) : Nat := min 4096 (64 * ((32 + payload + 63) / 64))

/-- The 32 bytes of a record's header (R552). -/
def recordHeader (typ len seq cycles time loop flags position : Nat) : Bytes :=
  leBytes 2 typ ++ leBytes 2 len ++ leBytes 4 seq ++ leBytes 8 cycles ++ leBytes 12 time ++ leBytes 1 loop
    ++ leBytes 1 flags ++ leBytes 2 position

/-- The event loop that consumed an input, 0xFF for none. -/
def loopCode (v : Nat) : Nat := if v % 33 = 32 then 0xFF else v % 33

/-- A record written at the write position: cycle count, loop and position in its order are free values. The write
requests the wake of the DRAM's power domains (R477). -/
def putRecord (typ : Nat) (rejected : Bool) (payload : Bytes) (s : State) : State :=
  let (c, s1) := takeFree s
  let (l, s2) := takeFree s1
  let (p, s3) := takeFree s2
  let len := amberLen payload.length
  let flags := b2n rejected + 2 * b2n (decide (payload.length > 4064))
  let head := recordHeader typ len s.mnt.recSeq.toNat c (timeWord s) (loopCode l) flags p
  let r : AmberRec := { at_ := s.mnt.ringOffset, bytes := fit len (head ++ payload) }
  let s4 := if s3.pow.railsUp then wantAll [87, 88] s3 else s3
  { s4 with mnt := { s4.mnt with
    ringOffset := s.mnt.ringOffset + len, recSeq := s.mnt.recSeq + 1
    ring := (r :: s.mnt.ring).filter (fun x => decide (s.mnt.ringOffset < x.at_ + ringSize + 4096)) } }

/-- The gap record that comes first when recording resumes (R553, R555). -/
def closeGap (s : State) : State :=
  if s.mnt.gapDue then
    putRecord 0x000D false (leBytes 8 s.mnt.gap) { s with mnt := { s.mnt with gap := 0, gapDue := false } }
  else s

/-- The records made since the last one that is held, and the recorder stalls while they were (R555): free numbers. -/
def amberSkip (s : State) : State :=
  if s.mnt.recorder == .running then
    let (v, s1) := takeFree (closeGap s)
    let (w, s2) := takeFree s1
    let (x, s3) := takeFree s2
    let s2 := bump (ck 555 0 0) x s3
    { s2 with mnt := { s2.mnt with
      ringOffset := s2.mnt.ringOffset + 64 * v, recSeq := s2.mnt.recSeq + BitVec.ofNat 32 w } }
  else s

/-- A record that a rule names: written while Amber runs; counted while it is stopped (R553, R555). Mailbox commands,
station messages, protocol frames and optics are inputs that the Warden has checked (R515, R547). -/
def amberRecord (typ : Nat) (rejected : Bool) (payload : Bytes) (s : State) : State :=
  let s0 := if [1, 2, 7, 8].contains typ then ownEvent 38 1 (b2n rejected) (ownEvent 38 0 1 s) else s
  if s0.mnt.recorder == .running then putRecord typ rejected payload (amberSkip s0)
  else { s0 with mnt := { s0.mnt with gap := s0.mnt.gap + 1 } }

/-- Knarrasar's random generator takes a new seed, which Amber records with its source, 0 (R554). -/
def reseed (s : State) : State :=
  let (v, s1) := takeFree s
  amberRecord 0x0005 false (leBytes 1 0 ++ leBytes 16 v)
    { s1 with mnt := { s1.mnt with seed := BitVec.ofNat 128 v, seedAt := s1.now } }

/-- Byte i of the ring as it stands: that of the newest record that still holds it there, else a free one. -/
def ringByte (s : State) (i : Nat) : Byte :=
  let back := fun (r : AmberRec) => (i + ringSize - r.at_ % ringSize) % ringSize
  match s.mnt.ring.find? (fun r =>
    decide (back r < r.bytes.length) && decide (s.mnt.ringOffset ≤ r.at_ + back r + ringSize)) with
  | some r => r.bytes.getD (back r) 0
  | none => BitVec.ofNat 8 (Config.freeValue (s.fresh + i))

end Sys2Proof.Machine
end

