-- ==== Sys2Proof/Machine/Wake.lean ====
section
/-! DEFINITION. Bank groups in retention, their check and restoration (R491 to R494), and the wake of the power
domains that a request touches (R477, R478). -/

namespace Sys2Proof.Machine

open Sys2Proof

/-! ### The words of a bank group (R491, R493) -/

/-- The 64 bytes of a journal entry (R432). -/
def entryBytes (e : JEntry) : Bytes :=
  leBytes 8 e.jseq ++ leBytes 12 e.time.toNat ++ leBytes 4 e.cmdSeq.toNat ++ leBytes 2 e.opcode
    ++ leBytes 1 (e.mbx + 16 * b2n e.isPartial + 32 * b2n e.rolled) ++ [e.status]
    ++ leBytes 4 e.argCrc.toNat ++ fit 32 e.first32

/-- An exact-match entry with its position. -/
def emWords (e : Nat × Option EmEntry) : Bytes :=
  match e.2 with
  | none => []
  | some x =>
    leBytes 4 e.1 ++ leBytes 1 (x.age.toNat + 4 * b2n x.static + 8 * b2n x.learned + 16 * x.profile)
      ++ leBytes 5 x.pkts.toNat ++ leBytes 6 x.bytes.toNat ++ leBytes 8 x.action.toNat ++ leBytes 40 x.key.toNat

/-- A rule with its entry. -/
def ruleWords (e : Nat × Option Rule) : Bytes :=
  match e.2 with
  | none => []
  | some x =>
    leBytes 4 e.1 ++ leBytes 80 x.value.toNat ++ leBytes 80 x.mask.toNat ++ leBytes 8 x.control.toNat
      ++ leBytes 8 x.action.toNat ++ [x.versions] ++ leBytes 5 x.pkts.toNat ++ leBytes 6 x.bytes.toNat

/-- Words of a table, each with its key. -/
def tabWords (n : Nat) (t : Tab Nat) : Bytes := t.flatMap (fun e => leBytes 4 e.1 ++ leBytes n e.2)

/-- A gate list (R264). -/
def gateWords (g : GateList) : Bytes :=
  leBytes 8 g.base ++ leBytes 4 g.cycle ++ g.entries.flatMap (fun e => [e.1] ++ leBytes 4 e.2)

/-- Queue, policer, shaper, gate-list and histogram configuration. -/
def trafficWords (s : State) : Bytes :=
  tabWords 16 (s.tm.queues.map (fun e => (e.1, e.2.desc.toNat)))
    ++ tabWords 16 (s.tm.policers.map (fun e => (e.1, e.2.desc.toNat)))
    ++ tabWords 8 (s.tm.shapers.map (fun e => (e.1, e.2.desc.toNat)))
    ++ s.tm.gates.flatMap (fun e => leBytes 4 e.1 ++ (e.2.active.map gateWords).getD [])
    ++ s.tm.hists.flatMap (fun e => leBytes 4 e.1 ++ match e.2.source with
      | none => []
      | some x => leBytes 1 x.1 ++ leBytes 2 x.2)

/-- Journal, event backlog, LAST_SEQ and kept responses. -/
def journalWords (s : State) : Bytes :=
  s.hif.journal.flatMap entryBytes ++ s.hif.backlog.flatMap (fun e => eventBytes e true)
    ++ tabWords 4 (s.hif.lastSeq.map (fun e => (e.1, (e.2.map BitVec.toNat).getD 0)))
    ++ s.hif.kept.flatMap (fun e => leBytes 4 e.1 ++ match e.2 with
      | none => []
      | some k => [k.status] ++ leBytes 8 k.jseq ++ k.data)

/-- Parse stores, node tables, comparators, key profiles, port and VLAN tables. -/
def parseWords (s : State) : Bytes :=
  let w := fun (t : Tab Word64) => tabWords 8 (t.map (fun e => (e.1, e.2.toNat)))
  w s.cls.store ++ tabWords 2 (s.cls.nodes.map (fun e => (e.1, (e.2.map (· + 1)).getD 0))) ++ w s.cls.comparators
    ++ s.tab.profiles.flatMap (fun e => leBytes 4 e.1
      ++ (List.range 40).map (fun i => tget 0 e.2.dst i) ++ (List.range 40).map (fun i => tget 0 e.2.src i))
    ++ w s.tab.ports ++ w s.tab.vlans

/-- An entry of an epoch table. -/
def epochWords (e : Option EpochEntry) : Bytes :=
  match e with
  | none => leBytes 4 0
  | some x => leBytes 4 (1 + 2 * b2n x.pending + 4 * x.epoch)

/-- Cipher slot descriptors, epoch tables, counters and histograms. -/
def counterWords (s : State) : Bytes :=
  tabWords 8 (s.cip.slots.map (fun e => (e.1, e.2.toNat)))
    ++ s.fib.groups.flatMap (fun e => leBytes 4 e.1 ++ epochWords e.2.entry1 ++ epochWords e.2.entry2)
    ++ s.cnt.flatMap (fun e => leBytes 8 e.1 ++ leBytes 8 e.2)
    ++ s.tm.hists.flatMap (fun e => leBytes 4 e.1 ++ tabWords 8 e.2.bins)

/-- The position of an exact-match entry at which a bank group's 65,536 begin. -/
def emBase (g : Nat) : Nat := g / 2 * 131072 + g % 2 * 65536

/-- The data words of a bank group as the state holds them; their layout in the group is the model's (DESIGN
CHOICE, log entry 47). -/
def bankWords (s : State) (g : Nat) : Bytes :=
  if g < 8 then
    (s.tab.em.filter (fun e => decide (emBase g ≤ e.1) && decide (e.1 < emBase g + 65536))).flatMap emWords
  else if g = 18 then trafficWords s
  else if g = 19 then journalWords s
  else if g = 20 then parseWords s
  else if g = 21 ∨ g = 22 then
    (s.cls.rules.filter (fun e => e.1 / 8192 == g - 21)).flatMap ruleWords
  else if g = 23 then counterWords s
  else []

/-! ### Retention (R491 to R494) -/

/-- Bank groups that D2 and D3 retain. -/
def retainedGroups : List Nat := (List.range 24).filter (fun g => decide (g < 8) || decide (16 ≤ g))

/-- A group enters retention, the CRC-32 of its words stored (R493). -/
def retainBank (g : Nat) (s : State) : State :=
  modBank g (fun b => { b with retained := true, crc := crc32e (bankWords s g) }) s

/-- Counters that power domain 0 keeps (R612), which no bank group holds. -/
def isPowerZero (k : Nat) : Bool := decide (ck 612 0 0 ≤ k) && decide (k < ck 613 0 0)

/-- Mailbox state as for a warm reset: from the latest journal entry of each mailbox (R437). -/
def mailboxesFromJournal (s : State) : State :=
  let entry := fun n => s.hif.journal.find? (fun e =>
    e.mbx == n && !(e.opcode == 0 && e.status == 0))
  let l := (List.range 16).filterMap (fun n => (entry n).map (fun e => (n, e)))
  let kept := fun (e : JEntry) => ({ status := e.status, rolled := e.rolled, isPartial := e.isPartial
                                     jseq := e.jseq, data := [] } : Kept)
  { s with hif := { s.hif with
      lastSeq := l.map (fun e => (e.1, some e.2.cmdSeq))
      kept := l.map (fun e => (e.1, some (kept e.2))) } }

/-- What a lost group does not get back from its shadow (R491). -/
def bankContents (g : Nat) (s : State) : State :=
  if g < 8 then
    let clear := fun (e : Nat × Option EmEntry) =>
      if emBase g ≤ e.1 ∧ e.1 < emBase g + 65536 then
        (e.1, e.2.map (fun x => { x with pkts := 0, bytes := 0 }))
      else e
    { s with tab := { s.tab with em := s.tab.em.map clear } }
  else if g = 19 then
    let s1 := s.hif.backlog.foldl (fun s e => loseEvent e.seq s) s
    mailboxesFromJournal { s1 with hif := { s1.hif with backlog := [] } }
  else if g = 21 ∨ g = 22 then
    let clear := fun (e : Nat × Option Rule) =>
      if e.1 / 8192 = g - 21 then
        (e.1, e.2.map (fun x => { x with pkts := 0, bytes := 0 }))
      else e
    { s with cls := { s.cls with rules := s.cls.rules.map clear } }
  else if g = 23 then
    { s with cnt := s.cnt.filter (fun e => isPowerZero e.1)
             obs := { s.obs with rebase := List.range 18, dumpZeroed := true }
             tm := { s.tm with hists := s.tm.hists.map (fun e => (e.1, { e.2 with bins := [] })) } }
  else s

/-- Cause bit 3 follows the groups that are marked lost (R443, R494). -/
def settleBanks (s : State) : State := setCause 3 (s.pow.banks.any (fun e => e.2.lost)) s

/-- A group that failed its check: marked lost and zero-filled, with its event; the zero fill is all that the empty
staging groups need (R491, R494). -/
def loseBank (g : Nat) (s : State) : State :=
  let s1 := bump (ck 495 14 g) 1 (raise 0x0A04 false g (leBytes 1 0) (bankContents g s))
  if g = 16 ∨ g = 17 then raise 0x0A04 false g (leBytes 1 1) (bump (ck 495 15 g) 1 s1)
  else settleBanks (modBank g (fun b => { b with lost := true, zeroed := true }) s1)

/-- A zero-filled group is restored from its shadow; group 23 stays lost for its counters (R491, R494). -/
def restoreBank (g : Nat) (s : State) : State :=
  if !(bankOf s g).zeroed then s
  else if g = 23 then modBank g (fun b => { b with zeroed := false }) s
  else
    raise 0x0A04 false g (leBytes 1 1) (bump (ck 495 15 g) 1
      (settleBanks (modBank g (fun b => { b with lost := false, zeroed := false }) s)))

/-- The CRC-32 recomputed over a group's words as they are found: the stored one where retention kept them, and
another where it did not (R494). -/
def foundCrc (s : State) (g : Nat) (intact : Bool) : Word32 :=
  if intact then (bankOf s g).crc else ~~~ (bankOf s g).crc

/-- A group leaves retention, its CRC compared before any access (R494). -/
def wakeBank (g : Nat) (intact : Bool) (s : State) : State :=
  if (bankOf s g).retained then
    let s1 := bump (ck 495 13 g) 1 (modBank g (fun b => { b with retained := false }) s)
    if foundCrc s g intact == (bankOf s g).crc then s1 else loseBank g s1
  else s

/-- A group leaves retention where no command says whether it kept its words: that is free (log entry 5). -/
def wakeBankFreely (g : Nat) (s : State) : State :=
  if (bankOf s g).retained then
    let (v, s1) := takeFree s
    wakeBank g (v % 2 == 0) s1
  else s

/-! ### Power domains that a request touches (R26, R477, R478) -/

/-- The bank group of a power domain (R475). -/
def bankOfDomain (d : Nat) : Option Nat := if 55 ≤ d ∧ d < 79 then some (d - 55) else none

/-- The power domain's bank group stands in retention. -/
def domainRetained (s : State) (d : Nat) : Bool :=
  match bankOfDomain d with
  | some g => (bankOf s g).retained
  | none => false

/-- The islands that stall for a power domain: those with entries on a bridge into it, else Hive (R26, R477). -/
def stallers (s : State) (d : Nat) : List Nat :=
  let l := s.brg.filterMap (fun e =>
    let x := linkAt e.1
    if islandDomain x.receiver = d ∧ e.2.occupied + e.2.held > 0 then some x.sender else none)
  if l.isEmpty then [37] else l.eraseDups

/-- Cycles that the islands wait for a wake of so many ns (R514). -/
def countStall (d ns : Nat) (s : State) : State :=
  forEach (stallers s d) (fun i t => bump (ck 514 0xE1 i) (ns * (nominalHz s i * clockPercent s i) / 100000000000) t) s

/-- A power domain requested at an instant becomes usable; a retained group is checked (R477, R494), and the
island's replica realigns (R308). The stall is a free value of at most 20 µs. -/
def wakeFrom (t0 d : Nat) (intact : Bool) (s : State) : State :=
  if domainOn s d && !domainRetained s d then
    modDomain d (fun x => { x with access := s.now })
      { s with pow := { s.pow with wanted := s.pow.wanted.filter (· != d) } }
  else
    let (v, s0) := takeFree s
    let s1 := clocksMayRun (passTo (t0 + v % 20001 * 1000) s0)
    let s2 := modDomain d (fun x => { x with
      woken := domainSetting s d == .off || domainSetting s d == .retained, access := s1.now
      asleep := false }) s1
    let mine := replicaIslands.filter (fun i => decide (islandDomain i = d))
    let s3 := forEach mine realign (countStall d (v % 20001) (markHigh (ck 495 12 d) (v % 20001)
      (bump (ck 495 11 d) 1 { s2 with pow := { s2.pow with wanted := s2.pow.wanted.filter (· != d) } })))
    match bankOfDomain d with
    | some g => wakeBank g intact s3
    | none => s3

/-- A power domain that a request needs becomes usable (R477). -/
def wakeDomain (d : Nat) (intact : Bool) (s : State) : State := wakeFrom s.now d intact s

/-- An access to a power domain at an instant: one that is off, gated off or retained wakes, whether its group kept
its words being free (R477; log entry 5). -/
def touchFrom (t0 d : Nat) (s : State) : State :=
  if domainRetained s d || !domainOn s d then
    let (v, s1) := takeFree s
    wakeFrom t0 d (v % 2 == 0) s1
  else if domainSetting s d = .on ∨ domainSetting s d = .deep then s
  else modDomain d (fun x => { x with access := s.now }) s

/-- Accesses to some power domains at once: the wakes run side by side (R477). -/
def touchAll (l : List Nat) (s : State) : State := forEach l (touchFrom s.now) s

/-! ### What a command touches (R18, R477, R478) -/

/-- The islands whose registers and stores the commands of an opcode group act on, beside PCIe for the mailbox and
DRAM for the journal mirror; the manual does not list them (DESIGN CHOICE, log entry 47). -/
def groupIslands (group : Nat) : List Nat :=
  match group with
  | 1 => [39]
  | 2 => [8, 9]
  | 3 | 4 => [21]
  | 5 => [22, 23, 24, 25]
  | 6 => [34]
  | 7 => [35]
  | 8 => [10, 11, 12, 13, 14]
  | 9 => [14]
  | 0x0A => [36]
  | 0x0B => [42]
  | 0x0D => [43]
  | _ => []

/-- The bank groups that they act on: 19 with the kept responses and the journal, 23 with the counters, and those of
the group's own stores (R491). -/
def groupBanks (group : Nat) : List Nat :=
  [19, 23] ++ match group with
    | 3 => [20, 21, 22]
    | 4 => List.range 8 ++ [20]
    | 5 => [18]
    | _ => []

/-- An island whose power domain its configuration leaves on in D0: a lane group that hosts a port, the management
lane where it is configured, any other (R475). -/
def islandUsed (s : State) (i : Nat) : Bool :=
  if 10 ≤ i ∧ i < 14 then blockHosts s (2 * (i - 10)) else if i = 14 then decide (s.prt.mgmtMode ≠ 0) else true

/-- The islands that the command of an opcode reaches. -/
def commandIslands (s : State) (opcode : Nat) : List Nat :=
  (groupIslands (opcode / 256)).filter (islandUsed s) ++ [40, 41]

/-- The power domains that it touches. -/
def commandDomains (s : State) (opcode : Nat) : List Nat :=
  (commandIslands s opcode).map islandDomain ++ [87] ++ (groupBanks (opcode / 256)).map (55 + ·)

/-- Hive's accesses for a command: entries on its bridges, as many as is free, and the wake of each power domain
(R18, R477, R478; log entry 5). -/
def touchFor (opcode : Nat) (s : State) : State :=
  let access := fun (i : Nat) (t : State) =>
    let (v, t1) := takeFree t
    crossLink (hiveLink i) (1 + v % 4096) t1
  let t := if [1, 8, 9].contains (opcode / 256) then clocksMayRun s else s
  if t.pow.railsUp then touchAll (commandDomains t opcode) (forEach (commandIslands t opcode) access t) else t

end Sys2Proof.Machine
end

