-- ==== Sys2Proof/Machine/Mailbox.lean ====
section
/-! DEFINITION. The mailboxes: their bytes, the journal, the steps Knarrasar takes a rung command
through (R414), and the writing of its result (R416). -/

namespace Sys2Proof.Machine

open Sys2Proof

/-! ### Status codes (R418) -/

def stOk : Nat := 0x00
def stPending : Nat := 0x01
def stState : Nat := 0x02
def stRange : Nat := 0x03
def stFormat : Nat := 0x04
def stBusy : Nat := 0x05
def stTimeout : Nat := 0x06
def stResource : Nat := 0x07
def stNotFound : Nat := 0x08
def stAuth : Nat := 0x09
def stSafe : Nat := 0x0A
def stStale : Nat := 0x0B
def stInternal : Nat := 0x0F

/-! ### Mailbox bytes (R400, R406) -/

/-- Address of an offset of mailbox n. -/
def mbxAddr (n off : Nat) : Nat := n * 4096 + off

/-- len bytes of mailbox n from an offset. -/
def mbxRead (s : State) (n off len : Nat) : Bytes := getBytes s.hif.mbox (mbxAddr n off) len

/-- A little-endian field of mailbox n. -/
def mbxField (s : State) (n off len : Nat) : Nat := le (mbxRead s n off len) 0 len

/-- Bytes written into mailbox n. -/
def mbxWrite (n off : Nat) (b : Bytes) (s : State) : State :=
  { s with hif := { s.hif with mbox := putBytes s.hif.mbox (mbxAddr n off) b } }

/-- The word at 0x804 (R408). -/
def statusWord (status : Nat) (rolled part cached rep : Bool) (len : Nat) : Nat :=
  status + 2 ^ 8 * b2n rep + 2 ^ 9 * b2n cached + 2 ^ 10 * b2n part + 2 ^ 11 * b2n rolled
    + 2 ^ 16 * len

/-- RSP_STATUS of mailbox n. -/
def mbxStatus (s : State) (n : Nat) : Nat := mbxField s n 0x804 1

/-- Mailbox n is PENDING. -/
def isPending (s : State) (n : Nat) : Bool := mbxStatus s n == stPending

/-- The response area's data bytes read 0 from here (R416). -/
def clearResponse (n : Nat) (s : State) : State :=
  { s with hif := { s.hif with
      mbox := zeroBytes s.hif.mbox (mbxAddr n 0x840) (mbxAddr n 0x1000) } }

/-- Bit n of MBX_DONE set, raising vector 2 while MBX_IRQ_EN allows (R417). -/
def setDone (n : Nat) (s : State) : State :=
  let s1 := { s with hif := { s.hif with
      done := BitVec.ofNat 16 (setBit (s.hif.done).toNat n true) } }
  if bit s.hif.irqEn.toNat n then causeVec 2 s1 else s1

/-- Data, RSP_LEN, RSP_JOURNAL_SEQ, then status and flags, in that order (R416); each result is
counted by its status (R440). -/
def respond (n status : Nat) (rolled part cached : Bool) (jseq : Nat) (data : Bytes)
    (s : State) : State :=
  let s1 := mbxWrite n 0x840 data (clearResponse n s)
  let s2 := mbxWrite n 0x808 (leBytes 8 jseq) s1
  let s3 := mbxWrite n 0x804 (leBytes 4 (statusWord status rolled part cached false data.length)) s2
  bump (ck 440 2 (n * 16 + status)) 1 (setDone n s3)

/-! ### Journal (R432 to R434) -/

/-- ARG_CRC (R432). -/
def argCrc (args : Bytes) : Word32 := crc32c (leBytes 2 args.length ++ args)

/-- A journal entry written; the newest of 8,192 displaces the oldest (R432). -/
def journal (cmdSeq : Word32) (opcode mbx status : Nat) (rolled part : Bool) (args : Bytes)
    (s : State) : State :=
  let q := s.hif.jrnHead + 1
  let e : JEntry := {
    jseq := q, time := BitVec.ofNat 96 (timeWord s), cmdSeq := cmdSeq,
    opcode := opcode, mbx := mbx, isPartial := part, rolled := rolled,
    status := BitVec.ofNat 8 status, argCrc := argCrc args, first32 := fit 32 args }
  { s with hif := { s.hif with journal := (e :: s.hif.journal).take 8192, jrnHead := q } }

/-- Entry J as 64 bytes; zeros where the journal does not hold it (R435). -/
def journalAt (s : State) (j : Nat) : Bytes :=
  match s.hif.journal.find? (fun e => e.jseq == j) with
  | some e => entryBytes e
  | none => zeros 64

/-! ### The result of a command -/

/-- LAST_SEQ of mailbox n, none before its first command since reset (R413). -/
def lastSeq (s : State) (n : Nat) : Option Word32 := tget none s.hif.lastSeq n

/-- The result of a command that passed step 2: journalled where its step says so, presented, and
kept with its CMD_SEQ (R413, R414, R416). -/
def finish (n : Nat) (seq : Word32) (opcode : Nat) (args : Bytes) (jrn : Bool)
    (status : Nat) (rolled part : Bool) (data : Bytes) (s : State) : State :=
  let s1 := if jrn then journal seq opcode n status rolled part args s else s
  let jseq := if jrn then s1.hif.jrnHead else 0
  let s2 := respond n status rolled part false jseq data s1
  let kept : Kept := {
    status := BitVec.ofNat 8 status, rolled := rolled, isPartial := part,
    jseq := jseq, data := data }
  let s3 := { s2 with hif := { s2.hif with
      lastSeq := tset none s2.hif.lastSeq n (some seq), kept := tset none s2.hif.kept n (some kept) } }
  if status = stAuth then raise 0x0105 false n (leBytes 4 seq.toNat ++ leBytes 2 opcode) s3
  else if status = stInternal then raise 0x0104 true n (leBytes 4 seq.toNat ++ leBytes 2 opcode) s3
  else s3

/-- A result that leaves LAST_SEQ and the kept response as they are (steps 1 and 2 of R414). -/
def finishBare (n status : Nat) (data : Bytes) (s : State) : State :=
  respond n status false false false 0 data s

/-- The kept response presented again (R413). -/
def represent (n : Nat) (k : Kept) (s : State) : State :=
  bump (ck 440 3 n) 1
    (respond n k.status.toNat k.rolled k.isPartial true k.jseq k.data s)

/-! ### What a command's entry states -/

/-- One listed argument field: offset, length, and the status its value fails with, 0 for none. -/
structure Arg where
  off : Nat
  len : Nat
  bad : Nat → Nat := fun _ => 0

/-- A field that takes any value. -/
def anyArg (off len : Nat) : Arg := { off := off, len := len }

/-- A field whose value fails step 4 with RANGE_REJECT unless ok. -/
def rangeArg (off len : Nat) (ok : Nat → Bool) : Arg :=
  { off := off, len := len, bad := fun v => if ok v then 0 else stRange }

/-- A field of flag bits: any bit above the lowest n is a reserved argument bit. -/
def flagArg (off n : Nat) : Arg :=
  { off := off, len := 1, bad := fun v => if v < 2 ^ n then 0 else stFormat }

/-- What running a command comes to. -/
inductive Ran where
  /-- A final status with its response data and the state it leaves. -/
  | final (status : Nat) (data : Bytes) (s : State)
  /-- Not final yet: the command waits in `running`, for the exit from D2 or D3 first where set. -/
  | waits (afterExit : Bool) (s : State)
  /-- The device is reset; the command never becomes final (R454). -/
  | never (s : State)

/-- A refusal whose word 0 the manual does not define: a free value (log entry 5). -/
def refuseFree (status : Nat) (s : State) : Ran :=
  let (v, t) := takeFree s
  .final status (leBytes 4 v) t

/-- A refusal without data, RSP_LEN 0 (R447). -/
def refuse (status : Nat) (s : State) : Ran := .final status [] s

/-- A refusal with a word 0 that the manual gives. -/
def refuseWord (status word : Nat) (s : State) : Ran := .final status (leBytes 4 word) s

/-- OK without data. -/
def done (s : State) : Ran := .final stOk [] s

/-- OK with data. -/
def doneWith (data : Bytes) (s : State) : Ran := .final stOk data s

/-- A signed field of n bytes that lies within ±m. -/
def signedArg (off n m : Nat) : Arg :=
  rangeArg off n (fun v => decide ((sint (8 * n) v).natAbs ≤ m))

/-- A field between two bounds. -/
def boundArg (off n lo hi : Nat) : Arg :=
  rangeArg off n (fun v => decide (lo ≤ v) && decide (v ≤ hi))

/-- A bit field of a descriptor that stands at argument offset off: bits [lo + w - 1 : lo]. The fault
names the byte that holds the field's lowest bit (log entry 19). -/
def bitArg (d off lo w st : Nat) (ok : Nat → Bool) : Arg :=
  { off := off + lo / 8, len := 1, bad := fun _ => if ok (fld d lo w) then 0 else st }

/-- Reserved bits of a descriptor. -/
def zeroArg (d off lo w : Nat) : Arg := bitArg d off lo w stFormat (fun v => decide (v = 0))

/-- A condition on a descriptor whose fault names the field at bit lo. -/
def ruleArg (off lo : Nat) (ok : Bool) : Arg :=
  { off := off + lo / 8, len := 1, bad := fun _ => if ok then 0 else stRange }

/-- A command of the reference (R446 to R448). -/
structure CmdSpec where
  opcode : Nat
  /-- CMD_LEN is one that the command allows (R447). -/
  lenOk : Nat → Bytes → Bool
  /-- The listed argument fields, given the arguments. -/
  args : Bytes → List Arg
  /-- A further check of step 4: status and argument offset. -/
  also : State → Bytes → Option (Nat × Nat) := fun _ _ => none
  /-- Legality at step 5, on the device state (R446). -/
  legal : State → Bytes → Bool
  /-- Default deadline in µs (R448). -/
  deadline : Nat := 10000
  background : Bool := false
  /-- Own conditions of step 6, and execution. -/
  run : Nat → Bytes → State → Ran
  /-- A command that handles items in turn: what is left after so many items (R415). -/
  items : Option (Nat → Nat → Bytes → State → Ran) := none
  /-- How many items such a command has. -/
  count : Bytes → Nat := fun _ => 0

/-- CMD_LEN equal to the last listed byte plus one (R447). -/
def fixedLen (n : Nat) : Nat → Bytes → Bool := fun len _ => decide (len = n)

/-- A header, then a counted number of items (R447). -/
def countedLen (header item : Nat) (count : Bytes → Nat) : Nat → Bytes → Bool :=
  fun len a => decide (len = header + item * count a)

/-! ### Legality classes (R446) -/

def clsQ : State → Bytes → Bool := fun _ _ => true

def clsL : State → Bytes → Bool := fun s _ => s.dev.state != .safe

def clsS : State → Bytes → Bool := fun s _ => s.dev.state == .standby

def clsM : State → Bytes → Bool := fun s _ => s.dev.state == .maintenance

def clsIn (l : List DevState) : State → Bytes → Bool := fun s _ => l.contains s.dev.state

/-! ### Step 4 -/

/-- Byte i of the arguments is listed. -/
def listed (l : List Arg) (i : Nat) : Bool :=
  l.any (fun a => decide (a.off ≤ i) && decide (i < a.off + a.len))

/-- The faults of the arguments: fields out of range, and reserved bytes that are not zero (R447). -/
def argFaults (l : List Arg) (args : Bytes) : List (Nat × Nat) :=
  (l.filterMap (fun a =>
      let st := a.bad (le args a.off a.len)
      if st = 0 then none else some (st, a.off)))
    ++ ((List.range args.length).filterMap (fun i =>
      if byteAt args i = 0 || listed l i then none else some (stFormat, i)))

/-- The fault at the lowest offset. -/
def firstFault : List (Nat × Nat) → Option (Nat × Nat)
  | [] => none
  | f :: l =>
    match firstFault l with
    | none => some f
    | some g => if g.2 < f.2 then some g else some f

/-- Step 4 of R414: status and mailbox offset of the first field at fault. -/
def stepFour (c : CmdSpec) (deadline : Nat) (args : Bytes) (s : State) : Option (Nat × Nat) :=
  if deadline > 600000000 then some (stRange, 0x008)
  else
    (firstFault (argFaults (c.args args) args ++ (c.also s args).toList)).map
      (fun p => (p.1, 0x040 + p.2))

/-! ### Taking a command up (R412 to R416) -/

/-- A command runs that is not background: Knarrasar executes one at a time (R412). -/
def foreground (s : State) : Bool := s.hif.running.any (fun r => !r.background)

/-- The opcode of the background command that runs. -/
def background? (s : State) : Option Nat :=
  (s.hif.running.find? (fun r => r.background)).map (·.opcode)

/-- The header at fault in step 3: opcode or length, then the reserved bytes. -/
def stepThree (c : Option CmdSpec) (n len : Nat) (args : Bytes) (s : State) : Option Nat :=
  match c with
  | none => some 0x004
  | some c =>
    if !(decide (len ≤ 1984) && c.lenOk len args) then some 0x004
    else if (mbxRead s n 0x00C 52).any (· != 0) then some 0x00C
    else none

/-- How a command that passed step 5 ends: its own run, or what a passed deadline makes of it. -/
inductive Ending where
  | run
  /-- The deadline passed before step 6 (R415). -/
  | early
  /-- Knarrasar stops it between items (R415). -/
  | items (k : Nat)
  /-- Knarrasar stops an all-or-nothing command (R415). -/
  | rolledBack
  /-- Knarrasar finds an inconsistency in itself, and undoes the command (R418). -/
  | internal
  deriving DecidableEq, Repr

/-- The Warden has checked the command of mailbox n, which goes to Amber with its header and arguments as they
were copied, rejected or not (R409, R548, R553). -/
def recordCommand (rejected : Bool) (n : Nat) (s : State) : State :=
  amberRecord 0x0001 rejected (leBytes 1 n ++ mbxRead s n 0 (64 + min (mbxField s n 0x006 2) 1984)) s

/-- A command that fails one of steps 1 to 5 is rejected at the Warden's check of that step, and counted (R548). -/
def rejectCommand (step n : Nat) (s : State) : State := bump (ck 548 step n) 1 (recordCommand true n s)

/-- Execution of the command of mailbox n begins: Amber's record, and Hive's accesses with the wakes that they cost,
whose time counts against the deadline (R478, R553). -/
def beginCommand (n : Nat) (s : State) : State :=
  touchFor (mbxField s n 0x004 2) (recordCommand false n s)

/-- The background command that makes a further one BUSY (R412). -/
def busyWith (c : CmdSpec) (s : State) : Option Nat := if c.background then background? s else none

/-- What step 6 refuses a command for (R414): another background command, or a condition of its own. -/
def ownRefusal (c : CmdSpec) (n : Nat) (args : Bytes) (s : State) : Option (Nat × Bytes) :=
  match busyWith c s with
  | some op => some (stBusy, leBytes 4 op)
  | none =>
    match c.run n args s with
    | .final st data _ => if st = stOk then none else some (st, data)
    | .waits _ _ | .never _ => none

/-- How a command ends in the end: one whose wakes have outlasted its deadline is rolled back (R478), and one stopped
after its last item has had them all (R415). -/
def finalEnding (c : CmdSpec) (args : Bytes) (limit : Nat) (e : Ending) (s : State) : Ending :=
  match e with
  | .run => if limit < s.now then .rolledBack else .run
  | .items k => if c.items.isSome && decide (c.count args ≤ k) then .run else e
  | _ => e

/-- What running a command has come to is presented, with PARTIAL where it stopped between items; or the command
waits. -/
def endRan (c : CmdSpec) (n : Nat) (seq : Word32) (args : Bytes) (limit : Nat) (stopped : Bool) (r : Ran) : State :=
  match r with
  | .final st data t =>
    if stopped && st == stOk then finish n seq c.opcode args true stTimeout false true data t
    else finish n seq c.opcode args true st false false data t
  | .waits ex t =>
    let w : Running := {
      mbx := n, opcode := c.opcode, seq := seq, args := args, deadline := limit,
      background := c.background, afterExit := ex }
    { t with hif := { t.hif with running := t.hif.running ++ [w] } }
  | .never t => t

/-- The rest of R414 for a command that passed step 5. -/
def runCommand (c : CmdSpec) (n : Nat) (seq : Word32) (args : Bytes) (limit : Nat) (e0 : Ending)
    (s0 : State) : State :=
  let s := beginCommand n s0
  match finalEnding c args limit e0 s with
  | .early => finish n seq c.opcode args true stTimeout false false [] s
  | .items k =>
    match c.items with
    | none => finish n seq c.opcode args true stTimeout true false [] s
    | some f => endRan c n seq args limit true (f k n args s)
  | .run =>
    match busyWith c s with
    | some op => finish n seq c.opcode args true stBusy false false (leBytes 4 op) s
    | none => endRan c n seq args limit false (c.run n args s)
  | e =>
    match ownRefusal c n args s with
    | some (st, data) => finish n seq c.opcode args true st false false data s
    | none =>
      finish n seq c.opcode args true (if e = .internal then stInternal else stTimeout) true false [] s

/-- Steps 1 to 7 of R414 for the ring at the front of the doorbell queue, given the command its
opcode names. -/
def judge (c : Option CmdSpec) (n : Nat) (bell : Bell) (e : Option Ending) (s : State) : State :=
  let seq := BitVec.ofNat 32 (mbxField s n 0x000 4)
  let opcode := mbxField s n 0x004 2
  let len := mbxField s n 0x006 2
  let deadline := mbxField s n 0x008 4
  let args := mbxRead s n 0x040 (min len 1984)
  if seq = 0 then finishBare n stFormat (leBytes 4 0x000) (rejectCommand 1 n s)
  else
    let d := match lastSeq s n with
      | none => 1
      | some l => subMod 32 seq.toNat l.toNat
    if d = 0 then
      match tget none s.hif.kept n with
      | some k => represent n k s
      | none => s
    else if d ≥ 2 ^ 31 then
      finishBare n stStale (leBytes 4 ((lastSeq s n).getD 0).toNat) (rejectCommand 2 n s)
    else
      match stepThree c n len args s, c with
      | some off, _ => finish n seq opcode args true stFormat false false (leBytes 4 off) (rejectCommand 3 n s)
      | none, none => s
      | none, some c =>
        match stepFour c deadline args s with
        | some (st, off) =>
          finish n seq opcode args true st false false (leBytes 4 off) (rejectCommand 4 n s)
        | none =>
          if !c.legal s args then
            finish n seq opcode args false (if s.dev.state = .safe then stSafe else stState)
              false false (leBytes 4 (stateWord s)) (rejectCommand 5 n s)
          else
            let limit := bell.at_ + us (if deadline = 0 then c.deadline else deadline)
            let e := e.getD (if limit < s.now then .early else .run)
            runCommand c n seq args limit e s

/-- The ring of mailbox n at the front of the doorbell queue while no foreground command runs. -/
def frontBell (s : State) (n : Nat) : Option Bell :=
  match s.hif.bells with
  | [] => none
  | b :: _ => if b.mbx = n && !foreground s then some b else none

/-- The front ring taken from the doorbell queue. -/
def popBell (s : State) : State := { s with hif := { s.hif with bells := s.hif.bells.tail } }

/-- Knarrasar takes up the command c that mailbox n holds, when its ring is next and its opcode is
this one; otherwise the event has no occasion (log entry 3). -/
def takeUp (c : CmdSpec) (n : Nat) (s : State) : State :=
  match frontBell s n with
  | none => s
  | some b =>
    if mbxField s n 0x004 2 = c.opcode then judge (some c) n b none (popBell s) else s

/-- The command that waits in `running` for mailbox n ends with a status. -/
def conclude (n status : Nat) (rolled part : Bool) (data : Bytes) (s : State) : State :=
  match s.hif.running.find? (fun r => r.mbx == n) with
  | none => s
  | some r =>
    let s1 := { s with hif := { s.hif with running := s.hif.running.filter (fun r => r.mbx != n) } }
    finish n r.seq r.opcode r.args true status rolled part data s1

/-- The mailbox of a command with this opcode that waits. -/
def waiting (s : State) (opcode : Nat) : Option Running :=
  s.hif.running.find? (fun r => r.opcode == opcode)

end Sys2Proof.Machine
end

