-- ==== Sys2Proof/Machine/HostRegs.lean ====
section
/-! DEFINITION. Host accesses: BAR0 mailbox writes and reads, the BAR2 registers, the PCIe function
and its resets (chapters 12 and 20). -/

namespace Sys2Proof.Machine

open Sys2Proof

/-! ### Identity (R2) -/

/-- The PCIe vendor ID and device ID of both grades; the Device ID register holds the same number (R2). -/
def pcieVendor : Nat := 0x1F6E
def deviceId : Nat := 0x7440

/-- The revision ID of the first silicon release (R399). -/
def revisionId : Nat := 0x10

/-- The first word of the function's configuration space (R2). -/
def configIds : Nat := pcieVendor + 2 ^ 16 * deviceId

/-- Word 0x2C of configuration space: subsystem vendor ID and subsystem ID (R399). -/
def subsystemIds : Nat := pcieVendor + 2 ^ 16 * deviceId

/-- Word 0x08 of configuration space: revision ID 0x10 and class code 0x02_8000 (R399, R471). -/
def classWord : Nat := revisionId + 2 ^ 8 * 0x028000

/-! ### Discards -/

/-- An access the device does not accept: nothing written; counted per BAR (R11, R401, R440). -/
def refuseAccess (b : Bar) (s : State) : State :=
  let k := match b with
    | .bar0 => 0
    | .bar2 => 1
    | .bar4 => 2
  emit (.unsupported b) (bump (ck 440 7 k) 1 s)

/-- A BAR2 write that the device discards and counts (R440, R613). -/
def discardWrite (s : State) : State := bump (ck 440 11 0) 1 s

/-- The registers usable from READY take a write; before it, the write is discarded (R613). -/
def afterReady (f : State → State) (s : State) : State :=
  if s.dev.ready then f s else discardWrite s

/-! ### Mailboxes -/

/-- Why R410 ignores a doorbell: 0 READY clear, 1 PENDING, 2 a bit of [31:4] set. -/
def doorbellRefusal (v : Word32) (s : State) : Option Nat :=
  if !s.dev.ready then some 0
  else if v.toNat ≥ 16 then some 2
  else if isPending s (v.toNat % 16) then some 1
  else none

/-- R410: all changes of an accepted ring, at one clock. -/
def ringBell (n : Nat) (s : State) : State :=
  let seq := mbxRead s n 0x000 4
  let s1 := mbxWrite n 0x804 (leBytes 4 stPending) (mbxWrite n 0x800 seq (clearResponse n s))
  let s2 := mbxWrite n 0x808 (leBytes 8 0) s1
  let b : Bell := { mbx := n, at_ := s.now, beryl := BitVec.ofNat 96 (timeWord s) }
  bump (ck 440 0 n) 1 { s2 with hif := { s2.hif with
    done := BitVec.ofNat 16 (setBit (s2.hif.done).toNat n false), bells := s2.hif.bells ++ [b] } }

/-- MBX_DOORBELL (R410). -/
def execMbxDoorbell (v : Word32) (s : State) : Answer :=
  match doorbellRefusal v s with
  | some cause => .next (bump (ck 440 1 (v.toNat % 16 * 4 + cause)) 1 s)
  | none => .next (ringBell (v.toNat % 16) s)

/-- A result has been presented in mailbox n since the reset that zeroed it, and it is final. -/
def hasFinal (s : State) (n : Nat) : Bool :=
  !isPending s n && (mbxField s n 0x800 4 != 0 || mbxField s n 0x804 4 != 0)

/-- MBX_STATUS_READ (R417): the read returns the word as it stood, and a final status takes REPEAT. -/
def execMbxStatusRead (n : Fin 16) (s : State) : Answer :=
  let w := mbxField s n 0x804 4
  let s1 := emit (.readData w) s
  if hasFinal s n then .next (mbxWrite n 0x804 (leBytes 4 (setBit w 8 true)) s1) else .next s1

/-- The bytes of a write that are enabled, written one by one. -/
def writeEnabled (m : Tab Byte) : Nat → List (Option Byte) → Tab Byte
  | _, [] => m
  | a, none :: l => writeEnabled m (a + 1) l
  | a, some b :: l => writeEnabled (tset 0 m a b) (a + 1) l

/-- MAILBOX_WRITE (R401, R406, R409): a write outside the accepted kinds is an Unsupported Request;
bytes of the response area, and every byte while PENDING, are discarded and counted. -/
def execMailboxWrite (n : Fin 16) (off : Nat) (data : List (Option Byte)) (s : State) : Answer :=
  if off % 4 ≠ 0 ∨ data.length % 4 ≠ 0 ∨ data.length = 0 ∨ data.length > 256 ∨ off + data.length > 4096 then
    .next (refuseAccess .bar0 s)
  else
    let cmd := data.take (0x800 - off)
    let s1 := if off + data.length > 0x800 then bump (ck 440 4 (n * 2)) 1 s else s
    if cmd.isEmpty then .next s1
    else if isPending s n then .next (bump (ck 440 4 (n * 2 + 1)) 1 s1)
    else .next { s1 with hif := { s1.hif with mbox := writeEnabled s1.hif.mbox (mbxAddr n off) cmd } }

/-- W1C (R7, R8): bits written 1 clear, except those that hardware sets in the same cycle. -/
def w1c {n : Nat} (old v same : BitVec n) : BitVec n := (old &&& ~~~v) ||| same

/-- MBX_DONE_CLEAR (R619). -/
def execMbxDoneClear (v : Word32) (same : Word16) (s : State) : Answer :=
  .next (afterReady (fun s => { s with hif := { s.hif with
    done := w1c s.hif.done (v.setWidth 16) same } }) s)

/-- MBX_IRQ_EN_WRITE (R619): an enabled mailbox whose DONE bit is set raises vector 2 at once. -/
def execMbxIrqEnWrite (v : Word32) (s : State) : Answer :=
  .next (afterReady (fun s =>
    let s1 := { s with hif := { s.hif with irqEn := v.setWidth 16 } }
    if v.setWidth 16 &&& s.hif.done = 0 then s1 else causeVec 2 s1) s)

/-! ### Event ring -/

/-- EVT_ENTRIES is a power of two from 256 to 65,536 (R420). -/
def entriesOk (n : Nat) : Bool := isPow2 n && decide (256 ≤ n) && decide (n ≤ 65536)

/-- EVT_ENABLE (R420, R620). -/
def execEvtEnable (s : State) : Answer :=
  .next (afterReady (fun s =>
    if !entriesOk s.hif.evtEntries.toNat then discardWrite s
    else if s.hif.evtEnable then s
    else { s with hif := { s.hif with evtEnable := true, evtProducer := 0, evtConsumer := 0,
                                      evtPhase := true } }) s)

/-- EVT_DISABLE (R620). -/
def execEvtDisable (s : State) : Answer :=
  .next (afterReady (fun s => { s with hif := { s.hif with evtEnable := false } }) s)

/-- EVT_CONSUMER_WRITE (R621). -/
def execEvtConsumerWrite (v : Word32) (s : State) : Answer :=
  .next (afterReady (fun s =>
    if subMod 32 v.toNat s.hif.evtConsumer.toNat
        ≤ subMod 32 s.hif.evtProducer.toNat s.hif.evtConsumer.toNat then
      { s with hif := { s.hif with evtConsumer := v } }
    else discardWrite s) s)

/-- The backlog written while the ring has room (R424). -/
def drainBacklog : List Event → State → State
  | [], s => s
  | e :: l, s =>
    if ringRoom s then
      drainBacklog l (writeRecord e { s with hif := { s.hif with backlog := l } })
    else s

/-- EVENT_BACKLOG_DRAIN (R424): the backlog in SEQ order, then EVENTS_LOST if any was lost. -/
def execEventBacklogDrain (s : State) : Answer :=
  let s1 := drainBacklog s.hif.backlog s
  match s1.hif.lost with
  | none => .next s1
  | some (lo, n) =>
    if s1.hif.backlog.isEmpty && ringRoom s1 then
      let s2 := { s1 with hif := { s1.hif with lost := none } }
      .next (raise 0x0100 false 0xFF (leBytes 4 lo.toNat ++ leBytes 4 n) s2)
    else .next s1

/-! ### MSI-X moderation -/

/-- A vector with moderation (R425, R426, R622). -/
def moderated (v : Nat) : Bool := decide (v < 11) && decide (v ≠ 1)

/-- MSIX_MOD_WRITE (R622). -/
def execMsixModWrite (vec : Fin 32) (v : Word32) (s : State) : Answer :=
  .next (afterReady (fun s =>
    if !moderated vec then s
    else
      let x := { vecOf s vec with countM1 := v.extractLsb' 16 8, holdoff := v.extractLsb' 0 10 }
      let s1 := setVec vec x s
      if vecDue s1 x then fireVec vec s1 else s1) s)

/-- MSIX_HOLDOFF_EXPIRY (R426): HOLDOFF has passed since the first cause that waits. -/
def execMsixHoldoffExpiry (vec : Fin 32) (s : State) : Answer :=
  let x := vecOf s vec
  let s1 := passSince x.first (us x.holdoff.toNat) s
  if moderated vec && vecDue s1 x then .next (fireVec vec s1) else .next s

/-! ### Packet-ring tails -/

/-- A tail write: none where R623 discards it. -/
def tailWrite (r : Ring) (v : Word32) : Option Ring :=
  let posted := subMod 32 v.toNat r.head.toNat
  if !r.enable || decide (posted > r.entries)
      || decide (posted < subMod 32 r.tail.toNat r.head.toNat) then none
  else some { r with tail := v }

/-- HRING_RX_TAIL_WRITE (R623). -/
def execHringRxTailWrite (r : Fin 4) (v : Word32) (s : State) : Answer :=
  .next (afterReady (fun s =>
    match tailWrite (tget {} s.hif.rx r) v with
    | none => discardWrite s
    | some x => { s with hif := { s.hif with rx := tset {} s.hif.rx r x } }) s)

/-- HRING_TX_TAIL_WRITE (R623). -/
def execHringTxTailWrite (r : Fin 4) (v : Word32) (s : State) : Answer :=
  .next (afterReady (fun s =>
    match tailWrite (tget {} s.hif.tx r) v with
    | none => discardWrite s
    | some x => { s with hif := { s.hif with tx := tset {} s.hif.tx r x } }) s)

/-! ### GPIO balls (R587, R631) -/

/-- The level that GPIO_IN shows for a ball: an output's drive once it has stood for the 10 µs filter. -/
def gpioLevel (s : State) (i : Nat) : Bool :=
  if bit s.hif.gpioDir.toNat i && decide (tget 0 s.hif.gpioAt i + us 10 ≤ s.now) then bit s.hif.gpioOut.toNat i
  else bit s.hif.gpioIn.toNat i

/-- GPIO_IN as it reads. -/
def gpioLevels (s : State) : Word16 := BitVec.ofNat 16 (maskOf ((List.range 16).filter (gpioLevel s)))

/-- A change of GPIO_DIR or GPIO_OUT: the ball of every output that takes a new level starts its filter. -/
def setGpio (dir out : Word16) (s : State) : State :=
  let moved := fun (i : Nat) => bit dir.toNat i
    && (!bit s.hif.gpioDir.toNat i || bit out.toNat i != bit s.hif.gpioOut.toNat i)
  { s with hif := { s.hif with
    gpioIn := gpioLevels s, gpioDir := dir, gpioOut := out
    gpioAt := ((List.range 16).filter moved).foldl (fun t i => tset 0 t i s.now) s.hif.gpioAt } }

/-! ### Registers -/

/-- A word of a BAR2 register as a read returns it (R613 to R631). REF_BAD reads its reset value 0 in COLD,
where REFCLK156 has not qualified yet (R600, R617; log entry 13). -/
def regWord (s : State) (off : Nat) : Nat :=
  if off = 0x0000 then deviceId + 0x00100000 + 2 ^ 24 * b2n Config.gradeC
  else if off = 0x0004 then
    stateWord s % 2 ^ 16 + 2 ^ 30 * b2n (background? s).isSome + 2 ^ 31 * b2n s.dev.ready
  else if off = 0x0008 then s.dev.cause.toNat + 256 * s.dev.previous.toNat
  else if off = 0x000C then
    b2n s.sup.dyingGasp + 2 * b2n s.hif.refLoss + 4 * b2n (!s.sup.refOk && s.dev.state != .cold) + 8 * b2n s.pow.throttle
      + 16 * b2n s.sup.vioLow + 32 * s.dev.alarmLatch.toNat + 1024 * b2n s.hif.sensorFail
      + 2048 * b2n s.mnt.fallback
  else if 0x0010 ≤ off ∧ off < 0x001C ∧ off % 4 = 0 then fld (domainMask s) (8 * (off - 0x0010)) 32
  else if off = 0x0104 then s.hif.done.toNat
  else if off = 0x0108 then s.hif.irqEn.toNat
  else if off = 0x0200 then b2n s.hif.evtEnable + 2 * b2n s.hif.evtPhase
  else if off = 0x0208 then s.hif.evtBase.toNat % 2 ^ 32
  else if off = 0x020C then s.hif.evtBase.toNat / 2 ^ 32
  else if off = 0x0210 then s.hif.evtEntries.toNat
  else if off = 0x0214 then s.hif.evtProducer.toNat
  else if off = 0x0218 then s.hif.evtConsumer.toNat
  else if off = 0x021C then s.hif.backlog.length
  else if 0x0300 ≤ off ∧ off < 0x0380 ∧ off % 4 = 0 then
    let x := vecOf s ((off - 0x0300) / 4)
    if moderated ((off - 0x0300) / 4) then x.holdoff.toNat + 2 ^ 16 * x.countM1.toNat else 0
  else if 0x0400 ≤ off ∧ off < 0x0420 ∧ off % 4 = 0 then
    let x := tget {} s.hif.rx ((off - 0x0400) / 8)
    if off % 8 = 0 then x.tail.toNat else x.head.toNat
  else if 0x0440 ≤ off ∧ off < 0x0460 ∧ off % 4 = 0 then
    let x := tget {} s.hif.tx ((off - 0x0440) / 8)
    if off % 8 = 0 then x.tail.toNat else x.head.toNat
  else if off = 0x0500 then s.hif.jrnHead % 2 ^ 32
  else if off = 0x0504 then s.hif.jrnHead / 2 ^ 32 % 2 ^ 32
  else if off = 0x0508 then s.hif.jrnWindowSeq.toNat % 2 ^ 32
  else if off = 0x050C then s.hif.jrnWindowSeq.toNat / 2 ^ 32
  else if off = 0x0604 then
    s.hif.snap.status.toNat + 512 * b2n s.hif.snap.valid + 2 ^ 16 * s.hif.snap.seq.toNat
  else if 0x0610 ≤ off ∧ off < 0x061C ∧ off % 4 = 0 then
    fld s.hif.snap.main.toNat (8 * (off - 0x0610)) 32
  else if off = 0x061C then s.hif.snap.ts32.toNat
  else if 0x0620 ≤ off ∧ off < 0x062C ∧ off % 4 = 0 then
    fld s.hif.snap.shadowA.toNat (8 * (off - 0x0620)) 32
  else if 0x0630 ≤ off ∧ off < 0x063C ∧ off % 4 = 0 then
    fld s.hif.snap.shadowB.toNat (8 * (off - 0x0630)) 32
  else if off = 0x063C then s.hif.snap.bound.toNat
  else if off = 0x0700 then s.hif.dumpGen.toNat
  else if off = 0x0704 then s.obs.dumpPeriod + 2 ^ 16 * b2n s.obs.dumpHost
  else if off = 0x0900 then s.hif.mdioCmd.toNat
  else if off = 0x0904 then s.hif.mdioData.toNat
  else if off = 0x0A00 then s.hif.gpioDir.toNat
  else if off = 0x0A04 then s.hif.gpioOut.toNat
  else if off = 0x0A08 then (gpioLevels s).toNat
  else if 0x8000 ≤ off ∧ off < 0x8400 ∧ off % 4 = 0 then le s.hif.jrnWindow (off - 0x8000) 4
  else 0

/-- Where the low word of a 64-bit register lies (R613). -/
def isLowWord (off : Nat) : Bool := off == 0x0208 || off == 0x0500 || off == 0x0508

/-- The 64-bit RW registers among them (R13). -/
def isLowWordRw (off : Nat) : Bool := off == 0x0208 || off == 0x0508

/-- Where the high word of a 64-bit register lies. -/
def isHighWord (off : Nat) : Bool := off == 0x020C || off == 0x0504 || off == 0x050C

/-- What a read of a high word gives: the shadow that the low word's read has left, or the live word (R12). -/
def highWord (s : State) (off : Nat) : Nat :=
  match tget none s.hif.highShadow (off - 4) with
  | some w => w.toNat
  | none => regWord s off

/-- REGISTER_LOW_WORD_READ (R12): the high word is latched into the shadow, which the next read of the high word
returns. -/
def execRegisterLowWordRead (off : Nat) (s : State) : Answer :=
  if isLowWord off then
    .next (emit (.readData (regWord s off)) { s with hif := { s.hif with
      highShadow := tset none s.hif.highShadow off (some (BitVec.ofNat 32 (regWord s (off + 4)))) } })
  else if isHighWord off then
    .next (emit (.readData (highWord s off)) { s with hif := { s.hif with
      highShadow := tset none s.hif.highShadow (off - 4) none } })
  else .next s

/-- EVT_BASE or EVT_ENTRIES written while ENABLE is set: discarded and counted (R420, R440). -/
def discardRingSetup (s : State) : State := bump (ck 440 6 0) 1 s

/-- REGISTER_LOW_WORD_WRITE (R13): held until the high word is written. -/
def execRegisterLowWordWrite (off : Nat) (v : Word32) (s : State) : Answer :=
  if !isLowWordRw off then .next s
  else
    .next (afterReady (fun s =>
      if off = 0x0208 ∧ s.hif.evtEnable then discardRingSetup s
      else { s with hif := { s.hif with lowHeld := tset none s.hif.lowHeld off (some v) } }) s)

/-- Both words of a 64-bit register as they stand: the high word written, and the low word held, or
the low word as it stands when none is held (R13). -/
def bothWords (s : State) (off : Nat) (hi : Word32) : Word64 :=
  let lo := match tget none s.hif.lowHeld off with
    | some w => w.toNat
    | none => regWord s off
  BitVec.ofNat 64 (hi.toNat * 2 ^ 32 + lo)

/-- JRN_WINDOW_SEQ_WRITE (R435, R624): the high word starts a copy with J as both words stand. -/
def execJrnWindowSeqWrite (v : Word32) (s : State) : Answer :=
  .next (afterReady (fun s =>
    let j := bothWords s 0x0508 v
    { s with hif := { s.hif with jrnWindowSeq := j, copies := s.hif.copies ++ [j],
                                 lowHeld := tset none s.hif.lowHeld 0x0508 none } }) s)

/-- The journal's bank group is woken for an access in D2 and D3 (R402, R477, R625). -/
def wakeJournal (s : State) : State := if s.pow.railsUp then touchFrom s.now 74 s else s

/-- The entries that a copy from sequence j takes, once the journal's bank group is awake (R435). -/
def copyWindow (j : Nat) (s : State) : State :=
  let s1 := wakeJournal s
  { s1 with hif := { s1.hif with
    copies := s1.hif.copies.drop 1, jrnWindow := (List.range 16).flatMap (fun k => journalAt s1 (j + k)) } }

/-- JRN_WINDOW_COPY_DONE (R435, R625): the oldest copy ordered ends. -/
def execJrnWindowCopyDone (s : State) : Answer :=
  match s.hif.copies with
  | [] => .next s
  | j :: _ => .next (copyWindow j.toNat s)

/-- The registers with a row of their own for a host write. -/
def ownRow (off : Nat) (v : Word32) : Bool :=
  off == 0x0100 || off == 0x0104 || off == 0x0108 || off == 0x0200 || off == 0x0218
    || off == 0x0208 || off == 0x0508 || off == 0x050C || off == 0x000C
    || (off == 0x0600 && v.getLsbD 0) || (off == 0x0900 && v.getLsbD 31)
    || (decide (0x0300 ≤ off) && decide (off < 0x0380))
    || (decide (0x0400 ≤ off) && decide (off < 0x0420) && off % 8 == 0)
    || (decide (0x0440 ≤ off) && decide (off < 0x0460) && off % 8 == 0)

/-- A register lies at this offset (R613). -/
def isRegister (off : Nat) : Bool :=
  [0x0000, 0x0004, 0x0008, 0x000C, 0x0010, 0x0014, 0x0018, 0x0100, 0x0104, 0x0108, 0x0200, 0x0208,
   0x020C, 0x0210, 0x0214, 0x0218, 0x021C, 0x0500, 0x0504, 0x0508, 0x050C, 0x0600, 0x0604, 0x0610,
   0x0614, 0x0618, 0x061C, 0x0620, 0x0624, 0x0628, 0x0630, 0x0634, 0x0638, 0x063C, 0x0700, 0x0704,
   0x0900, 0x0904, 0x0A00, 0x0A04, 0x0A08].contains off
    || (decide (0x0300 ≤ off) && decide (off < 0x0380))
    || (decide (0x0400 ≤ off) && decide (off < 0x0420))
    || (decide (0x0440 ≤ off) && decide (off < 0x0460))
    || (decide (0x8000 ≤ off) && decide (off < 0x8400))

/-- The stage from which R613 lets a register be written. -/
def usable (s : State) (off : Nat) : Bool :=
  if off < 0x0100 then true
  else if 0x0900 ≤ off ∧ off < 0x0B00 then s.dev.state != .cold
  else s.dev.ready

/-- REGISTER_WRITE (R613): the effect of a register's access code; the GPIO and MDIO fields, the
event-ring setup; reserved bits ignore what is written (R10). -/
def execRegisterWrite (off : Nat) (v : Word32) (s : State) : Answer :=
  if off % 4 ≠ 0 then .next (refuseAccess .bar2 s)
  else if ownRow off v then .next s
  else if !isRegister off || !usable s off then .next (discardWrite s)
  else if off = 0x020C then
    if s.hif.evtEnable then .next (discardRingSetup s)
    else .next { s with hif := { s.hif with
      evtBase := BitVec.ofNat 64 ((bothWords s 0x0208 v).toNat / 64 * 64),
      lowHeld := tset none s.hif.lowHeld 0x0208 none } }
  else if off = 0x0210 then
    if s.hif.evtEnable then .next (discardRingSetup s)
    else .next { s with hif := { s.hif with evtEntries := v.setWidth 17 } }
  else if off = 0x0900 then
    .next { s with hif := { s.hif with
      mdioCmd := (s.hif.mdioCmd &&& 0x80020000) ||| (v &&& 0x7FFC0000) } }
  else if off = 0x0904 then .next { s with hif := { s.hif with mdioData := v &&& 0xFFFF } }
  else if off = 0x0A00 then .next (setGpio (v.setWidth 16) s.hif.gpioOut s)
  else if off = 0x0A04 then .next (setGpio s.hif.gpioDir (v.setWidth 16) s)
  else .next s

/-- FAULT_STATUS_CLEAR (R617): SENSOR_FAIL and REF_LOSS are the W1C bits. -/
def execFaultStatusClear (v same : Word32) (s : State) : Answer :=
  .next { s with hif := { s.hif with
    sensorFail := (s.hif.sensorFail && !v.getLsbD 10) || same.getLsbD 10,
    refLoss := (s.hif.refLoss && !v.getLsbD 1) || same.getLsbD 1 } }

/-- MDIO_CMD_GO (R586, R630): one frame starts, unless one is in progress. -/
def execMdioCmdGo (v : Word32) (s : State) : Answer :=
  if !v.getLsbD 31 then .next s
  else if !usable s 0x0900 || s.hif.mdioCmd.getLsbD 31 then .next (discardWrite s)
  else
    let cmd := v &&& 0xFFFC0000
    .next (emit (.mdio cmd s.hif.mdioData) { s with hif := { s.hif with mdioCmd := cmd, mdioAt := s.now } })

/-- MDIO_FRAME_DONE (R586, R630): BUSY clears; a read returns data, or finds no device, is discarded after 2 ms,
sets ERROR and is counted (R547). -/
def execMdioFrameDone (found : Bool) (data : Word16) (s : State) : Answer :=
  let cmd := s.hif.mdioCmd
  if !cmd.getLsbD 31 then .next s
  else
    let idle := cmd &&& 0x7FFFFFFF
    let isRead := cmd.getLsbD 29
    if isRead && found then
      .next { s with hif := { s.hif with mdioCmd := idle, mdioData := data.setWidth 32 } }
    else if isRead then
      let s1 := passTo (s.hif.mdioAt + ms 2) s
      .next (bump (ck 547 13 0) 1
        { s1 with hif := { s1.hif with mdioCmd := idle ||| 0x00020000, mdioData := 0 } })
    else .next { s with hif := { s.hif with mdioCmd := idle } }

/-! ### The PCIe function -/

/-- The device stops DMA: the event ring and every packet ring are disabled (R404). -/
def stopDma (s : State) : State :=
  let off := fun (t : Tab Ring) => (List.range 4).foldl
    (fun t r => tset {} t r { tget {} t r with enable := false }) t
  { s with hif := { s.hif with evtEnable := false, rx := off s.hif.rx, tx := off s.hif.tx } }

/-- BUS_MASTER_DISABLE (R404). -/
def execBusMasterDisable (s : State) : Answer :=
  .next (stopDma { s with hif := { s.hif with busMaster := false } })

/-- PCI_PM_D3HOT (R404). -/
def execPciPmD3hot (s : State) : Answer :=
  .next (stopDma { s with hif := { s.hif with d3hot := true } })

/-- Pending vectors that are not masked send their messages; the rest keep their pending bit. -/
def sendPending : List Nat → State → State
  | [], s => s
  | v :: l, s =>
    let x := vecOf s v
    if x.pend && !x.masked then sendPending l (emit (.msix v) (setVec v { x with pend := false } s))
    else sendPending l s

/-- BUS_MASTER_ENABLE (R404): the function is in D0 and may issue DMA again. -/
def execBusMasterEnable (s : State) : Answer :=
  .next (sendPending (List.range 32)
    { s with hif := { s.hif with busMaster := true, d3hot := false } })

/-- What a Function Level Reset does (R405, R437, R619, R620, R622). -/
def functionReset (s : State) : State :=
  let s1 := stopDma s
  { s1 with hif := { s1.hif with
    busMaster := false, d3hot := false, pcie := {}, msix := [], evtBase := 0, evtEntries := 0,
    evtProducer := 0, evtConsumer := 0, evtPhase := true,
    lowHeld := tset none s1.hif.lowHeld 0x0208 none } }

/-- FUNCTION_LEVEL_RESET (R405). -/
def execFunctionLevelReset (s : State) : Answer := .next (functionReset s)

/-- PERST_N_LOW (R580, R604): low for its 100 ns filter: as a Function Level Reset, and the link goes down. -/
def execPerstNLow (s : State) (held : Nat := 100000) : Answer :=
  .next (deglitch 3 0 100000 held (fun s =>
    let s1 := functionReset s
    { s1 with hif := { s1.hif with perst := true, linkUp := false } }) s)

/-- PERST_N_RELEASE (R604): the link trains again, once reset is released (R605). -/
def execPerstNRelease (s : State) (held : Nat := 100000) : Answer :=
  .next (deglitch 3 0 100000 held (fun s =>
    { s with hif := { s.hif with perst := false, linkUp := s.dev.state != .cold } }) s)

end Sys2Proof.Machine
end

