-- ==== Sys2Proof/Machine/TimeOps.lean ====
section
/-! DEFINITION. Time status, time domains, changes of the main counter, gate positions and the
sleep timer: what the time, power and traffic steps share (chapters 7 and 9). -/

namespace Sys2Proof.Machine

open Sys2Proof

/-! ### Time status (R311) -/

def domNum : TimeDomain → Nat
  | .a => 0 | .b => 1

def servoOf (s : State) (d : TimeDomain) : Servo :=
  match d with
  | .a => s.time.a
  | .b => s.time.b

def modServo (d : TimeDomain) (f : Servo → Servo) (s : State) : State :=
  match d with
  | .a => { s with time := { s.time with a := f s.time.a } }
  | .b => { s with time := { s.time with b := f s.time.b } }

def selected (s : State) : TimeDomain := if s.time.selectedB then .b else .a

def DomState.code : DomState → Nat
  | .unused => 0 | .acquiring => 1 | .locked => 2 | .holdover => 3

/-- The main time status (R311, R343). -/
def mainStatus (s : State) : Nat :=
  if s.time.woke.isSome || s.time.sleep.isSome then 4
  else if s.time.slewing then 3
  else if !s.time.served then 0
  else match (servoOf s (selected s)).state with
    | .unused => 0
    | .acquiring => 1
    | .locked => 2
    | .holdover => 4

/-! ### Gate positions (R265) -/

/-- The gates an entry list gives at a position of its cycle; the last entry holds to the end. -/
def gatesAtPos : List (Byte × Nat) → Nat → Byte
  | [], _ => 0xFF
  | [e], _ => e.1
  | e :: f :: l, pos => if pos < e.2 then e.1 else gatesAtPos (f :: l) (pos - e.2)

/-- Position in a list's cycle at a time in ns; cycles reach back before BASE. -/
def cyclePos (g : GateList) (t : Nat) : Nat := (((t : Int) - g.base) % (g.cycle : Int)).toNat

/-- Gates of a list at a time in ns. -/
def gatesAt (g : GateList) (t : Nat) : Byte := gatesAtPos g.entries (cyclePos g t)

/-- Beryl time in whole ns. -/
def nowNs (s : State) : Nat := (mainNow s).sec * 1000000000 + (mainNow s).ns

/-- The island that times a target's gates: the scheduler, or the upstream staging island. -/
def gateIsland (target : Nat) : Nat := if bit target 15 then 9 else 24

/-- Gates in force on a target now; no edge is timed while the island's replica is not aligned (R308). -/
def liveGates (s : State) (target : Nat) (x : Gate) : Byte :=
  match x.active with
  | none => 0xFF
  | some g => if replicaAligned s (gateIsland target) then gatesAt g (nowNs s) else x.gates

/-- The island that times a target's gates is aligned (R308). -/
def awaitReplica (target : Nat) (s : State) : State := passTo (replicaOf s (gateIsland target)).from_ s

/-- Each list recomputes its position from the new time, with an event (R266). -/
def recomputeGates (s : State) : State :=
  s.tm.gates.foldl (fun s e =>
    match e.2.active with
    | none => s
    | some g =>
      raise 0x0501 false 0xFF (leBytes 2 e.1)
        { s with tm := { s.tm with
          gates := tset {} s.tm.gates e.1 { e.2 with gates := gatesAt g (nowNs s) } } }) s

/-! ### Changes of the main counter (R309) -/

/-- A counter moved by d keeps within 0 s and 2^48 − 1 s (R309). -/
def withinTime (b : Beryl) (d : Int) : Bool :=
  let t := (b.total : Int) + d
  decide (0 ≤ t) && decide (t.toNat / fracNs / 1000000000 < 2 ^ 48)

/-- The time-set event, with the new value as its time and the old one in its payload (R474); PPS_OUT moves to the
new boundaries (R338), and the next audit point is the first whole millisecond of the new time (R522). -/
def timeSetEvent (old : Nat) (s : State) : State :=
  recomputeGates (raiseAt (timeWord s) 0x0701 false 0xFF (leBytes 12 old)
    { s with time := { s.time with lastPps := none }, obs := { s.obs with auditAt := none } })

/-- The main counter and the selected shadow moved together at one tick (R309); in D3 the latched
T_e moves (log entry 16). -/
def moveTime (d : Int) (row : Nat) (s : State) : State :=
  let old := timeWord s
  let s1 := modServo (selected s) (fun x => { x with shadow := x.shadow.add d })
    { s with time := { s.time with
      main := s.time.main.add d
      sleep := s.time.sleep.map (fun x => { x with te := x.te.add d }) } }
  timeSetEvent old (bump (ck 344 row 2) 1 s1)

/-! ### Time domains (R312 to R316) -/

/-- Why a time domain changes its state (R312, R342, R344). -/
inductive DomCause where
  | configured | removed | inside | outside | noSample | sampleAgain | wake
  deriving DecidableEq, Repr

def DomCause.code : DomCause → Nat
  | .configured => 0 | .removed => 1 | .inside => 2 | .outside => 3 | .noSample => 4 | .sampleAgain => 5
  | .wake => 6

/-- A change of a domain's state, with its event, counted by its cause (R344). -/
def setDomState (why : DomCause) (d : TimeDomain) (st : DomState) (s : State) : State :=
  let old := (servoOf s d).state
  if old == st then s
  else
    let s1 := modServo d (fun x => { x with state := st, inRun := 0, outRun := 0
                                            first := x.first || st == .acquiring }) s
    bump (ck 344 3 (domNum d + 2 * why.code)) 1
      (raise 0x0702 false (domNum d) (leBytes 1 old.code ++ leBytes 1 st.code) s1)

def rateMax : Int := 439804651

def clampInt (m v : Int) : Int := if v > m then m else if v < -m then -m else v

/-- One servo update (R313). -/
def steer (e : Int) (x : Servo) : Servo :=
  let acc := clampInt (rateMax * 2 ^ 32) (x.acc + (x.ki.toNat : Int) * e)
  { x with acc := acc
           rate := clampInt rateMax (-(((x.kp.toNat : Int) * e + acc) / 2 ^ 32)) }

/-- A domain reaches LOCKED (R311, R312, R343). -/
def reachLocked (d : TimeDomain) (s : State) : State :=
  let s1 := setDomState .inside d .locked (modServo d (fun x => { x with everLocked := true, sinceWake := true }) s)
  { s1 with time := { s1.time with
    served := true, woke := if selected s1 = d then none else s1.time.woke } }

/-- The runs of R312 after a sample. -/
def judgeLock (d : TimeDomain) (e : Int) (s : State) : State :=
  let x := servoOf s d
  let inside := decide (e.natAbs ≤ x.lockNs * 65536)
  let i := if inside then x.inRun + 1 else 0
  let o := if inside then 0 else x.outRun + 1
  let s1 := modServo d (fun x => { x with inRun := i, outRun := o }) s
  match x.state with
  | .acquiring => if i ≥ 3 then reachLocked d s1 else s1
  | .locked => if o ≥ 3 then setDomState .outside d .acquiring s1 else s1
  | _ => s1

/-- A sample of time domain d with offset e in 2^-16 ns, age ns after its capture (R313 to R316). -/
def servoStep (d : TimeDomain) (e : Int) (age : Nat) (s : State) : State :=
  let x := servoOf s d
  if x.state == .unused then s
  else if age > 100000000 then bump (ck 344 1 (domNum d)) 1 s
  else if e.natAbs > 2 ^ 47 then bump (ck 344 2 (domNum d)) 1 s
  else
    let status := mainStatus s
    let s1 := markHigh (ck 344 24 (domNum d)) (e.natAbs / 65536) (bump (ck 344 0 (domNum d)) 1 s)
    let s2 := if x.state == .holdover then setDomState .sampleAgain d .acquiring s1 else s1
    let firstOne := (servoOf s2 d).first
    let s3 := modServo d (fun x => { x with first := false, lastAt := some s.now }) s2
    let units : Int := -(e * (5 * 2 ^ 24))
    let wants := firstOne && decide (s.time.stepNs ≠ 0) && decide (e.natAbs > s.time.stepNs * 65536)
      && withinTime (servoOf s3 d).shadow units
    let s4 :=
      if selected s = d then
        if wants && (status == 0 || status == 4) && withinTime s3.time.main units then
          moveTime units 14 s3
        else modServo d (steer e) s3
      else if wants then modServo d (fun x => { x with shadow := x.shadow.add units }) s3
      else modServo d (steer e) s3
    judgeLock d e s4

/-- A domain without a valid sample for HOLD_S, or at wake, holds its frequency (R312, R313, R342). -/
def toHoldover (why : DomCause) (d : TimeDomain) (s : State) : State :=
  setDomState why d .holdover (modServo d (fun x => { x with rate := -(x.acc / 2 ^ 32) }) s)

/-- A domain's source is configured, or no longer is (R312). -/
def sourceSet (d : TimeDomain) (on : Bool) (s : State) : State :=
  if on then
    if (servoOf s d).state == .unused then
      setDomState .configured d .acquiring (modServo d (fun x => { x with lastAt := some s.now }) s)
    else s
  else setDomState .removed d .unused (modServo d (fun x => { x with pending := none }) s)

/-! ### The sleep timer (R342) -/

/-- The main counter stops and the sleep timer takes over. -/
def enterSleep (s : State) : State :=
  let sl : Sleep := {
    te := s.time.main, elapsed := 0, onRef := s.time.refOk, since := 0, counted := 0, error := 0
    usedRef := s.time.refOk, usedOsc := !s.time.refOk }
  { s with time := { s.time with sleep := some sl } }

/-- The reference is disqualified during D3: from the timer's next edge on it counts the internal oscillator (R342). -/
def sleepOnOscillator (s : State) : State :=
  match s.time.sleep with
  | none => s
  | some sl =>
    if sl.onRef then
      let p := sleepPeriod s.time true
      let run := (sl.elapsed - sl.since + p - 1) / p * p
      { s with time := { s.time with sleep := some { sl with
        onRef := false, since := sl.since + run, counted := sl.counted + run
        error := sl.error + run * s.time.refTol, usedOsc := true } } }
    else s

/-- The end of a slew, with its event and the ns it took (R319, R344). -/
def endSlew (s : State) : State :=
  let s1 := bump (ck 344 8 2) ((s.now - s.time.slewAt) / 1000)
    { s with time := { s.time with slewing := false } }
  raise 0x0704 false (domNum (selected s)) (leBytes 8 0) s1

/-- The sleep timer has reached its next edge (R342). -/
def passEdge (s : State) : State :=
  match s.time.sleep with
  | none => s
  | some sl =>
    let p := sleepPeriod s.time sl.onRef
    if sl.elapsed < sl.since then passTo (s.now + (sl.since - sl.elapsed)) s
    else passTo (s.now + (p - (sl.elapsed - sl.since) % p) % p) s

/-- A bound saturating in a 32-bit word of ns. -/
def satNs (ps : Nat) : Nat := min 0xFFFFFFFF ((ps + 999) / 1000)

/-- Wake: the main counter and both shadows load T_e + E; a slew has ended; the time status and both domains
are HOLDOVER with acc kept; 1 µs later the wake event carries E and B (R320, R342). -/
def leaveSleep (s : State) : State :=
  match s.time.sleep with
  | none => s
  | some sl =>
    let e := sleepE s.time sl
    let b := sleepB s.time sl
    let v := sl.te.add ((e * fracNs / 1000 : Nat) : Int)
    let old := sl.te.word
    let s1 := { s with time := { s.time with
      sleep := none, main := v, woke := some (satNs b)
      a := { s.time.a with shadow := v, sinceWake := false }
      b := { s.time.b with shadow := v, sinceWake := false } } }
    let s2 := toHoldover .wake .b (toHoldover .wake .a (timeSetEvent old s1))
    let s3 := if s2.time.slewing then endSlew s2 else s2
    raise 0x0708 false 0xFF (leBytes 8 (e / 1000) ++ leBytes 4 (satNs b)) (passTo (s3.now + us 1) s3)

/-! ### The snapshot items (R310, R626) -/

/-- SNAP_STATUS bits [8:0]. -/
def snapStatus (s : State) : Nat :=
  mainStatus s + 8 * b2n s.time.selectedB + 16 * s.time.a.state.code + 64 * s.time.b.state.code
    + 256 * b2n s.time.fibre.single

/-- BOUND in ns. -/
def snapBound (s : State) : Nat :=
  match s.time.sleep with
  | some sl => satNs (sleepB s.time sl)
  | none => s.time.woke.getD 0

/-- TS32 (R331). -/
def ts32 (s : State) : Nat := nowNs s % 2 ^ 32

/-- A shadow as it reads now: in D3 both read T_e + E (R628). -/
def shadowNow (s : State) (d : TimeDomain) : Nat :=
  if s.time.sleep.isSome then timeWord s else (servoOf s d).shadow.word

end Sys2Proof.Machine
end

