-- ==== Sys2Proof/Machine/Time.lean ====
section
/-! DEFINITION. The time commands and the steps of the Beryl time unit (chapter 9, R464). -/

namespace Sys2Proof.Machine

open Sys2Proof

/-! ### Setting the time (R309, R464) -/

def cmdTimeSet : CmdSpec where
  opcode := 0x0701
  lenOk := fixedLen 12
  args := fun _ => [anyArg 0 2, rangeArg 2 4 (fun v => decide (v ≤ 999999999)), anyArg 6 6]
  legal := clsL
  run := fun _ a s =>
    let d : Int := ((berylOfWord (le a 0 12)).total : Int) - (mainNow s).total
    done { moveTime d 9 s with time := { (moveTime d 9 s).time with served := false } }

/-- TIME_SET (R309, R311, R464). -/
def execTimeSet (n : Fin 16) (s : State) : Answer := .next (takeUp cmdTimeSet n s)

/-- Units of `Beryl.frac` of a signed number of ns. -/
def nsUnits (v : Int) : Int := v * fracNs

def cmdTimeStep : CmdSpec where
  opcode := 0x0702
  lenOk := fixedLen 8
  args := fun _ => [signedArg 0 8 (2 ^ 47)]
  legal := clsL
  run := fun _ a s =>
    let d := nsUnits (sint 64 (le a 0 8))
    if withinTime (mainNow s) d && withinTime (servoOf s (selected s)).shadow d then
      done (moveTime d 10 s)
    else refuseWord stRange 0x040 s

/-- TIME_STEP (R309, R464). -/
def execTimeStep (n : Fin 16) (s : State) : Answer := .next (takeUp cmdTimeStep n s)

def cmdTimeSetServo : CmdSpec where
  opcode := 0x0703
  lenOk := fixedLen 21
  args := fun _ => [boundArg 0 1 0 1, anyArg 4 4, anyArg 8 4, boundArg 12 2 1 65535, boundArg 14 1 1 60,
    boundArg 16 4 0 1000000000, boundArg 20 1 1 50]
  legal := clsL
  run := fun _ a s =>
    let d : TimeDomain := if byteAt a 0 = 0 then .a else .b
    let s1 := modServo d (fun x => { x with
      kp := BitVec.ofNat 32 (le a 4 4), ki := BitVec.ofNat 32 (le a 8 4), lockNs := le a 12 2
      holdS := byteAt a 14, gainsSet := true }) s
    done { s1 with time := { s1.time with stepNs := le a 16 4, slewPpm := byteAt a 20 } }

/-- TIME_SET_SERVO (R312, R314, R316, R319). -/
def execTimeSetServo (n : Fin 16) (s : State) : Answer := .next (takeUp cmdTimeSetServo n s)

/-! ### Switching time domains (R318 to R320) -/

/-- Main counter less a domain's shadow, in units of `Beryl.frac`. -/
def shadowDelta (s : State) (d : TimeDomain) : Int :=
  ((mainNow s).total : Int) - (servoOf s d).shadow.total

/-- The switch to a time domain that has been found fit (R319, R320); one that has relocked since the wake ends
its HOLDOVER (R311, R343). -/
def switchTo (d : TimeDomain) (s : State) : State :=
  let fresh := mainStatus s == 0
  let old := timeWord s
  let pick := { s with time := { s.time with
    selectedB := d == .b, woke := if (servoOf s d).sinceWake then none else s.time.woke } }
  let s1 := if fresh then
      timeSetEvent old { pick with time := { pick.time with main := (servoOf s d).shadow } }
    else pick
  let delta := shadowDelta s1 d
  let s2 := raise 0x0703 false (domNum d) (leBytes 8 (uint 64 (delta / (5 * 2 ^ 24))))
    (bump (ck 344 7 2) 1 s1)
  let s3 := if s.time.slewing then s2
    else { s2 with time := { s2.time with slewing := true, slewAt := s2.now } }
  if delta = 0 then endSlew s3 else s3

def cmdTimeSelectDomain : CmdSpec where
  opcode := 0x0704
  lenOk := fixedLen 1
  args := fun _ => [boundArg 0 1 0 1]
  legal := clsL
  run := fun _ a s =>
    let d : TimeDomain := if byteAt a 0 = 0 then .a else .b
    if selected s = d then done s
    else if !(servoOf s d).everLocked then refuseFree stResource s
    else done (switchTo d s)

/-- TIME_SELECT_DOMAIN (R318 to R320). -/
def execTimeSelectDomain (n : Fin 16) (s : State) : Answer := .next (takeUp cmdTimeSelectDomain n s)

/-- SLEW_END (R319): the difference has been absorbed. -/
def execSlewEnd (s : State) : Answer :=
  if s.time.slewing && s.time.sleep.isNone then
    let step : Nat := s.time.slewPpm * 4 * 2 ^ 40 / 5000000
    let left := (shadowDelta s (selected s)).natAbs
    .next (endSlew (ticks ((left + 5 * step - 1) / (5 * step)) s))
  else .next s

/-- DOMAIN_HOLDOVER (R312, R313): no valid sample for HOLD_S. -/
def execDomainHoldover (d : TimeDomain) (s : State) : Answer :=
  let x := servoOf s d
  if (x.state == .acquiring || x.state == .locked) && s.time.sleep.isNone then
    .next (toHoldover .noSample d (passSince x.lastAt (ms (1000 * x.holdS)) s))
  else .next s

/-- SERVO_SAMPLE (R313 to R316): the sample that the domain's source has left for its servo; without one there is
nothing to take, whatever the operands say (R322, R328). -/
def execServoSample (d : TimeDomain) (_e : Int) (_age : Nat) (s : State) : Answer :=
  match (servoOf s d).pending with
  | some (v, at_) =>
    .next (servoStep d v ((s.now - at_) / 1000) (modServo d (fun x => { x with pending := none }) s))
  | none => .next s

/-! ### Fibre time transfer (R321 to R327) -/

def fibreDelayOf (s : State) (ch : Nat) : FibreDelay := tget {} s.time.fibre.delays ch

/-- A channel whose wavelengths are set (R321). -/
def wavesSet (x : FibreDelay) : Bool := decide (x.lambdaD ≠ 0) || decide (x.lambdaU ≠ 0)

/-- A wavelength of TIME_SET_FIBRE in pm. -/
def waveOk (v : Nat) : Bool := decide (1260000 ≤ v) && decide (v ≤ 1625000)

/-- The argument fields of one channel (R321, R464). -/
def fibreArgs (a : Bytes) (c : Nat) : List Arg :=
  let o := 8 + 20 * c
  let unset := le a o 4 = 0 ∧ le a (o + 4) 4 = 0
  let wave := fun v => unset || waveOk v
  [rangeArg o 4 wave, rangeArg (o + 4) 4 wave, boundArg (o + 8) 4 0 100000,
    boundArg (o + 12) 4 0 100000, signedArg (o + 16) 4 1000000]

def cmdTimeSetFibre : CmdSpec where
  opcode := 0x0705
  lenOk := fixedLen 96
  args := fun a => boundArg 0 8 0 2000000000000 :: (List.range 4).flatMap (fibreArgs a)
    ++ [rangeArg 88 4 waveOk, boundArg 92 4 0 50000]
  legal := clsL
  run := fun _ a s =>
    let read := fun (t : Tab FibreDelay) c =>
      let o := 8 + 20 * c
      let x : FibreDelay := {
        lambdaD := le a o 4, lambdaU := le a (o + 4) 4, delayRx := le a (o + 8) 4
        delayTx := le a (o + 12) 4, asym := sint 32 (le a (o + 16) 4) }
      tset {} t c x
    let delays := (List.range 4).foldl read s.time.fibre.delays
    let f := { s.time.fibre with
      theta := le a 0 8, delays := delays, lambdaRef := le a 88 4, kappa := le a 92 4 }
    done (sourceSet .a ((List.range 4).any (fun c => wavesSet (tget {} delays c)))
      { s with time := { s.time with fibre := f } })

/-- TIME_SET_FIBRE (R321). -/
def execTimeSetFibre (n : Fin 16) (s : State) : Answer := .next (takeUp cmdTimeSetFibre n s)

/-- x(λ) of R323 in 10^-9 nm, from pm. -/
def waveX (f : FibreTime) (lam : Nat) : Int :=
  let d : Int := (lam : Int) - f.lambdaRef
  (2000000000 * d + (f.kappa : Int) * d * d) / 2000

/-- A_c in 2^-16 ps: by the estimate, or as configured (R323, R326). -/
def asymOf (f : FibreTime) (x : FibreDelay) : Int :=
  if f.validity = 0 then x.asym * 65536
  else f.pHat * (waveX f x.lambdaD - waveX f x.lambdaU) / 1000000000

/-- F_c in 2^-16 ps (R323); the bit time is 10^7/995,328 ps. -/
def roundTrip (s : State) (ch : Nat) : Int :=
  let x := fibreDelayOf s ch
  (((s.time.fibre.theta : Int) - x.delayRx - x.delayTx) * 65536)
    - (((actOf s ch).eqd.getD 0 : Nat) : Int) * 10000000 * 65536 / 995328

/-- T_c − DELAY_RX − H_c in 2^-16 ps. -/
def arrivalOff (s : State) (ch : Nat) (c : Capture) : Int :=
  ((c.tc : Int) - c.hc) * 1000 - ((fibreDelayOf s ch).delayRx : Int) * 65536

/-- Channels that yield an offset: in F5, not withdrawn, wavelengths set, with a field (R321, R327). -/
def timeChannels (s : State) : List (Nat × Capture) :=
  (List.range 4).filterMap (fun ch =>
    match tget none s.time.fibre.captures ch with
    | some c =>
      if (actOf s ch).act == .f5 && (actOf s ch).withdrawn.isNone && wavesSet (fibreDelayOf s ch) then
        some (ch, c)
      else none
    | none => none)

/-- The fields that the channels hold, by channel and counter value. -/
def heldFields (s : State) : List (Nat × Nat) :=
  (List.range 4).filterMap (fun ch => (tget none s.time.fibre.captures ch).map (fun c => (ch, c.sfc)))

/-- The channels that hold a field of the latest counter value among them, none of which has been used (R327). -/
def latestChannels (s : State) (used : List (Nat × Nat)) : Option Nat × List (Nat × Capture) :=
  let l := (timeChannels s).filter (fun e => !used.contains (e.1, e.2.sfc))
  match l with
  | [] => (none, [])
  | e :: rest =>
    let k := rest.foldl (fun m c => max m c.2.sfc) e.2.sfc
    (some k, l.filter (fun c => c.2.sfc == k))

/-- Mean of some integers, rounded down. -/
def meanInt (l : List Int) : Int :=
  if l.isEmpty then 0 else l.foldl (· + ·) 0 / (l.length : Int)

/-- TOD_FIELD_SAMPLE (R323, R327): the mean offset of the channels that yielded one for the latest
counter value becomes the sample of servo A. -/
def execTodFieldSample (s : State) : Answer :=
  match latestChannels s s.time.fibre.sampledOf with
  | (some k, (ch, c) :: rest) =>
    if s.time.fibre.sampled = some k then .next s
    else
      let off := fun (e : Nat × Capture) =>
        arrivalOff s e.1 e.2 - (roundTrip s e.1 + asymOf s.time.fibre (fibreDelayOf s e.1)) / 2
      let e := meanInt (((ch, c) :: rest).map off) / 1000
      let age := (s.time.a.shadow.stamp - c.tc) * 1000 / 65536
      let s1 := modServo .a (fun x => { x with pending := some (e, s.now - age) }) s
      let s2 := { s1 with time := { s1.time with fibre := { s1.time.fibre with
        sampled := some k, sampledOf := heldFields s } } }
      .next (forEach (((ch, c) :: rest).map (·.1)) (fun c s => bump (ck 344 15 c) 1 s) s2)
  | _ => .next s

/-- What a channel's field of this second gives for the differences (R324). -/
def chanSecond (s : State) (c : Nat × Capture) : ChanSecond :=
  let f := s.time.fibre
  let x := fibreDelayOf s c.1
  { ch := c.1, arrival := arrivalOff s c.1 c.2, round := roundTrip s c.1
    xDown := waveX f x.lambdaD, xUp := waveX f x.lambdaU }

/-- The differences of channel c against channel r in each second that has both: y and u of both lines (R324). -/
def differences (history : List (List ChanSecond)) (r c : Nat) : List (Int × Int × Int × Int) :=
  history.filterMap (fun l =>
    match l.find? (fun e => e.ch == r), l.find? (fun e => e.ch == c) with
    | some a, some b =>
      some (b.arrival - a.arrival, b.round - a.round, b.xDown - a.xDown, b.xDown + b.xUp - a.xDown - a.xUp)
    | _, _ => none)

/-- Σ(y × u) and Σ(u²) over the mean differences of every pair with the lowest channel (R324). -/
def estimateSums (history : List (List ChanSecond)) : List Nat → Int × Int
  | [] => (0, 0)
  | r :: others =>
    others.foldl (fun acc c =>
      let l := differences history r c
      let yd := meanInt (l.map (·.1))
      let yr := meanInt (l.map (·.2.1))
      let ud := meanInt (l.map (·.2.2.1))
      let ur := meanInt (l.map (·.2.2.2))
      (acc.1 + yd * ud + yr * ur, acc.2 + ud * ud + ur * ur)) (0, 0)

/-- The channels with a field since the last estimate, and its counter value (R324, R327). -/
def newChannels (s : State) : Option Nat × List (Nat × Capture) :=
  let (k, l) := latestChannels s s.time.fibre.estimatedOf
  if s.time.fibre.estimated = k then (k, []) else (k, l)

/-- One estimate (R324, R326): with two channels that qualify a new one, else the last valid one held. -/
def estimate (s : State) : State :=
  let f := s.time.fibre
  let (k, l) := newChannels s
  let history := (l.map (chanSecond s) :: f.history).take 16
  let sums := estimateSums history (l.map (·.1))
  let ok := decide (l.length ≥ 2) && decide (sums.2 ≥ 4000000000000000000)
  let validity := if ok then 1 else if f.validity = 0 then 0 else 2
  let g := { f with
    history := history, estimated := if k.isSome then k else f.estimated, estimatedOf := heldFields s, single := !ok, validity := validity, estimatedAt := s.now
    pHat := if ok then sums.1 * 1000000000 / sums.2 else f.pHat }
  let s1 := { s with time := { s.time with fibre := g } }
  if validity = 0 then s1 else bump (ck 344 (15 + validity) 0) 1 s1

/-- ASYMMETRY_ESTIMATE (R324, R326, R341): once per second, from LOADING's end on (R473). -/
def execAsymmetryEstimate (s : State) : Answer :=
  if afterLoading s then .next (estimate (passTo (s.time.fibre.estimatedAt + ms 1000) s)) else .next s

def cmdTimeReadFibre : CmdSpec where
  opcode := 0x0706
  lenOk := fixedLen 0
  args := fun _ => []
  legal := clsQ
  run := fun _ _ s =>
    let f := s.time.fibre
    let a := fun c =>
      let x := fibreDelayOf s c
      leBytes 4 (uint 32 (if wavesSet x then asymOf f x / 65536 else 0))
    doneWith (leBytes 8 (uint 64 f.pHat) ++ leBytes 4 f.validity ++ (List.range 4).flatMap a) s

/-- TIME_READ_FIBRE (R324, R464). -/
def execTimeReadFibre (n : Fin 16) (s : State) : Answer := .next (takeUp cmdTimeReadFibre n s)

/-! ### Time domain B, reference, PPS and ToD (R328, R336 to R340) -/

def cmdTimeSetSource : CmdSpec where
  opcode := 0x0707
  lenOk := fixedLen 12
  args := fun _ => [boundArg 0 1 0 2, boundArg 1 1 0 1, signedArg 4 4 1000000, boundArg 8 4 1 1000]
  legal := clsL
  run := fun _ a s =>
    let src : DomBSource := match byteAt a 0 with
      | 0 => .none
      | 1 => .ptp
      | _ => .pps
    let changed := src != s.time.sourceB
    let b := s.time.b
    let ki : Word32 := if b.gainsSet then b.ki else if src == .pps then 0x00010000 else 0x00001000
    let s1 := { s with time := { s.time with
      sourceB := src, ref25 := byteAt a 1 == 1, ppsInDelay := sint 32 (le a 4 4), refTol := le a 8 4
      b := { b with ki := ki, pending := if changed then none else b.pending }
      edgeAt := if changed then none else s.time.edgeAt
      lastEdge := if changed then none else s.time.lastEdge } }
    done (sourceSet .b (src != .none) s1)

/-- TIME_SET_SOURCE (R314, R328, R342). -/
def execTimeSetSource (n : Fin 16) (s : State) : Answer := .next (takeUp cmdTimeSetSource n s)

def cmdTimeSetIo : CmdSpec where
  opcode := 0x0708
  lenOk := fixedLen 14
  args := fun _ => [flagArg 0 1, signedArg 4 4 999999, boundArg 8 4 1000 500000000,
    boundArg 12 1 0 3, boundArg 13 1 0 3]
  legal := clsL
  run := fun _ a s =>
    let on := bit (byteAt a 0) 0
    let same := on == s.time.ppsEnable && sint 32 (le a 4 4) == s.time.ppsOffset
    done { s with time := { s.time with
      ppsEnable := on, ppsOffset := sint 32 (le a 4 4), ppsWidth := le a 8 4
      lastPps := if same then s.time.lastPps else none
      todOut := byteAt a 12, todIn := byteAt a 13 } }

/-- TIME_SET_IO (R337, R339). -/
def execTimeSetIo (n : Fin 16) (s : State) : Answer := .next (takeUp cmdTimeSetIo n s)

def cmdTimeSetPtp : CmdSpec where
  opcode := 0x0709
  lenOk := fixedLen 72
  args := fun _ => boundArg 0 1 24 43 :: anyArg 2 2 :: (List.range 16).map (fun p => anyArg (8 + 4 * p) 4)
  legal := clsL
  run := fun _ a s =>
    if (setBits 16 (le a 2 2)).any (fun p => decide ((portOf s p).mode = 0)) then
      refuseFree stResource s
    else
      let asym := (List.range 16).foldl (fun t p => tset 0 t p (sint 32 (le a (8 + 4 * p) 4)))
        s.time.ptpAsym
      done { s with time := { s.time with
        ptpDomain := byteAt a 0, ptpMask := BitVec.ofNat 16 (le a 2 2), ptpAsym := asym } }

/-- TIME_SET_PTP (R329, R464). -/
def execTimeSetPtp (n : Fin 16) (s : State) : Answer := .next (takeUp cmdTimeSetPtp n s)

def cmdTimeReadStatus : CmdSpec where
  opcode := 0x070A
  lenOk := fixedLen 0
  args := fun _ => []
  legal := clsQ
  run := fun _ _ s =>
    doneWith (leBytes 12 (timeWord s) ++ leBytes 4 (ts32 s) ++ leBytes 12 (shadowNow s .a)
      ++ leBytes 12 (shadowNow s .b) ++ leBytes 4 (snapStatus s + 512) ++ leBytes 4 (snapBound s)
      ++ leBytes 8 (uint 64 s.time.a.rate) ++ leBytes 8 (uint 64 s.time.b.rate)) s

/-- TIME_READ_STATUS (R310, R464). -/
def execTimeReadStatus (n : Fin 16) (s : State) : Answer := .next (takeUp cmdTimeReadStatus n s)

/-- TIME_SNAP (R310, R626, R628). -/
def execTimeSnap (v : Word32) (s : State) : Answer :=
  if !v.getLsbD 0 then .next s
  else
    .next (afterReady (fun s =>
      let snap : Snapshot := {
        seq := s.hif.snap.seq + 1, valid := true, status := BitVec.ofNat 9 (snapStatus s)
        main := BitVec.ofNat 96 (timeWord s), ts32 := BitVec.ofNat 32 (ts32 s)
        shadowA := BitVec.ofNat 96 (shadowNow s .a), shadowB := BitVec.ofNat 96 (shadowNow s .b)
        bound := BitVec.ofNat 32 (snapBound s) }
      { s with hif := { s.hif with snap := snap } }) s)

/-- REFERENCE_INPUT_CHANGE (R336, R342). -/
def execReferenceInputChange (qualified : Bool) (s : State) : Answer :=
  if s.time.refOk = qualified then .next s
  else
    let s1 := if qualified then s else sleepOnOscillator s
    let s2 := { s1 with time := { s1.time with refOk := qualified } }
    .next (raise 0x0707 false 0xFF (leBytes 1 (b2n qualified))
      (bump (ck 344 (if qualified then 22 else 23) 0) 1 s2))

/-- Units of `Beryl.frac` in one second. -/
def secUnits : Nat := 1000000000 * fracNs

/-- The second whose PPS_OUT edge comes next: the latest one due and not yet given, else the next; after a
change of the boundaries the next one from now on (R337, R338). -/
def nextPps (t : Time) : Nat :=
  let at_ : Int := (t.main.total : Int) - nsUnits t.ppsOffset
  let k := (at_ / secUnits).toNat
  match t.lastPps with
  | none => if at_ % secUnits = 0 ∨ at_ < 0 then k else k + 1
  | some b => max k (b + 1)

/-- PPS_OUT_EDGE (R337, R338): the whole second plus PPS_OFFSET has come, and PPS_OUT stays high for its width;
a pulse in progress completes first. -/
def execPpsOutEdge (s : State) : Answer :=
  if s.time.ppsEnable && !s.time.ppsHeld && s.time.sleep.isNone then
    let s0 := passTo s.time.ppsFall s
    let k := nextPps s0.time
    let s1 := passMain ((k * secUnits : Nat) + nsUnits s.time.ppsOffset).toNat s0
    .next (emit (.pps s.time.ppsWidth) { s1 with time := { s1.time with
      lastPps := some k, todDue := some (k, s1.now), ppsFall := s1.now + 1000 * s.time.ppsWidth } })
  else .next s

/-- CRC-16 of a ToD message over its bytes 2 to 13 (R339). -/
def todCrc (b : Bytes) : Nat := crcMsb 16 0x1021 0xFFFF (bitsOf (slice b 2 12))

/-- The ToD message that names a second (R339). Where the UTC offset and its three flags come from the manual
does not say: they are free (log entry 42). -/
def todMessage (s : State) (sec : Nat) : Bytes :=
  let v := Config.freeValue s.fresh
  let head := [0xA5, 0x3C, 0x01, 0x0A] ++ beBytes 6 sec ++ beBytes 2 (v / 8 % 2 ^ 16)
    ++ beBytes 1 (v % 8) ++ beBytes 1 (mainStatus s)
  head ++ beBytes 2 (todCrc head)

/-- TOD_OUT_MESSAGE (R339): 100 ms after an edge. -/
def execTodOutMessage (s : State) : Answer :=
  match s.time.todDue with
  | some (sec, at_) =>
    if s.time.sleep.isNone then
      let s1 := passTo (at_ + ms 100) s
      .next (emit (.tod (todMessage s1 sec)) { s1 with
        fresh := s1.fresh + 1, time := { s1.time with todDue := none } })
    else .next s
  | none => .next s

/-- A pulse of PPS_IN is taken: within 1 s ± 100 µs of the accepted edge before it, on shadow B, its edge is accepted
and waits for its message; its time is that of the rising edge at the ball, 5 ns before the filter lets it through
(R328, R330, R340, R546). -/
def takeEdge (s : State) : State :=
  let now := s.time.b.shadow.add (-nsUnits 5)
  let s1 := if s.time.edgeAt.isSome then bump (ck 344 19 0) 1 s else s
  let s2 := { s1 with time := { s1.time with edgeAt := none } }
  let inWindow := match s.time.lastEdge with
    | none => true
    | some b => decide (((now.total : Int) - b.total - secUnits).natAbs ≤ 100000 * fracNs)
  if inWindow then
    bump (ck 344 18 0) 1 { s2 with time := { s2.time with
      lastEdge := some now, edgeAt := some (now, s2.now - 5000) } }
  else bump (ck 344 20 0) 1 s2

/-- PPS_IN_EDGE (R340, R546, R547): a pulse of less than 100 ns is ignored and counted; the edge of a longer one
takes effect after the 5 ns filter. -/
def execPpsInEdge (s : State) (width : Nat := 100000) : Answer :=
  if width < 100000 then .next (bump (ck 546 5 0) 1 s) else .next (deglitch 5 0 5000 width takeEdge s)

/-- A ToD message's frame: header, type and length (R339, R340). -/
def todShape (b : Bytes) : Bool :=
  b.length == 16 && byteAt b 0 == 0xA5 && byteAt b 1 == 0x3C && byteAt b 2 == 0x01 && byteAt b 3 == 0x0A

/-- TOD_IN_MESSAGE (R328, R340, R547): it names the edge before it, and makes a sample of domain B; one with a
framing error is discarded and counted. -/
def execTodInMessage (msg : Bytes) (s : State) (framed : Bool := true) : Answer :=
  if !framed then .next (bump (ck 547 16 0) 1 s)
  else if todCrc msg ≠ be msg 14 2 then .next (bump (ck 344 21 0) 1 s)
  else
    match s.time.edgeAt with
    | none => .next s
    | some (edge, at_) =>
      if todShape msg && decide (s.now ≤ at_ + ms 900) then
        let e := ((edge.total : Int) - nsUnits s.time.ppsInDelay - (be msg 4 6 * secUnits : Nat))
          / (5 * 2 ^ 24)
        let s1 := { s with time := { s.time with edgeAt := none } }
        if s.time.sourceB == .pps then
          .next (modServo .b (fun x => { x with pending := some (e, at_) }) s1)
        else .next s1
      else .next s

/-! ### Transmit timestamps (R334, R335) -/

/-- A PTP port that is not the slave port serves the main counter's time (R329; log entry 42). -/
def isMaster (s : State) (p : Nat) : Bool := bit s.time.ptpMask.toNat p && s.time.slave != some p

/-- A host entry delivered to the event ring (R334, R474); of Knarrasar's own, that of a Sync gives its
Follow_Up (R329). -/
def deliverStamp (port : Nat) (e : TsEntry) (s : State) : State :=
  if e.knarrasar then
    if isMaster s port && e.outcome == 0 then injectFrame port { kind := .ptp, ptp := some (.followUp e.time) } s
    else s
  else raiseAt e.time.toNat 0x0705 false port
    (leBytes 2 e.tag ++ leBytes 1 e.outcome ++ leBytes 1 e.reason) s

/-- A lost host tag reported (R335). -/
def deliverLost (port : Nat) (e : Bool × Nat) (s : State) : State :=
  if e.1 then s else raise 0x0706 false port (leBytes 2 e.2) s

/-- TIMESTAMP_DRAIN (R334, R335, R473). -/
def execTimestampDrain (p : Fin 16) (s : State) : Answer :=
  if !servicesRun s then .next s
  else
  let q := tget [] s.time.txStamps p
  let l := tget [] s.time.lostTags p
  let s1 := { s with time := { s.time with
    txStamps := tset [] s.time.txStamps p [], lostTags := tset [] s.time.lostTags p [] } }
  .next (l.foldl (fun s e => deliverLost p e s) (q.foldl (fun s e => deliverStamp p e s) s1))

end Sys2Proof.Machine
end

