-- ==== Sys2Proof/Machine/UpOps.lean ====
section
/-! DEFINITION. Allocations, bursts and sections: what the upstream steps of chapter 3, the
activation steps and the power steps share. -/

namespace Sys2Proof.Machine

open Sys2Proof

/-! ### Allocations (R117) -/

def allocOf (s : State) (id : Nat) : Option Alloc := s.up.allocs.find? (fun a => a.id == id)

def modAlloc (id : Nat) (f : Alloc → Alloc) (s : State) : State :=
  { s with up := { s.up with allocs := s.up.allocs.map (fun a => if a.id = id then f a else a) } }

/-- Counter unit of an allocation on a channel (R130). -/
def allocUnit (id ch : Nat) : Nat := id * 4 + ch

/-- A frame is no longer carried by any section. -/
def purgeFrame (fid : Nat) (s : State) : State :=
  let clean := fun (x : Section) => { x with
    frames := x.frames.filter (fun p => p.fid != fid)
    openFrame := x.openFrame.filter (fun p => p.fid != fid) }
  let one := fun (t : TxChan) => { t with
    bursts := t.bursts.map (fun b => { b with sections := b.sections.map clean }) }
  { s with up := { s.up with tx := s.up.tx.map (fun e => (e.1, one e.2)) } }

/-- A staged packet that is dropped, wherever parts of it are committed already: its cells went back as it left its
queue. -/
def dropStaged (reason : Nat) (p : Pkt) (s : State) : State :=
  dropPacket reason { p with fid := 0 } (purgeFrame p.fid s)

/-- Every staged frame of an allocation discarded with a reason. -/
def flushStaging (reason id : Nat) (s : State) : State :=
  match allocOf s id with
  | none => s
  | some a =>
    a.staging.foldl (fun s f => dropStaged reason f.pkt s)
      (modAlloc id (fun a => { a with staging := [], sent := 0 }) s)

/-- Every staged frame discarded (R452, R481, R483). -/
def flushAllStaging (reason : Nat) (s : State) : State :=
  (s.up.allocs.map (·.id)).foldl (fun s id => flushStaging reason id s) s

/-- A staged frame's epoch has been retired (R121, R155). -/
def staleEpoch (s : State) (f : Staged) : Bool :=
  match f.epoch with
  | none => false
  | some (g, idx, e) => ((groupOf s g).entry idx.toNat).map (·.epoch) != some e

/-- The frames staged under an epoch of a group that is retired are discarded (R155, R296). -/
def dropStale (s : State) : State :=
  s.up.allocs.foldl (fun s a =>
    let gone := a.staging.filter (staleEpoch s)
    let headGone := match a.staging with
      | [] => false
      | f :: _ => staleEpoch s f
    gone.foldl (fun s f => dropStaged 0x51 f.pkt s)
      (modAlloc a.id (fun b => { b with
        staging := b.staging.filter (fun f => !staleEpoch s f)
        sent := if headGone then 0 else b.sent }) s)) s

/-- Staging depth D of the profile in force (R40). -/
def stagingDepth (s : State) : Nat := if s.dev.inForce == .latency then 8192 else 32768

/-- Bytes in an allocation's staging buffer (R119): those committed leave it at their commitment, an instant that the
manual does not give (DESIGN CHOICE, log entry 52). -/
def stagingBytes (a : Alloc) : Nat := total (a.staging.map (·.image.length)) - a.sent

/-! ### Bursts -/

/-- Codeword parity words after I information words (R109). -/
def parityWords (i : Nat) : Nat := 135 * ((i + 674) / 675)

/-- Information words of a burst: the total SIZE of its grants (R107). -/
def Burst.words (b : Burst) : Nat := total (b.grants.map (·.size))

/-- The first preamble bit of a burst (R108). -/
def Burst.firstBit (b : Burst) : Nat := b.hdrBit - 64 - 32 * b.shape.words

/-- The bit time at which its last bit has left (R108). -/
def Burst.endBit (b : Burst) : Nat := b.hdrBit + 32 * (b.words + parityWords b.words)

/-- The span of a burst, in units of 10^-4 bit: from 64 ns before the first preamble bit to 32 ns
after the last bit at 99.5328 Gb/s (R107). -/
def spanOf (b : Burst) : Int × Int :=
  ((b.hdrBit : Int) * 10000 - 320000 * (b.shape.words : Nat) - 640000 - 63700992,
    (b.endBit : Int) * 10000 + 31850496)

/-- Bits on the wire from the first preamble bit to the last parity bit (R130). -/
def wireBits (b : Burst) : Nat := 32 * b.shape.words + 64 + 32 * (b.words + parityWords b.words)

/-- The reasons of R105, by the rows of their counters. -/
inductive MapRefusal where
  | crc | range | profile | channel | size | state | txDisabled | noTiming | conflict
  deriving DecidableEq, Repr

def MapRefusal.row : MapRefusal → Nat
  | .crc => 0 | .range => 1 | .profile => 2 | .channel => 3 | .size => 4 | .state => 5
  | .txDisabled => 6 | .noTiming => 7 | .conflict => 8

/-- A refused grant counted, and booked unless it is a window (R105, R129, R536). Of a window, the bytes are 4 × the
SIZE that its entry carries (log entry 45). -/
def refuseGrant (ch alloc size : Nat) (isWindow : Bool) (r : MapRefusal) (s : State) : State :=
  let s1 := bump (ck 130 (3 + 2 * r.row) ch) (4 * size) (bump (ck 130 (2 + 2 * r.row) ch) 1 s)
  if isWindow then s1 else bump (ck 130 34 (allocUnit alloc ch)) (4 * size) s1

/-! ### Cancelled sections (R102, R129, R160) -/

/-- A frame of a cancelled section is discarded whole: what waits of it in staging as well. -/
def cancelFrame (reason alloc : Nat) (p : Pkt) (s : State) : State :=
  let s1 := modAlloc alloc (fun a =>
    match a.staging with
    | f :: rest => if f.pkt.fid = p.fid ∧ a.sent > 0 then { a with staging := rest, sent := 0 } else a
    | [] => a) s
  dropStaged reason p s1

/-- An executed grant's bytes booked as one unit (R129, R536). -/
def bookExecuted (ch : Nat) (x : Section) (s : State) : State :=
  let u := allocUnit x.grant.alloc ch
  bump (ck 130 24 u) x.idleBytes (bump (ck 130 23 u) x.sentBytes
    (bump (ck 130 22 u) (4 * x.grant.size) s))

/-- The frames a section carries, the one left open among them. -/
def Section.allFrames (x : Section) : List Pkt := x.frames ++ x.openFrame.toList

/-- A committed section is cancelled: booked as executed, its frames discarded (R129). A station message in it is lost
(R102; log entry 45). -/
def cancelSection (ch reason : Nat) (x : Section) (s : State) : State :=
  let s1 := if x.grant.window.isSome then s
    else bump (ck 130 25 (allocUnit x.grant.alloc ch)) x.pfeBytes (bookExecuted ch x s)
  x.allFrames.foldl (fun s p => cancelFrame reason x.grant.alloc p s) s1

/-- Grants of a burst not committed yet. -/
def Burst.uncommitted (b : Burst) : List Grant := b.grants.drop b.sections.length

/-- A grant accepted from a map that is never committed: refused, and of a window nothing is counted (R105, R129). -/
def refuseLate (ch : Nat) (r : MapRefusal) (g : Grant) (s : State) : State :=
  if g.window.isSome then s else refuseGrant ch g.alloc g.size false r s

/-- Cancelling removes a frame from later sections, so each section is read anew. -/
def cancelSections (ch reason : Nat) : Nat → State → State
  | 0, s => s
  | n + 1, s =>
    let t := txOf s ch
    match t.bursts.find? (fun b => !b.launched && !b.sections.isEmpty) with
    | none => s
    | some b =>
      match b.sections with
      | [] => s
      | x :: rest =>
        let drop := fun (t : TxChan) => { t with
          bursts := t.bursts.map (fun c =>
            if c.hdrBit = b.hdrBit ∧ !c.launched then
              { c with sections := rest, grants := c.grants.drop 1 } else c) }
        cancelSections ch reason n (cancelSection ch reason x (modTx ch drop s))

/-- Every committed section of a channel that has not launched is cancelled, and the grants not yet
committed are refused; a burst in progress completes (R102, R160). -/
def cancelChannel (ch reason : Nat) (why : MapRefusal) (s : State) : State :=
  let n := total ((txOf s ch).bursts.map (·.sections.length))
  let s1 := cancelSections ch reason n s
  let gone := (txOf s1 ch).bursts.filter (fun b => !b.launched)
  let s2 := modTx ch (fun t => { t with bursts := t.bursts.filter (·.launched) }) s1
  (gone.flatMap (·.grants)).foldl (fun s g => refuseLate ch why g s) s2

/-- What a reset makes of the grants that are pending: a committed section counts as executed, one that has not
launched as cancelled too, and the other grants as refused (R129, R536; log entry 45). -/
def settleGrants (s : State) : State :=
  forEach (List.range 4) (fun ch s =>
    (txOf s ch).bursts.foldl (fun s b =>
      let s1 := b.sections.foldl (fun s x =>
        if x.grant.window.isSome then s
        else if b.launched then bookExecuted ch x s
        else bump (ck 130 25 (allocUnit x.grant.alloc ch)) x.pfeBytes (bookExecuted ch x s)) s
      b.uncommitted.foldl (fun s g => refuseLate ch .state g s) s1) s) s

/-! ### The BEN pins (R127, R576, R579) -/

/-- The BEN pin of a channel: asserted at the level that the host has set; at high impedance until the device is in
STANDBY and that level has been applied, and while the optic bank is isolated. -/
def benPin (s : State) (ch : Nat) : Option Bool :=
  if s.sup.vioLow || s.dev.state == .cold || s.dev.state == .loading || !(actOf s ch).benSet then none
  else some ((txOf s ch).ben != (actOf s ch).benLow)

/-- The BEN pins that differ from those of a state before are shown. -/
def showPins (old s : State) : State :=
  forEach (List.range 4) (fun c u => if benPin s c = benPin old c then u else emit (.ben c (benPin s c)) u) s

/-- A change of state that may move the BEN pin of a channel. -/
def movePin (ch : Nat) (f : State → State) (s : State) : State :=
  if benPin (f s) ch = benPin s ch then f s else emit (.ben ch (benPin (f s) ch)) (f s)

/-! ### Station messages (R138, R139) -/

/-- The terminal's serial number (R131). -/
def serialBytes : Bytes := beBytes 4 0x524E534B ++ beBytes 4 Config.deviceNumber.toNat

/-- The group a channel belongs to; a channel in none stands alone as 4 + channel (R150). -/
def groupIdOf (s : State) (ch : Nat) : Nat :=
  ((List.range 4).find? (fun g => bit (groupOf s g).mask.toNat ch)).getD (4 + ch)

/-- The message key of a group for a direction, root bank and epoch (R139). -/
def messageKey (s : State) (g dir epoch : Nat) (pending : Bool) : BitVec 256 :=
  derivedKey (rootOf s (if pending then 4 + g else g)) dir 0xFFFF epoch

/-- The keyed MIC over a message's first 40 bytes (R139). -/
def keyedMic (key : BitVec 256) (sfc : Nat) (body : Bytes) : Bytes :=
  (tagBytes (Config.aesCmac key (beBytes 8 sfc ++ body))).take 8

/-- The MIC without a key (R139). -/
def plainMic (body : Bytes) : Bytes := zeros 4 ++ beBytes 4 (crc32c body).toNat

/-- The epoch under which messages of upstream frame K go, and whether its root is in the pending bank; none
without a root. A switch applies from S on (R155), also the first one; once it has come to S, what a pending
root replaced stands in the pending bank. -/
def upEpoch (s : State) (g k : Nat) : Option (Nat × Bool) :=
  let x := groupOf s g
  match x.switch with
  | some w =>
    if k ≥ w.sfc then some (w.epoch, w.fromPending && !w.applied)
    else w.old.map (fun e => (e, w.fromPending && w.applied))
  | none => if x.curRoot then some (x.epoch, false) else none

/-- The epoch of a message to be sent to or from a station; none for one that goes without a key (R139). -/
def sealEpoch (s : State) (g stationId k : Nat) : Option (Nat × Bool) :=
  if stationId = 0x3FF then none else upEpoch s g k

/-- Bytes 0 to 39 of an upstream message (R138). -/
def messageBody (m : TxMsg) (stationId : Nat) : Bytes :=
  beBytes 2 (stationId * 64) ++ [m.typ, m.seq] ++ fit 36 m.content

/-- An upstream message as sent in a burst of upstream frame K (R138, R139). -/
def sealMessage (s : State) (m : TxMsg) (stationId k : Nat) : Bytes :=
  let body := messageBody m stationId
  match sealEpoch s m.group stationId k with
  | some e => body ++ keyedMic (messageKey s m.group 1 e.1 e.2) k body
  | none => body ++ plainMic body

/-- A message sealed: Hive has its MIC computed as bulk work (R139, R284; log entry 41). -/
def sealNow (m : TxMsg) (stationId k : Nat) (s : State) : Bytes × State :=
  (sealMessage s m stationId k,
    match sealEpoch s m.group stationId k with
    | some e => offerMic m.group 1 e.1 k (messageBody m stationId) s
    | none => s)

/-- The next upstream SEQ of a channel group (R138). -/
def nextSeq (g : Nat) (s : State) : Byte × State :=
  ((groupOf s g).txSeq, modGroup g (fun g => { g with txSeq := g.txSeq + 1 }) s)

/-- A new message with its SEQ, which it takes as it is queued and has used even where the full queue then discards it;
a SERIAL takes its own as it is committed (R138, R142; DESIGN CHOICE, log entries 45 and 52). -/
def newMessage (typ g : Nat) (content : Bytes) (s : State) : TxMsg × State :=
  let (q, s1) := nextSeq g s
  ({ typ := BitVec.ofNat 8 typ, seq := q, group := g, content := content }, s1)

/-- A message put into the queue of 16, or discarded and counted against a channel (R114, R142). -/
def putMessage (ch : Nat) (m : TxMsg) (s : State) : State :=
  if s.fib.txMsgs.length ≥ 16 then bump (ck 166 6 ch) 1 s
  else { s with fib := { s.fib with txMsgs := s.fib.txMsgs ++ [m] } }

/-- A new message queued. -/
def queueMessage (typ g ch : Nat) (content : Bytes) (s : State) : State :=
  let (m, s1) := newMessage typ g content s
  putMessage ch m s1

/-- CHANNEL_STATE (R144): usable and changed channels and a reason for each. -/
def channelReason (s : State) (ch : Nat) : Nat :=
  let x := rxOf s ch
  let l := laneOf s (16 + ch)
  if (actOf s ch).act == .f5 && (actOf s ch).withdrawn.isNone then 0
  else if l.los then 1
  else if l.lol then 2
  else if hasDefect x 1 || x.delin != .sync then 3
  else if hasDefect x 6 then 4
  else if (actOf s ch).txFault then 5
  else 6

def usableMask (s : State) : Nat := maskOf ((List.range 4).filter (fun c => channelReason s c == 0))

/-- A channel belongs to the bonded group, or did until it was withdrawn. -/
def bonded (s : State) (c : Nat) : Bool := bit s.fib.bond.members.toNat c || (actOf s c).wasMember

/-- Channels of a channel's group: the host's group, else the bonded group, else the channel alone
(R150, R160). -/
def groupMates (s : State) (ch : Nat) : List Nat :=
  let g := groupIdOf s ch
  if g < 4 then setBits 4 (groupOf s g).mask.toNat
  else if bonded s ch then (List.range 4).filter (bonded s)
  else [ch]

/-- CHANNEL_STATE queued for a channel of the group that is in F5 and not withdrawn (R160, R161); the
channel that is withdrawn or restored counts as changed (R144; log entry 31). -/
def queueChannelState (ch : Nat) (s : State) : State :=
  if (groupMates s ch).any (fun c => (actOf s c).act == .f5 && (actOf s c).withdrawn.isNone) then
    let now := usableMask s
    let changed := setBit (Nat.xor now s.fib.lastUsable.toNat) ch true
    let content := beBytes 1 now ++ beBytes 1 changed
      ++ (List.range 4).map (fun c => BitVec.ofNat 8 (channelReason s c))
    queueMessage 0x47 (groupIdOf s ch) ch content
      { s with fib := { s.fib with lastUsable := BitVec.ofNat 4 now } }
  else s

end Sys2Proof.Machine
end

