-- ==== Sys2Proof/Machine/ActOps.lean ====
section
/-! DEFINITION. Activation transitions (R133), the end of groups and allocations (R136, R154), and
withdrawal (R160): what the activation, device and power steps share. -/

namespace Sys2Proof.Machine

open Sys2Proof

/-- Activation state codes (R131). -/
def Act.code : Act → Nat
  | .f0 => 0 | .f1 => 1 | .f2 => 2 | .f3 => 3 | .f4 => 4 | .f5 => 5 | .f6 => 6 | .f7 => 7

/-- A channel in F5 or F6. -/
def operating (s : State) (ch : Nat) : Bool :=
  (actOf s ch).act == .f5 || (actOf s ch).act == .f6

/-! ### Roots, allocations -/

/-- A group's roots zeroed; the kept messages and responses go, the epochs with them (R143, R154). -/
def zeroGroup (g : Nat) (s : State) : State :=
  let s1 := forgetGroup g (restartCounters g 1 (restartCounters g 2 s))
  let s2 := setRoot g 0 (setRoot (4 + g) 0 s1)
  modGroup g (fun x => { x with
    curRoot := false, pendRoot := false, heldRoot := none, epoch := 0, entry1 := none, entry2 := none, retired := none, upIndex := 0
    switch := none, repeats := [], segs := [], segFirst := none }) s2

/-- A channel outside every group keeps no message once it leaves F5 and F6 (R143). -/
def endLone (ch : Nat) (s : State) : State :=
  if operating s ch then s else modGroup (4 + ch) (fun x => { x with repeats := [] }) s

/-- Groups no channel of which remains in F5 or F6 lose their roots and their exchange (R153, R154). -/
def endGroups (s : State) : State :=
  forEach (List.range 4) (fun g s =>
    if (setBits 4 (groupOf s g).mask.toNat).any (operating s) then s else zeroGroup g s)
    (forEach (List.range 4) endLone s)

/-- An allocation is discarded; its staged and queued frames go as UP_NO_ALLOC (R145). -/
def discardAlloc (id : Nat) (s : State) : State :=
  match allocOf s id with
  | none => s
  | some a =>
    let s1 := flushStaging 0x50 id s
    let s2 := (a.list.map (fun e => 128 + e.queue)).foldl (fun s q => flushQueue 0x50 q s) s1
    { s2 with up := { s2.up with
      storedLists := tset none s2.up.storedLists id (if a.list.isEmpty then none else some a.list)
      allocs := s2.up.allocs.filter (fun a => a.id != id) } }

/-- Every allocation is discarded when no channel remains in F5 or F6 (R136). -/
def endAllocs (s : State) : State :=
  if (List.range 4).any (operating s) then s
  else (s.up.allocs.map (·.id)).foldl (fun s id => discardAlloc id s) s

/-! ### Transitions (R133, R135) -/

/-- A transition with its event and count; the cause is the row of R133. -/
def moveAct (ch : Nat) (goal : Act) (cause : Nat) (f : ActChan → ActChan) (s : State) : State :=
  let old := (actOf s ch).act
  let s1 := modAct ch (fun x => { f x with act := goal }) s
  let s2 := bump (ck 166 (9 + cause) ch) 1 (raise 0x0204 false ch
    (leBytes 1 old.code ++ leBytes 1 goal.code ++ leBytes 1 cause) s1)
  endAllocs (endGroups (clocksMayRun s2))

/-- The activation service runs (R473): not in SAFE (R165), and it is frozen in D3 (R483). -/
def actsRun (s : State) : Bool := inService s && s.pow.state != .d3

/-- A channel in F1, in SYNC, with a burst profile and the ranging parameters, moves on (R133). -/
def checkProfiled (ch : Nat) (s : State) : State :=
  let x := actOf s ch
  if actsRun s && x.act == .f1 && (rxOf s ch).delin == .sync && !x.profiles.isEmpty
      && x.preEqd.isSome then
    moveAct ch .f2 4 id s
  else s

/-- What a channel loses with its station ID. -/
def loseStation (x : ActChan) : ActChan :=
  { x with stationId := none, eqd := none, eqdOld := none, rangingEnd := none, f6End := none }

/-- The host activates a channel in F0 (R133). -/
def lightUp (ch : Nat) (s : State) : State :=
  if (actOf s ch).act == .f0 then
    if (actOf s ch).silenced then moveAct ch .f7 3 id s
    else checkProfiled ch (moveAct ch .f1 2 id s)
  else s

/-- Delineation reaches SYNC (R133). -/
def actEnterSync (ch : Nat) (s : State) : State :=
  if !actsRun s then s
  else match (actOf s ch).act with
    | .f1 => checkProfiled ch s
    | .f6 => moveAct ch .f5 13 (fun x => { x with f6End := none }) s
    | _ => s

/-- Delineation leaves SYNC (R133). -/
def actLeaveSync (ch : Nat) (s : State) : State :=
  if !actsRun s then s
  else match (actOf s ch).act with
    | .f2 | .f3 | .f4 => moveAct ch .f1 9 loseStation s
    | .f5 => moveAct ch .f6 12 (fun x => { x with f6End := some (s.now + ms 100) }) s
    | _ => s

/-- A channel unit in HUNT with all slots empty, delivering nothing (R52, R102). -/
def hunting (x : RxChan) : RxChan :=
  { x with
    delin := .hunt, slots := [], misses := 0, mismatch := none, inFrame := false, regionLeft := 0
    region := [], badWords := [], floorNow := none, trx := none }

/-- A channel unit returns to HUNT; the frame then open is discarded (R52, R83),
the sections that have not launched are cancelled (R102), the bonding unit goes on without it. -/
def leaveSync (ch : Nat) (s : State) : State :=
  let was := (rxOf s ch).delin
  let s1 := bump (ck 97 2 ch) 1 (modRx ch hunting s)
  if was == .sync then
    let s2 := dropOpen ch 0x12 (modRx ch (fun x => { x with arrivals := [], skew := 0 }) (setDefect ch 1 true s1))
    let s3 := cancelChannel ch 0x52 .noTiming s2
    bondRelease (actLeaveSync ch s3)
  else noteSync ch s1

/-- Delineation of a channel stops, with what it held (R132). -/
def stopRx (ch : Nat) (s : State) : State :=
  if (rxOf s ch).delin == .hunt then modRx ch hunting s else leaveSync ch s

/-- A channel moves to F0: everything held goes but the silenced flag, and nothing is processed (R132, R133). -/
def goDark (ch : Nat) (s : State) : State :=
  if (actOf s ch).act == .f0 then s
  else
    let s1 := cancelChannel ch 0x52 .state s
    stopRx ch (moveAct ch .f0 1 (fun x => { loseStation x with
      profiles := [], preEqd := none, randSteps := 1 }) s1)

/-! ### Transmitter and withdrawal (R127, R160) -/

/-- The transmitter is enabled: the host's setting, unless the channel is withdrawn (R160). -/
def txWanted (x : ActChan) : Bool := x.txEnable && x.withdrawn.isNone

/-- The transmitter follows its enables; the frames of what is not yet committed stay staged. -/
def syncTx (ch : Nat) (s : State) : State := modAct ch (fun x => { x with txOn := txWanted x }) s

/-- A cause of R443 for channels withdrawn or switched and not restored. -/
def noteWithdrawn (s : State) : State :=
  setCause 0 ((List.range 4).any (fun c => (actOf s c).withdrawn.isSome)) s

/-- A channel is withdrawn (R160): out of the group, transmitter off, sections cancelled,
CHANNEL_STATE queued, the event raised. -/
def withdraw (ch : Nat) (t : Trigger) (code : Nat) (s : State) : State :=
  let member := bit s.fib.bond.members.toNat ch
  let s1 := modAct ch (fun x => { x with
    withdrawn := some t, switched := code == 2, wasMember := member }) (removeMember ch s)
  let s2 := cancelChannel ch 0x52 .txDisabled (syncTx ch s1)
  let s3 := queueChannelState ch s2
  noteWithdrawn (bump (ck 166 37 ch) 1 (raise 0x0209 false ch
    (leBytes 1 code ++ leBytes 1 (trigRow t)) s3))

/-- The working channel is withdrawn and its allocations go to the standby channel (R160). -/
def switchOver (ch : Nat) (t : Trigger) (s : State) : State :=
  let s1 := withdraw ch t 2 s
  match s1.fib.bond.standby with
  | none => s1
  | some sb =>
    { s1 with up := { s1.up with
      allocs := s1.up.allocs.map (fun a =>
        if a.binding = some ch then { a with binding := some sb } else a) } }

end Sys2Proof.Machine
end

