-- ==== Sys2Proof/Machine/BurstOps.lean ====
section
/-! DEFINITION. Bandwidth-map processing (R103 to R107), the contents of a section (R114 to R126),
and the launch and end of a burst (R127, R129). -/

namespace Sys2Proof.Machine

open Sys2Proof

/-! ### Fields of a map entry (R103) -/

def mapAlloc (w : Word64) : Nat := fld w.toNat 50 14
def mapStart (w : Word64) : Nat := fld w.toNat 31 19
def mapSize (w : Word64) : Nat := fld w.toNat 12 19
def mapProfile (w : Word64) : Nat := fld w.toNat 10 2
def mapReport (w : Word64) : Bool := w.getLsbD 9
def mapSmsg (w : Word64) : Bool := w.getLsbD 8
def mapRanging (w : Word64) : Bool := w.getLsbD 7
def mapCrcOk (w : Word64) : Bool := mapCrc w.toNat == fld w.toNat 0 7

/-! ### Which entries are own (R104, R146) -/

/-- The channel answers serial-number windows. -/
def answersSerial (s : State) (ch : Nat) : Bool :=
  (actOf s ch).act == .f2 || (actOf s ch).act == .f3

/-- The channel answers ranging windows to its station ID. -/
def answersRanging (s : State) (ch : Nat) : Bool :=
  (actOf s ch).act == .f4 || (actOf s ch).act == .f5

/-- A window that the terminal answers in the channel's state. -/
def ownWindow (s : State) (ch : Nat) (w : Word64) : Bool :=
  mapRanging w
    && ((mapAlloc w == 0x3FFF && answersSerial s ch)
      || (answersRanging s ch && (actOf s ch).stationId.map (·.toNat) == some (mapAlloc w)))

/-- A grant to one of the terminal's allocations. -/
def ownGrant (s : State) (w : Word64) : Bool := !mapRanging w && (allocOf s (mapAlloc w)).isSome

/-- Entries put in ascending START, equal ones in map order. -/
def insertStart (w : Word64) : List Word64 → List Word64
  | [] => [w]
  | x :: l => if mapStart w < mapStart x then w :: x :: l else x :: insertStart w l

def sortStart (l : List Word64) : List Word64 := l.foldl (fun acc w => insertStart w acc) []

/-! ### The checks of R105 -/

/-- Grants for upstream frame k are refused for the power state: D2 or D3, or their entry (R481, R483). -/
def grantsRefused (s : State) (k : Nat) : Bool :=
  s.pow.state == .d2 || s.pow.state == .d3 || s.pow.phase == .enteringD3
    || (s.fib.doze.phase == .scheduled && decide (s.fib.doze.start ≤ k))

/-- The channel is in F5 with a usable delay for upstream frame k, and nothing stops its grants. -/
def grantState (s : State) (ch k : Nat) : Bool :=
  let x := actOf s ch
  x.act == .f5 && !(x.eqdOld.isNone && decide (k < x.eqdFrom)) && s.dev.state != .safe
    && !grantsRefused s k

/-- EqD in force for upstream frame k (R148). -/
def eqdAt (s : State) (ch k : Nat) : Nat :=
  let x := actOf s ch
  if k < x.eqdFrom then x.eqdOld.getD 0 else x.eqd.getD 0

/-- Mandatory information words of a section (R110). -/
def mandatoryWords (first report smsg : Bool) : Nat := 2 * b2n first + b2n report + 12 * b2n smsg

/-- The continuation word of a burst (R107). -/
def continuation (b : Burst) : Option Nat :=
  b.grants.head?.map (fun g => g.start + b.words + 135 * (b.words / 675))

/-- The own burst of this map that a grant continues. -/
def continues (s : State) (ch k profile start : Nat) : Option Burst :=
  match (txOf s ch).bursts.getLast? with
  | some b =>
    if b.k = k ∧ b.profile = profile ∧ continuation b = some start
      ∧ (b.grants.all (fun g => g.window.isNone)) then some b else none
  | none => none

/-- Two spans overlap. -/
def overlap (a b : Int × Int) : Bool := decide (a.1 < b.2) && decide (b.1 < a.2)

/-- A new burst's span, extended by 32 ns on each side, overlaps an earlier own burst's (R107). -/
def conflicts (s : State) (ch : Nat) (new : Burst) : Bool :=
  let x := spanOf new
  (txOf s ch).bursts.any (fun b => overlap (x.1 - 31850496, x.2 + 31850496) (spanOf b))

/-- The bit time of a burst's first header bit in the upstream frame that the map of the frame in progress governs
(R98 to R100, R147). -/
def hdrBitAt (s : State) (ch delay start n : Nat) : Nat :=
  (rxOf s ch).trx.getD 0 + 12441600 + delay + 32 * (start + 32 * n)

/-- A grant or an answered window as it waits for its commit. -/
def grantOf (w : Word64) (k : Nat) (window : Option Nat) : Grant :=
  { alloc := mapAlloc w, start := mapStart w
    size := if window.isSome then 14 else mapSize w
    profile := mapProfile w, report := window.isNone && mapReport w
    smsg := window.isNone && mapSmsg w, k := k, window := window }

/-- A new burst with one grant, in a profile as held when the map is processed (R107, R112; log entry 45). -/
def newBurst (s : State) (ch : Nat) (g : Grant) (hdrBit : Nat) : Burst :=
  { k := g.k, profile := g.profile
    shape := (tget none (actOf s ch).profiles g.profile).getD { words := 0, pattern := 0, delim := 0 }
    hdrBit := hdrBit, sections := [], grants := [g], launched := false, header := 0, stationId := 0 }

/-- The burst that a grant opens. -/
def openedBurst (s : State) (ch k : Nat) (w : Word64) : Burst :=
  newBurst s ch (grantOf w k none) (hdrBitAt s ch (eqdAt s ch k) (mapStart w) 0)

/-- The first reason of R105 that refuses an own grant of upstream frame k. A SIZE of 0, below R103's minimum, is
refused as too small also where nothing is mandatory: R105 names no reason for it (DESIGN CHOICE, log entry 52). -/
def grantRefusal (s : State) (ch k : Nat) (w : Word64) : Option MapRefusal :=
  let cont := continues s ch k (mapProfile w) (mapStart w)
  if !mapCrcOk w then some .crc
  else if mapStart w > 388799 then some .range
  else if (tget none (actOf s ch).profiles (mapProfile w)).isNone then some .profile
  else if (match allocOf s (mapAlloc w) with
      | some a => (match a.binding with
        | some c => c != ch
        | none => !bit s.fib.bond.members.toNat ch)
      | none => true) then some .channel
  else if mapSize w < max 1 (mandatoryWords cont.isNone (mapReport w) (mapSmsg w)) then some .size
  else if !grantState s ch k then some .state
  else if !(actOf s ch).txOn then some .txDisabled
  else if (rxOf s ch).delin != .sync then some .noTiming
  else if cont.isNone && conflicts s ch (openedBurst s ch k w) then some .conflict
  else none

/-- A burst put last on its channel. -/
def addBurst (ch : Nat) (b : Burst) (s : State) : State :=
  modTx ch (fun t => { t with bursts := t.bursts ++ [b] }) s

/-- An own grant checked, and put into a burst (R105, R107). -/
def takeGrant (ch k : Nat) (w : Word64) (s : State) : State :=
  let s1 := bump (ck 130 33 (allocUnit (mapAlloc w) ch)) (4 * mapSize w)
    (bump (ck 130 1 ch) (4 * mapSize w) (bump (ck 130 0 ch) 1 s))
  match grantRefusal s1 ch k w with
  | some r => refuseGrant ch (mapAlloc w) (mapSize w) false r s1
  | none =>
    match continues s1 ch k (mapProfile w) (mapStart w) with
    | some b =>
      modTx ch (fun t => { t with
        bursts := t.bursts.dropLast ++ [{ b with grants := b.grants ++ [grantOf w k none] }] }) s1
    | none => addBurst ch (openedBurst s1 ch k w) s1

/-- The transmitter serves windows: also on a withdrawn channel on its way back to F5 (R127, R133, R161;
log entry 38). -/
def answersOn (x : ActChan) : Bool :=
  x.txOn || (x.txEnable && (x.act == .f2 || x.act == .f3 || x.act == .f4))

/-- Upstream frame k has no usable delay: the one after the frame whose RANGING_TIME led to F5 (R148). -/
def noDelay (x : ActChan) (k : Nat) : Bool :=
  x.act == .f5 && x.eqdOld.isNone && decide (k + 1 = x.eqdFrom)

/-- The terminal can transmit a window answer of upstream frame k (R102, R127, R148, R157, R165). -/
def canAnswer (s : State) (ch k : Nat) : Bool :=
  answersOn (actOf s ch) && (rxOf s ch).delin == .sync && s.dev.state != .safe && !grantsRefused s k

/-- A serial-number window of upstream frame k is answered already (R147). -/
def answeredSerial (s : State) (ch k : Nat) : Bool :=
  (txOf s ch).bursts.any (fun b => b.k == k && b.grants.any (fun g => g.window.isSome && g.alloc == 0x3FFF))

/-- An own window (R105, R134, R146 to R148): the answer's burst, with a random delay in a serial-number window. One
whose profile is not held is refused in F5 and elsewhere not answered. -/
def takeWindow (ch k : Nat) (w : Word64) (s : State) : State :=
  let x := actOf s ch
  if !mapCrcOk w then refuseGrant ch (mapAlloc w) (mapSize w) true .crc s
  else if (List.range 4).all (fun p => (tget none x.profiles p).isNone) then
    if x.act == .f5 then refuseGrant ch (mapAlloc w) (mapSize w) true .profile s else s
  else if (tget none x.profiles (mapProfile w)).isNone then s
  else if noDelay x k then refuseGrant ch (mapAlloc w) (mapSize w) true .state s
  else if !canAnswer s ch k then s
  else if mapAlloc w = 0x3FFF then
    if answeredSerial s ch k then s
    else
      let (v, s1) := takeFree s
      let n := v % max 1 x.randSteps
      addBurst ch (newBurst s ch (grantOf w k (some n)) (hdrBitAt s ch (x.preEqd.getD 0) (mapStart w) n)) s1
  else
    let e := if x.act == .f5 then eqdAt s ch k else x.preEqd.getD 0
    addBurst ch (newBurst s ch (grantOf w k (some 0)) (hdrBitAt s ch e (mapStart w) 0)) s

/-- The bandwidth map of downstream frame k − 1 on a channel (R98, R105). -/
def processMap (ch k : Nat) (map : List Word64) (s : State) : State :=
  (sortStart map).foldl (fun s w =>
    if ownWindow s ch w then takeWindow ch k w s
    else if ownGrant s w then takeGrant ch k w s
    else s) s

/-! ### Section contents (R114 to R126) -/

/-- A PFE header from its fields (R74). -/
def pfeHeader (len portId : Nat) (first last : Bool) (key : Nat) : Bytes :=
  beBytes 8 (hecWord (len * 2 ^ 37 + portId * 2 ^ 21 + b2n first * 2 ^ 20 + b2n last * 2 ^ 19
    + key * 2 ^ 17))

/-- A GSN word (R75). -/
def gsnWord (g : Nat) : Bytes :=
  let w := g * 2 ^ 12
  beBytes 4 (w + gsnCrc w)

/-- Idle fill of r bytes (R116); a run needs at most one turn for each 8 bytes. -/
def idleFill : Nat → Nat → Bytes
  | 0, r => zeros r
  | n + 1, r =>
    if r ≥ 8 then
      let len := min (r - 8) 16380
      pfeHeader len 0xFFFF false false 0 ++ zeros len ++ idleFill n (r - 8 - len)
    else zeros r

/-- Bytes padded to whole words (R76). -/
def padWord (b : Bytes) : Bytes := b ++ zeros ((4 - b.length % 4) % 4)

/-- A section while it is being filled. -/
structure Fill where
  room : Nat
  bytes : Bytes
  frames : List Pkt
  openFrame : Option Pkt
  fragments : Nat
  wholes : Nat
  notReady : Bool

/-- The overhead of a PFE frame: 8 + G (R121). -/
def pfeOver (bonded : Bool) : Nat := if bonded then 12 else 8

/-- One PFE frame emitted: its header, GSN word and payload (R115, R123). -/
def emitPfe (f : Staged) (bonded first last : Bool) (payload : Bytes) (s : State) : Bytes × State :=
  let key := match f.epoch with
    | some (_, idx, _) => idx.toNat
    | none => 0
  let head := pfeHeader payload.length f.portId.toNat first last key
  if bonded then
    (head ++ gsnWord s.up.gsn ++ padWord payload,
      { s with up := { s.up with gsn := (s.up.gsn + 1) % 2 ^ 20 } })
  else (head ++ padWord payload, s)

/-- The loop of R121: one turn handles one staged frame. -/
def fillSection (id : Nat) (bonded : Bool) : Nat → Fill → State → Fill × State
  | 0, x, s => (x, s)
  | n + 1, x, s =>
    match allocOf s id with
    | none => (x, s)
    | some a =>
      match a.staging with
      | [] => (x, s)
      | f :: rest =>
        if x.room < 8 then (x, s)
        else if !f.ready then ({ x with notReady := true }, s)
        else if staleEpoch s f then
          fillSection id bonded n x
            (dropStaged 0x51 f.pkt (modAlloc id (fun a => { a with staging := rest, sent := 0 }) s))
        else if f.pkt.bad then
          fillSection id bonded n x
            (cancelFrame 0x4A id f.pkt (modAlloc id (fun a => { a with staging := rest, sent := 0 }) s))
        else
          let rem := f.image.length - a.sent
          let first := a.sent == 0
          let need := pfeOver bonded + 4 * ((rem + 3) / 4)
          if need ≤ x.room then
            let (b, s1) := emitPfe f bonded first true (f.image.drop a.sent) s
            fillSection id bonded n
              { x with room := x.room - need, bytes := x.bytes ++ b, frames := x.frames ++ [f.pkt]
                       wholes := x.wholes + b2n first }
              (modAlloc id (fun a => { a with staging := rest, sent := 0 }) s1)
          else if x.room ≥ pfeOver bonded + 32 then
            let k := x.room - pfeOver bonded
            let (b, s1) := emitPfe f bonded first false ((f.image.drop a.sent).take k) s
            ({ x with room := 0, bytes := x.bytes ++ b, openFrame := some f.pkt
                      fragments := x.fragments + 1 },
              modAlloc id (fun a => { a with sent := a.sent + k }) s1)
          else (x, s)

/-- Wire bytes of an unfragmented frame (R126). -/
def reportBytes (bonded : Bool) (rem : Nat) : Nat := pfeOver bonded + 4 * ((rem + 3) / 4)

/-- The frames R126 counts: remaining bytes, green, and whether it is staged and ready. -/
def reportFrames (s : State) (a : Alloc) : List (Nat × Bool × Bool) :=
  let staged := a.staging.zipIdx.map (fun e =>
    (e.1.image.length - (if e.2 = 0 then a.sent else 0), e.1.pkt.colour == .green, e.1.ready))
  let queued := a.list.flatMap (fun e =>
    (queueOf s (128 + e.queue)).pkts.map (fun c =>
      (c.pkt.frame.length + 16 * b2n (tget {} s.up.queues e.queue).keyed,
        c.pkt.colour == .green, false)))
  staged ++ queued

/-- The waggle field (R125, R126). -/
def waggle (s : State) (id : Nat) : Nat :=
  match allocOf s id with
  | none => 0
  | some a =>
    let l := reportFrames s a
    let q := total (l.map (fun e => reportBytes a.binding.isNone e.1))
    let gr := total ((l.filter (fun e => e.2.1)).map (fun e => reportBytes a.binding.isNone e.1))
    let queued := min ((q + 63) / 64) 0xFFFFFF
    let green := if q = 0 then 0 else 100 * gr / q
    let ready := l.all (fun e => e.2.2) || decide (stagingBytes a ≥ stagingDepth s)
    queued * 256 + 128 * b2n ready + green

/-- The station message of a section: the oldest waiting, or NO_MESSAGE (R114). -/
def takeMessage (ch stationId k : Nat) (s : State) : Bytes × Bool × State :=
  match s.fib.txMsgs with
  | m :: rest =>
    let (b, s1) := sealNow m stationId k s
    (b, true, { s1 with fib := { s1.fib with txMsgs := rest } })
  | [] =>
    let (m, s1) := newMessage 0x40 (groupIdOf s ch) [] s
    let (b, s2) := sealNow m stationId k s1
    (b, false, s2)

/-- Frames staged for an allocation. -/
def stagedFrames (s : State) (id : Nat) : Nat :=
  match allocOf s id with
  | some a => a.staging.length
  | none => 0

/-- A section's contents fixed at its commit (R114, R121, R126); the binding that the map's checks found is not checked
again (log entry 45). -/
def commitGrant (ch : Nat) (first : Bool) (stationId k : Nat) (g : Grant) (s : State) :
    Section × State :=
  let bonded := match allocOf s g.alloc with
    | some a => a.binding.isNone
    | none => false
  let (msg, sent, s1) := if g.smsg then takeMessage ch stationId k s else ([], false, s)
  let room := 4 * g.size - 4 * mandatoryWords first g.report g.smsg
  let (x, s2) := fillSection g.alloc bonded (room / 8 + stagedFrames s g.alloc + 1)
    { room := room, bytes := [], frames := [], openFrame := none, fragments := 0, wholes := 0
      notReady := false } s1
  let w := if g.report then beBytes 4 (waggle s2 g.alloc) else []
  let sec : Section := {
    grant := g, bytes := w ++ msg ++ x.bytes ++ idleFill (x.room / 8 + 1) x.room
    sentBytes := 4 * g.size - x.room, idleBytes := x.room, pfeBytes := x.bytes.length
    frames := x.frames, openFrame := x.openFrame, fragments := x.fragments, wholes := x.wholes
    messages := b2n (g.smsg && sent), noMessages := b2n (g.smsg && !sent)
    gsnFloor := if bit s2.fib.bond.members.toNat ch then s2.up.gsn else 0 }
  (sec, if x.notReady then bump (ck 130 31 g.alloc) 1 s2 else s2)

/-- A window answer's SERIAL message (R147). -/
def windowSection (ch : Nat) (stationId k : Nat) (g : Grant) (s : State) : Section × State :=
  let synced := maskOf ((List.range 4).filter (fun c => (rxOf s c).delin == .sync))
  let content := serialBytes ++ beBytes 2 (g.window.getD 0) ++ beBytes 1 synced ++ beBytes 2 0x7440
  let (m, s0) := newMessage 0x41 (groupIdOf s ch) content s
  let (b, s1) := sealNow m stationId k s0
  ({ grant := g, bytes := b, sentBytes := 0, idleBytes := 0, pfeBytes := 0
     frames := [], openFrame := none, fragments := 0, wholes := 0, messages := 0, noMessages := 0
     gsnFloor := 0 }, s1)

/-- The bit time of the first information word of section number n of a burst (R108). -/
def sectionBit (b : Burst) (n : Nat) : Nat :=
  let i := total ((b.grants.take n).map (·.size))
  b.hdrBit + 32 * (i + 135 * (i / 675))

/-- The bit time of a burst's next section, whose commit comes 4 µs before it (R121). -/
def dueBit (b : Burst) : Nat := sectionBit b b.sections.length

/-- The grant whose commit comes next on a channel, with its burst. -/
def nextCommit (s : State) (ch : Nat) : Option (Burst × Grant) :=
  (txOf s ch).bursts.foldl (fun m b =>
    match b.uncommitted.head? with
    | none => m
    | some g =>
      match m with
      | some (c, _) => if dueBit b < dueBit c then some (b, g) else m
      | none => some (b, g)) none

/-- Why a grant can no longer be committed, the binding apart: also in a burst that is in progress, so that it is cut
short, and for an allocation discarded since its map (R102, R121, R127; log entry 45). -/
def commitRefusal (s : State) (ch : Nat) (g : Grant) : Option MapRefusal :=
  if g.window.isSome then
    (if !noDelay (actOf s ch) g.k && canAnswer s ch g.k
        && (if g.alloc = 0x3FFF then answersSerial s ch else answersRanging s ch) then none
     else some .state)
  else if (allocOf s g.alloc).isNone || !grantState s ch g.k then some .state
  else if !(actOf s ch).txOn then some .txDisabled
  else if (rxOf s ch).delin != .sync then some .noTiming
  else none

/-- A burst changed in place. -/
def modBurst (ch hdrBit : Nat) (f : Burst → Burst) (s : State) : State :=
  modTx ch (fun t => { t with
    bursts := t.bursts.map (fun b => if b.hdrBit = hdrBit then f b else b) }) s

/-- The grants of a burst not committed yet are refused, so that it ends with its last committed section; a burst
without any goes (log entry 45). -/
def refuseRest (ch : Nat) (b : Burst) (r : MapRefusal) (s : State) : State :=
  let s1 := b.uncommitted.foldl (fun s g => refuseLate ch r g s) s
  modTx ch (fun t => { t with bursts := t.bursts.filter (fun c => !c.grants.isEmpty) })
    (modBurst ch b.hdrBit (fun c => { c with grants := c.grants.take c.sections.length }) s1)

/-- Station ID that a burst's header and seed carry (R111, R113, R147). -/
def burstStation (s : State) (ch : Nat) (g : Grant) : Nat :=
  if g.window.isSome && answersSerial s ch then 0x3FF
  else match (actOf s ch).stationId with
    | some i => i.toNat
    | none => 0x3FF

/-- The burst header, fixed with the first section (R113, R121). -/
def burstHeader (s : State) (b : Burst) : Nat :=
  let rdi := (List.range 4).any (fun c => hasDefect (rxOf s c) 1 || hasDefect (rxOf s c) 6)
  let floor := match b.sections.head? with
    | some x => x.gsnFloor
    | none => 0
  hecWord (b.stationId.toNat * 2 ^ 41 + b2n s.sup.dyingGasp * 2 ^ 40 + b2n rdi * 2 ^ 39
    + b2n (!s.fib.txMsgs.isEmpty) * 2 ^ 38 + b.k % 256 * 2 ^ 29 + floor * 2 ^ 9)

/-- The instant of a commit: 4 µs before the section's first information word (R121). -/
def commitAt (b : Burst) : Nat := bitsPs (dueBit b) - us 4

/-- The next section of a channel committed at its instant, or refused where its channel can no longer send (R121). -/
def commitNext (ch : Nat) (s0 : State) : State :=
  match nextCommit s0 ch with
  | none => s0
  | some (b, g) =>
    let s := passTo (commitAt b) s0
    match commitRefusal s ch g with
    | some r => refuseRest ch b r s
    | none =>
      let first := b.sections.isEmpty
      let station := if first then burstStation s ch g else b.stationId.toNat
      let (sec, s0) := if g.window.isSome then windowSection ch station b.k g s
        else commitGrant ch first station b.k g s
      let n := entriesFor .packet sec.bytes.length
      let s1 := crossLink (linkNo 14 ch) n (crossLink (linkNo 13 0) n s0)
      let s2 := ownEvent 9 0 1 <| modBurst ch b.hdrBit (fun c => { c with
        sections := c.sections ++ [sec], stationId := BitVec.ofNat 10 station }) s1
      if first then
        let c := { b with sections := [sec], stationId := BitVec.ofNat 10 station }
        modBurst ch b.hdrBit (fun x => { x with header := BitVec.ofNat 64 (burstHeader s1 c) }) s2
      else s2

/-- The channel whose commit comes first, the lower number on a tie (R123). -/
def firstCommit (s : State) : Option (Nat × Nat) :=
  (List.range 4).foldl (fun m c =>
    match nextCommit s c, m with
    | some (b, _), some (_, t) => if dueBit b < t then some (c, dueBit b) else m
    | some (b, _), none => some (c, dueBit b)
    | none, _ => m) none

/-- Grants that wait for their commit. -/
def waitingGrants (s : State) : Nat :=
  total ((List.range 4).map (fun c => total ((txOf s c).bursts.map (·.uncommitted.length))))

/-! ### Launch and end (R127, R129) -/

/-- The fibre lane of a channel drives what its bursts are made of: it is neither held static nor carries a generated
pattern (R375, R392). -/
def sends (s : State) (ch : Nat) : Bool := !mutedLane (laneOf s (16 + ch))

/-- Outside its bursts a fibre transmit lane drives level 0 (R372). -/
def levelZero (ch : Nat) (s : State) : State := if sends s ch then emit (.levelZero ch) s else s

/-- The burst that launches next: not launched, its first section committed, none before it. -/
def nextLaunch (s : State) (ch : Nat) : Option Burst :=
  match (txOf s ch).bursts.find? (fun b => !b.launched) with
  | some b => if b.sections.isEmpty then none else some b
  | none => none

/-- BEN of a channel asserted or not (R127). -/
def driveBen (ch : Nat) (on : Bool) (s : State) : State :=
  movePin ch (modTx ch (fun t => { t with ben := on })) s

/-- A burst launches: BEN asserts 64 ns before its first preamble bit, and the burst is placed at its ideal position;
answering a serial-number window moves F2 to F3 (R100, R127, R130, R133). -/
def launchBurst (ch : Nat) (b : Burst) (s0 : State) : State :=
  let s := bump (ck 130 20 ch) 1 (passTo (bitsPs b.firstBit - 64000) s0)
  let s1 := modBurst ch b.hdrBit (fun c => { c with launched := true }) s
  let s2 := levelZero ch (driveBen ch true s1)
  match b.grants.head? with
  | some g =>
    if g.window.isSome then
      let serial := g.alloc == 0x3FFF
      let s3 := bump (ck 166 (if serial then 7 else 8) ch) 1 s2
      if serial && (actOf s3 ch).act == .f2 && actsRun s3 then
        moveAct ch .f3 5 (fun x => { x with rangingEnd := some (s.now + ms 10000) }) s3
      else s3
    else s2
  | none => s2

/-- The scrambler seed of a burst (R111). -/
def burstSeed (b : Burst) : Nat := 2 ^ 57 + b.stationId.toNat * 2 ^ 47 + b.k % 2 ^ 47

/-- A burst's bits on the wire (R108, R109, R111). -/
def burstBits (b : Burst) : List Bool :=
  let info := bitsOf (beBytes 8 b.header.toNat ++ b.sections.flatMap (·.bytes))
  let body := scramble (burstSeed b) (ldpcEncode (info.length / 21600 + 1) info)
  (List.replicate b.shape.words (wordBits 32 b.shape.pattern.toNat)).flatten
    ++ wordBits 64 b.shape.delim.toNat ++ body

/-- Codewords of a burst, the last one shortened (R109). -/
def burstCodewords (b : Burst) : Nat := (64 + 8 * total (b.sections.map (·.bytes.length)) + 21599) / 21600

/-- A client frame has left upstream: the OUT term of its book (R535); a host's timestamp request is
lost (R431). -/
def sentUpstream (p : Pkt) (s : State) : State :=
  endTrace p 0 (lostStamp p 1 0 (book .output p.cport p.booked s))

/-- A launched section is booked at its burst's end (R129, R130). -/
def bookSection (ch : Nat) (x : Section) (s : State) : State :=
  if x.grant.window.isSome then s
  else
    let s1 := bookExecuted ch x s
    let s2 := bump (ck 130 27 x.grant.alloc) x.wholes (bump (ck 130 26 x.grant.alloc) x.fragments s1)
    let s3 := bump (ck 130 29 0) x.noMessages (bump (ck 130 28 0) x.messages s2)
    x.frames.foldl (fun s p => sentUpstream p s) s3

/-- A symbol moved to an adjacent level (R394). -/
def nextLevel (v : Nat) : Nat := if v = 3 then 2 else v + 1

/-- The levels of a burst with the errors that are injected into live traffic: one in its first symbol, or one every
2^n bits, counted over the bits of all bursts from bit start on (R394). -/
def injectInto (x : Lane) (start : Nat) (l : List Nat) : List Nat :=
  if !x.injectLive then l
  else if x.inject = 1 then (l.head?.map nextLevel).toList ++ l.drop 1
  else if x.inject = 2 then
    l.mapIdx (fun i v => if (start + 2 * i + 2) / 2 ^ x.injectN ≠ (start + 2 * i) / 2 ^ x.injectN then nextLevel v else v)
  else l

/-- A single error that waited for a burst has been placed, and is counted (R394, R398). -/
def endSingle (ch : Nat) (s : State) : State :=
  let x := laneOf s (16 + ch)
  if x.injectLive && decide (x.inject = 1) then
    bump (ck 398 21 (16 + ch)) 1 (modLane (16 + ch) (fun x => { x with inject := 0, injectLive := false }) s)
  else s

/-- A launched burst's last bit leaves, and BEN deasserts 32 ns later (R127); its bits are counted (R130). -/
def endBurst (ch : Nat) (b : Burst) (s0 : State) : State :=
  let s := passTo (bitsPs b.endBit) s0
  let s2 := if sends s ch then
      let x := laneOf s (16 + ch)
      let start := s.count (ck 130 21 ch) - x.injectAt + x.injectPhase
      endSingle ch (levelZero ch (emit (.burst ch b.hdrBit (x.drive (injectInto x start (pamLevels (burstBits b))))) s))
    else s
  let s3 := modTx ch (fun t => { t with bursts := t.bursts.filter (fun c => c.hdrBit != b.hdrBit) }) s2
  let s4 := b.sections.foldl (fun s x => bookSection ch x s) s3
  driveBen ch false (passTo (bitsPs b.endBit + 32000)
    (ownEvent (4 + ch) 2 (burstCodewords b) (bump (ck 130 21 ch) (wireBits b) s4)))

/-- A launched burst whose sections are all committed. -/
def nextEnd (s : State) (ch : Nat) : Option Burst :=
  (txOf s ch).bursts.find? (fun b => b.launched && b.uncommitted.isEmpty)

/-- Every committed section of a channel launches and ends; grants not committed are refused
(R481, R483). -/
def finishBursts (ch : Nat) (s : State) : State :=
  let l := (txOf s ch).bursts
  l.foldl (fun s b0 =>
    let s1 := refuseRest ch b0 .state s
    match (txOf s1 ch).bursts.find? (fun c => c.hdrBit == b0.hdrBit) with
    | none => s1
    | some b =>
      let s2 := if b.launched then s1 else launchBurst ch b s1
      match (txOf s2 ch).bursts.find? (fun c => c.hdrBit == b0.hdrBit) with
      | none => s2
      | some b1 => endBurst ch b1 s2) s

end Sys2Proof.Machine
end

