-- ==== Sys2Proof/Machine/PowerOps.lean ====
section
/-! DEFINITION. Entry to SAFE, retention of bank groups, and the entry to and exit from each power
state (chapter 14), which the power, activation, supply and alarm steps share. -/

namespace Sys2Proof.Machine

open Sys2Proof

/-! ### Link reports (R351, R483) -/

/-- Every aggregation distributes to a member no more: Knarrasar rewrites the table after its link-down (R367). -/
def dropMember (p : Nat) (s : State) : State :=
  if servicesRun s then
    { s with prt := { s.prt with aggs := s.prt.aggs.map (fun e => (e.1, { e.2 with
        distributing := BitVec.ofNat 16 (setBit e.2.distributing.toNat p false) })) } }
  else s

/-- A port's link reported up or down, with its event and its counters (R351, R369). -/
def reportLink (p cause : Nat) (up : Bool) (s : State) : State :=
  let down := if up then bump (ck 369 46 p) ((s.now - max (portOf s p).linkAt s.prt.since) / 1000000000) s else s
  let s1 := noteIdle p (leaveLpi p (bump (ck 369 (43 - b2n up) p) 1 down))
  raise 0x0801 false p (leBytes 1 (b2n up) ++ leBytes 1 cause) (modPort p (fun x => { x with
    link := up, linkAt := s.now, badSince := none }) (if up then s1 else dropMember p s1))

/-- A client port whose link goes down loses what its queues hold (R241, R351). -/
def linkGoesDown (p cause : Nat) (s : State) : State :=
  egressDown p (reportLink p cause false s)

/-! ### SAFE (R302, R441, R444, R445) -/

/-- The sections that have not launched are cancelled, and BEN is inactive (R127). -/
def muteChannel (ch : Nat) (s : State) : State :=
  driveBen ch false (cancelChannel ch 0x72 .state s)

/-- The background commands that SAFE ends (R445, R568): MAINT_SELF_TEST and MAINT_REPLAY. -/
def endBackground (s : State) : State :=
  match s.hif.running.find? (fun r => r.opcode == 0x0D04 || r.opcode == 0x0D05) with
  | some r => conclude r.mbx stTimeout true false [] s
  | none => s

/-- The device enters SAFE. -/
def becomeSafe (s : State) : State :=
  let s1 := syncFaults (changeState .safe { s with dev := { s.dev with safeWaits := false } })
  endBackground (forEach (List.range 4) muteChannel s1)

/-- States that an alarm turns into SAFE (R442). -/
def canBecomeSafe (s : State) : Bool :=
  match s.dev.state with
  | .standby | .active | .degraded | .maintenance => true
  | _ => false

/-! ### Contents that go with the power (R476) -/

/-- A decided packet discarded before the traffic manager takes it; one that was to recirculate releases its
reference (R193). -/
def dropDecided (reason : Nat) (d : Decided) (s : State) : State :=
  let s1 := takePacket (linkNo 8 d.pkt.slice) 1 d.pkt.cport d.pkt.booked s
  dropPacket reason d.pkt
    (if d.dests.any (fun e => decide (648 ≤ e.1) && decide (e.1 < 656)) then releaseTag d.pkt s1 else s1)

/-- What stands before a slice, and what it has decided, is discarded. -/
def flushSlices (reason : Nat) (s : State) : State :=
  let waiting := s.cls.inputs.flatMap (fun e => e.2.map (fun p => (e.1 / 5, p)))
  let s1 := waiting.foldl (fun s e =>
    dropPacket reason e.2 (takePacket (sliceLink e.2 e.1) (headEntries e.2) e.2.cport e.2.booked s))
    { s with cls := { s.cls with inputs := [], decided := [] } }
  s.cls.decided.foldl (fun s d => dropDecided reason d s) s1

/-- The frame of a cipher request is discarded. -/
def dropRequest (reason : Nat) (r : CipherReq) (s : State) : State :=
  match r.ref with
  | .fibreDown x => discardFrame reason x s
  | .macsecIn _ p _ _ _ => dropPacket reason p s
  | .macsecOut port => abandonLeaving port reason s
  | .upstream _ | .macsecOwn _ _ | .hive => s

/-- Every request that the complex or a source holds. -/
def heldRequests (s : State) : List CipherReq :=
  s.cip.waiting.flatMap (·.2)
    ++ s.cip.pipes.flatMap (fun e =>
      e.2.queue ++ (e.2.running.map (·.req)).toList ++ (e.2.suspended.map (·.req)).toList)
    ++ s.cip.results.flatMap (fun e => e.2.map (·.req))

/-- The cipher complex loses what it holds: the frames are discarded, and its queues begin anew. -/
def flushCipher (reason : Nat) (s : State) : State :=
  (heldRequests s).foldl (fun s r => dropRequest reason r s)
    { s with cip := { s.cip with
      waiting := [], pipes := [], results := [], freeDesc := [], release := s.cip.nextSeq } }

/-- A power domain goes off: engine 0's holds the derived-key cache and what is being derived, and a slice's its
round robin and the turn of its engines (R475, R476). -/
def loseDomain (d : Nat) (s : State) : State :=
  if d = 79 then { s with cip := { s.cip with cache := [], derivations := [] } }
  else if 39 ≤ d ∧ d < 51 then
    let k := (d - 39) / 6
    { s with cls := { s.cls with
      credits := s.cls.credits.filter (fun e => e.1 / 5 != k), engine := tset 0 s.cls.engine k 0 } }
  else s

/-- The domains of the slices and of the cipher complex go off, and what stood in them is discarded (R475, R481,
R483). -/
def loseBlocks (s : State) : State :=
  forEach ((List.range 12).map (39 + ·) ++ [79]) loseDomain (flushCipher 0x47 (flushSlices 0x47 s))

/-! ### Changes of power state (R479, R480, R495) -/

/-- A change of power state with its counts and its event. -/
def enterPower (p : PowerState) (s : State) : State :=
  let old := s.pow.state
  let s1 := bump (ck 495 2 old.code) ((s.now - s.pow.changed) / 1000000) (bump (ck 495 1 old.code) 1 s)
  let s2 := { s1 with pow := { s1.pow with
    state := p, phase := .idle, changed := s1.now, domains := [] } }
  raise 0x0A01 false 0xFF (leBytes 1 old.code ++ leBytes 1 p.code) (bump (ck 495 0 p.code) 1 (clocksMayRun s2))

/-- The mailbox whose POWER_SET_STATE runs. -/
def powerCommand (s : State) : Option Nat :=
  (s.hif.running.find? (fun r => r.opcode == 0x0A01)).map (·.mbx)

/-- The POWER_SET_STATE that runs becomes final. -/
def concludePower (status : Nat) (rolled : Bool) (data : Bytes) (s : State) : State :=
  match powerCommand s with
  | some n => conclude n status rolled false data s
  | none => s

/-- Client ports start frames: D0 or D1, with no entry to D3 running (R481, R483). -/
def portsSend (s : State) : Bool :=
  (s.pow.state == .d0 || s.pow.state == .d1)
    && (s.pow.phase == .idle || s.pow.phase == .toD1 || s.pow.phase == .fromD1)

/-- A channel unit loses its power: nothing is delivered, and delineation begins anew. The activation states stay as
they are until the exit (R157, R485); leaving SYNC is a defect and an entry to HUNT (R95, R97). -/
def silenceRx (ch : Nat) (s : State) : State :=
  let s1 := dropOpen ch 0x12 s
  let s2 := if (rxOf s1 ch).delin == .sync then setDefect ch 1 true s1 else s1
  let s3 := if (rxOf s2 ch).delin == .hunt then s2 else bump (ck 97 2 ch) 1 s2
  modRx ch (fun x => { hunting x with lock := false, arrivals := [] }) s3

/-- A lane goes into DEEP with the coefficients adapted last, its detectors no longer monitored
(R386, R389); the time in LOS and the entry are counted (R398). -/
def enterDeep (l : Nat) (s : State) : State :=
  let s1 := endLos l (sampleSnr l (settleChecker l s))
  dropMgmt l (modLane l (fun x => { freezeCoeffs x with
    state := .deep, entering := false, order := none, los := false, lol := false, losMasked := false
    unmaskAt := none, frozen := false, heldCoeffs := true, snrDeep := x.snr, checkLock := false })
    (bump (ck 398 22 l) 1 s1))

/-- A lane that is wanted is taken into DEEP: an exit that runs completes to READY first (R389, R391). -/
def sinkLane (l : Nat) (s : State) : State :=
  if !laneWanted s l then s
  else if (laneOf s l).state == .ready then enterDeep l s
  else if (laneOf s l).state == .exiting then enterDeep l (completeExit l s)
  else modLane l (fun x => { x with state := .deep, entering := false, order := none }) s

/-- Exit from D2 or D3 begins: the D0 settings with the check of every retained group, whose outcome is free, and
every lane ordered out (R482, R484, R494). -/
def startExit (s : State) : State :=
  let phase := if s.pow.state == .d2 then PowerPhase.exitingD2 else .exitingD3
  let s1 := forEach retainedGroups wakeBankFreely
    { s with pow := { s.pow with phase := phase, heldWake := none, domains := [] } }
  forEach (List.range 21) (fun l s =>
    if laneWanted s l && (laneOf s l).state != .ready then orderExit l s else s) s1

/-- The row of R495 that counts a wake source, in the order of R486. -/
def wakeRow : WakeSource → Nat
  | .clientEnergy _ => 3
  | .mgmtEnergy => 4
  | .wakePattern _ => 5
  | .dozeEnd => 6
  | .hostOrder => 7
  | .stateCommand => 8

/-- A wake source acts in this power state (R486). -/
def wakes (s : State) (w : WakeSource) : Bool :=
  let low := s.pow.state == .d2 || s.pow.state == .d3 || s.pow.phase == .enteringD3
  match w with
  | .clientEnergy l =>
    low && (match ownerOf s l with
      | some p => (portOf s p).enable
      | none => false)
  | .mgmtEnergy => low && decide (s.prt.mgmtMode ≠ 0)
  | .wakePattern _ => s.pow.state == .d3 || s.pow.phase == .enteringD3
  | .dozeEnd => s.pow.state == .d2
  | .hostOrder | .stateCommand => low

/-- A wake source fires (R486, R487). -/
def requestWake (w : WakeSource) (s : State) : State :=
  if !wakes s w then s
  else match s.pow.phase with
    | .enteringD3 =>
      bump (ck 495 9 3) 1 { s with pow := { s.pow with heldWake := some (s.pow.heldWake.getD w) } }
    | .exitingD2 | .exitingD3 => bump (ck 495 10 s.pow.state.code) 1 s
    | _ => startExit (bump (ck 495 (wakeRow w) s.pow.state.code) 1 s)

/-- The wake source that a lane's energy detector reports (R388, R486). -/
def laneSource (l : Nat) : WakeSource :=
  if h : l < 16 then .clientEnergy ⟨l, h⟩
  else if h : l < 20 then .wakePattern ⟨l - 16, by omega⟩
  else .mgmtEnergy

/-- A report of activity, with its event and count (R388, R398). -/
def reportEnergy (l : Nat) (s : State) : State :=
  let s1 := modLane l (fun x => { x with energy := true, energyHeld := false }) s
  requestWake (laneSource l) (raise 0x0901 false l [2, 1] (bump (ck 398 25 l) 1 s1))

/-- A report held during the entry takes effect as the entry completes (R391). -/
def releaseEnergy (l : Nat) (s : State) : State :=
  if (laneOf s l).energyHeld then reportEnergy l s else s

/-- An alarm in STANDBY, ACTIVE, DEGRADED or MAINTENANCE leads to SAFE, after a running entry or exit
and the return to D0 (R442, R487). -/
def headForSafe (s : State) : State :=
  if !canBecomeSafe s then s
  else if s.pow.phase == .enteringD3 || s.pow.phase == .exitingD2 || s.pow.phase == .exitingD3 then
    { s with dev := { s.dev with safeWaits := true } }
  else if s.pow.state == .d2 || s.pow.state == .d3 then
    requestWake .stateCommand { s with dev := { s.dev with safeWaits := true } }
  else becomeSafe s

/-- D3 entry begins (R483). -/
def startD3 (s : State) : State :=
  let s1 := { s with pow := { s.pow with phase := .enteringD3 } }
  let s2 := flushAllStaging 0x47 (flushAll 0x47 s1)
  let s3 := forEach (List.range 16) (fun p s =>
    if (portOf s p).link then linkGoesDown p 5 s else s) s2
  forEach (List.range 21) (fun l s => if isFibreLane l || !laneWanted s l then s else orderDeep l s) s3

/-- D3 is entered (R483). -/
def finishD3 (s : State) : State :=
  let s1 := forEach (List.range 4) finishBursts s
  let s2 := forEach (List.range 21) (fun l s => releaseEnergy l (sinkLane l s)) s1
  let s3 := forEach (List.range 4) silenceRx s2
  let s4 := enterSleep s3
  let s5 := forEach retainedGroups retainBank (enterPower .d3 (loseBlocks s4))
  let s6 := concludePower stOk false [] s5
  match s6.pow.heldWake with
  | some w => requestWake w s6
  | none => if s6.dev.safeWaits then requestWake .stateCommand s6 else s6

/-- D2 is entered at T_rx(START_SFC) on the doze channel (R157, R481). -/
def enterD2 (s : State) : State :=
  let d := s.fib.doze.ch
  let s1 := flushAllStaging 0x47 (flushAll 0x47 s)
  let s2 := forEach (List.range 4) finishBursts s1
  let s3 := forEach (List.range 21) (fun l s => if isFibreLane l then s else sinkLane l s) s2
  let s4 := forEach ((List.range 4).filter (· != d)) (fun c s => silenceRx c (laneOff (16 + c) s)) s3
  let s5 := dropOpen d 0x12 { s4 with fib := { s4.fib with doze := { s4.fib.doze with phase := .dozing } } }
  let s6 := forEach retainedGroups retainBank (enterPower .d2 (loseBlocks s5))
  concludePower stOk false [] (raise 0x0208 false d (leBytes 1 2) s6)

/-- The channels after an exit (R485). -/
def resumeChannel (ch : Nat) (s : State) : State :=
  let s1 := { s with pow := { s.pow with
    holdUntil := tset none s.pow.holdUntil ch (some (s.now + ms 100)) } }
  if (rxOf s1 ch).delin == .sync then s1
  else match (actOf s1 ch).act with
    | .f5 => moveAct ch .f6 12 (fun x => { x with f6End := some (s1.now + ms 100) }) s1
    | .f6 => modAct ch (fun x => { x with f6End := some (s1.now + ms 100) }) s1
    | .f2 | .f3 | .f4 => moveAct ch .f1 9 loseStation s1
    | _ => s1

/-- DOZE_EXIT queued, and kept as the response to the DOZE_END that ended the doze (R143, R158). -/
def sendDozeExit (d : Nat) (s : State) : State :=
  let g := groupIdOf s d
  let (m, s1) := newMessage 0x46 g [] s
  let fill := fun (e : Nat × Option Repeat) =>
    if e.1 = 0x0B then
      (e.1, e.2.map (fun r => if r.response.isEmpty then { r with response := [m] } else r))
    else e
  putMessage d m (modGroup g (fun x => { x with repeats := x.repeats.map fill }) s1)

/-- D0 is entered from D2 or D3: the lost groups have been restored (R482, R484, R485). A group that still stands in
retention, as in no run, is checked with the verdict given. -/
def finishExit (lost : List (Fin 24)) (s : State) : State :=
  let s1 := forEach retainedGroups (fun g s =>
    restoreBank g (wakeBank g (!lost.any (fun x => x.val == g)) s)) s
  let s2 := forEach replicaIslands realign (enterPower .d0 (leaveSleep (passEdge s1)))
  let s3 := forEach (List.range 4) resumeChannel s2
  let s4 := if s3.fib.doze.phase == .dozing then
      let d := s3.fib.doze.ch
      raise 0x0208 false d (leBytes 1 3) (sendDozeExit d
        { s3 with fib := { s3.fib with doze := { s3.fib.doze with phase := .idle } } })
    else s3
  let s5 := match powerCommand s4 with
    | some _ => concludePower stOk false [] s4
    | none => s4
  if s5.dev.safeWaits then becomeSafe s5 else s5

/-! ### Droop (R21, R488, R489) -/

/-- Knarrasar answers a sustained sag: D0 or D1 only, 1 ms after the last change (R489). A detector stays
in it for as long as its stretch lasts. -/
def answerSag (d : Nat) (s : State) : State :=
  if s.dev.ready && (s.pow.state == .d0 || s.pow.state == .d1) && s.pow.phase != .enteringD3
      && decide (s.pow.changed + ms 1 ≤ s.now) then
    let s1 := bump (ck 495 17 d) 1 (modDetect d (fun x => { x with recent := [], sustained := x.stretching })
      { s with pow := { s.pow with belowSince := none } })
    if s1.pow.level < 4 then setLevel (s1.pow.level + 1) d s1 else s1
  else s

end Sys2Proof.Machine
end

