-- ==== Sys2Proof/Machine/GateOps.lean ====
section
/-! DEFINITION. Policers (R250 to R255), shapers (R256 to R258) and gate lists (R264 to R268): the
computations the traffic steps and the resets share. -/

namespace Sys2Proof.Machine

open Sys2Proof

/-! ### Policers (R250 to R254) -/

def polAware (d : Nat) : Bool := bit d 127
def polRedDrop (d : Nat) : Bool := bit d 126
def polYbit (d : Nat) : Nat := fld d 122 4
def polRbit (d : Nat) : Nat := fld d 118 4
def polCir (d : Nat) : Nat := fld d 88 30
def polPir (d : Nat) : Nat := fld d 58 30
def polCbs (d : Nat) : Nat := fld d 34 24
def polPbs (d : Nat) : Nat := fld d 10 24

/-- The descriptor of a policer after cold reset (R250). -/
def polReset : Nat :=
  2 ^ 126 + 0x2FAF0800 * 2 ^ 88 + 0x2FAF0800 * 2 ^ 58 + 0xFFFFFF * 2 ^ 34 + 0xFFFFFF * 2 ^ 10

/-- A policer with both buckets full. -/
def polFull (desc now : Nat) : Policer :=
  { desc := BitVec.ofNat 128 desc, tc := polCbs desc * 2 ^ 32, tp := polPbs desc * 2 ^ 32, last := now }

def policerOf (s : State) (n : Nat) : Policer := tget (polFull polReset 0) s.tm.policers n

def setPolicer (n : Nat) (x : Policer) (s : State) : State :=
  { s with tm := { s.tm with policers := tset (polFull polReset 0) s.tm.policers n x } }

/-- A quotient rounded to the nearest whole number. -/
def nearest (a b : Nat) : Nat := (2 * a + b) / (2 * b)

/-- Both buckets brought up to date at tick t under the present rates (R252). -/
def polRefill (x : Policer) (t : Nat) : Policer :=
  let d := x.desc.toNat
  let dt := t - x.last
  { x with
    tc := min (x.tc + dt * nearest (polCir d * 2 ^ 32) 10000000) (polCbs d * 2 ^ 32)
    tp := min (x.tp + dt * nearest (polPir d * 2 ^ 32) 10000000) (polPbs d * 2 ^ 32)
    last := t }

/-- Beryl ticks so far. -/
def tickNo (s : State) : Nat := s.now / 800

/-- Input colour (R251). -/
def inColour (d flags : Nat) : Colour :=
  if polRbit d ≠ 0 ∧ bit flags (polRbit d) then .red
  else if polYbit d ≠ 0 ∧ bit flags (polYbit d) then .yellow
  else .green

/-- One metering (R252). -/
def meter (x : Policer) (t flags b : Nat) : Colour × Policer :=
  let y := polRefill x t
  let d := y.desc.toNat
  let n := b * 2 ^ 32
  let c := inColour d flags
  let aware := polAware d
  if aware && c == .red then (.red, y)
  else if y.tp < n then (.red, y)
  else if (aware && c == .yellow) || decide (y.tc < n) then (.yellow, { y with tp := y.tp - n })
  else (.green, { y with tp := y.tp - n, tc := y.tc - n })

/-- Row of a colour's packets in the counters of R255. -/
def colourRow : Colour → Nat
  | .yellow => 2 | .red => 4 | _ => 0

/-! ### Shapers (R256 to R258) -/

def shapeOn (d : Nat) : Bool := bit d 63
def shapeAdj (d : Nat) : Int := sint 7 (fld d 56 7)
def shapeRate (d : Nat) : Nat := fld d 26 30
def shapeBurst (d : Nat) : Nat := fld d 0 24

/-- Shapers are numbered by queue, and the aggregate ones from 1,024. -/
def shaperOf (s : State) (n : Nat) : Shaper := tget {} s.tm.shapers n

def setShaper (n : Nat) (x : Shaper) (s : State) : State :=
  { s with tm := { s.tm with shapers := tset {} s.tm.shapers n x } }

/-- A shaper at a refill edge (R257, R258). -/
def refillShaper (x : Shaper) : Shaper :=
  let y := match x.pending with
    | none => x
    | some d =>
      let cap : Int := shapeBurst d.toNat * 2 ^ 32
      { desc := d, pending := none
        credit := if shapeOn d.toNat && !shapeOn x.desc.toNat then cap else min x.credit cap }
  let d := y.desc.toNat
  if shapeOn d then
    { y with credit := min (y.credit + nearest (shapeRate d * 512 * 2 ^ 32) 8000000)
                           (shapeBurst d * 2 ^ 32) }
  else y

/-- The shapers over a queue: its own, and its port's or its aggregate one (R256). -/
def shapersOver (s : State) (q : Nat) : List Nat :=
  if q < 128 then [q, 1024 + q / 8]
  else if (queueOf s q).agg = 0 then [q] else [q, 1024 + (queueOf s q).agg]

/-- Every enabled shaper over a queue has credit (R257, R263). -/
def shapersAllow (s : State) (q : Nat) : Bool :=
  (shapersOver s q).all (fun n => itemLost s 3 (item 2 n) ||
    !shapeOn (shaperOf s n).desc.toNat || decide ((shaperOf s n).credit ≥ 0))

/-- A release of len bytes charged to every enabled shaper over a queue (R257). -/
def chargeShapers (q len : Nat) (s : State) : State :=
  forEach (shapersOver s q) (fun n s =>
    let x := shaperOf s n
    if shapeOn x.desc.toNat && !itemLost s 3 (item 2 n) then
      let c := x.credit - ((len : Int) + shapeAdj x.desc.toNat) * 2 ^ 32
      setShaper n { x with credit := max (-(16384 * 2 ^ 32)) c } s
    else s) s

/-! ### Gate lists (R264 to R268) -/

/-- The gate list of a target; a lost one is absent, its gates open (R507). -/
def gateOf (s : State) (target : Nat) : Gate :=
  if itemLost s 3 (item 3 target) then {} else tget {} s.tm.gates target

def modGate (target : Nat) (f : Gate → Gate) (s : State) : State :=
  { s with tm := { s.tm with gates := tset {} s.tm.gates target (f (tget {} s.tm.gates target)) } }

/-- Spans of a cycle as start, end and gates: cut at the cycle's end, the last one held to it (R265). -/
def spansFrom (cycle : Nat) : Nat → List (Byte × Nat) → List (Nat × Nat × Byte)
  | _, [] => []
  | t, [e] => if t < cycle then [(t, cycle, e.1)] else []
  | t, e :: l =>
    if t < cycle then (t, min cycle (t + e.2), e.1) :: spansFrom cycle (t + e.2) l else []

def gateSpans (g : GateList) : List (Nat × Nat × Byte) := spansFrom g.cycle 0 g.entries

/-- From time t on, two cycles of a list's spans: start and gates, the first cut at t. -/
def spansAfter (g : GateList) (t : Nat) : List (Nat × Byte) :=
  let pos := cyclePos g t
  let here := (gateSpans g).filter (fun e => decide (pos < e.2.1))
  let one := here.map (fun e => (t + (e.1 - pos), e.2.2))
  let next := t + (g.cycle - pos)
  one ++ (gateSpans g).map (fun e => (next + e.1, e.2.2))
    ++ (gateSpans g).map (fun e => (next + g.cycle + e.1, e.2.2))

/-- The first instant from t on at which bit c of a list's gates is b; none where it never is. -/
def nextGate (g : GateList) (t c : Nat) (b : Bool) : Option Nat :=
  ((spansAfter g t).find? (fun e => e.2.getLsbD c == b)).map (·.1)

/-- The next boundary of a list's entries after t. -/
def nextBoundary (g : GateList) (t : Nat) : Option Nat :=
  ((spansAfter g t).find? (fun e => decide (t < e.1))).map (·.1)

/-- The first instant from t on at which bit c is b under a list, or no list. -/
def nextUnder (g : Option GateList) (t c : Nat) (b : Bool) : Option Nat :=
  match g with
  | none => if b then some t else none
  | some g => nextGate g t c b

/-- The same under a target's list and the one that waits for its switch instant (R266). -/
def nextOn (x : Gate) (t c : Nat) (b : Bool) : Option Nat :=
  let first := nextUnder x.active t c b
  match x.pending with
  | none => first
  | some (l, sw) =>
    match first with
    | some u => if u < sw then some u else nextUnder l (max t sw) c b
    | none => nextUnder l (max t sw) c b

/-- The instant a class's window closes; none where the gate stays open (R267). -/
def windowClose (s : State) (x : Gate) (c : Nat) : Option Nat := nextOn x (nowNs s) c false

/-- The instant the next later window opens. -/
def windowOpen (s : State) (x : Gate) (c : Nat) : Option Nat :=
  match windowClose s x c with
  | none => none
  | some t => nextOn x t c true

/-- The switch instant of R266, in ns. -/
def switchInstant (s : State) (base cycle : Nat) : Nat :=
  let least := nowNs s + 1000 + (if (mainNow s).frac = 0 then 0 else 1)
  if least ≤ base then base else base + (least - base + cycle - 1) / cycle * cycle

/-- A time in ns as R307. -/
def nsWord (t : Nat) : Nat := (berylOf (t * fracNs)).word

/-- Wire time of a frame of len bytes at a rate in Gb/s, in ps (R267). -/
def wirePs (len rate : Nat) : Nat := (len + 20) * 8000 / rate

/-! ### Flow-control timers (R261, R262) -/

/-- Duration of n pause units of 512 bit times at a port's rate, in ps. -/
def pausePs (s : State) (p n : Nat) : Nat := n * 512000 / max 1 (modeRate (portOf s p).mode)

/-- Class c of port p is paused. -/
def paused (s : State) (p c : Nat) : Bool := decide (s.now < tget 0 (pauseOf s p).until_ c)

/-- The time a class has stood paused is counted up to this moment (R271). -/
def countPaused (p c : Nat) (s : State) : State :=
  let x := pauseOf s p
  let start := tget 0 x.since c
  let stop := min s.now (tget 0 x.until_ c)
  if tget 0 x.until_ c = 0 then s
  else
    modPause p (fun x => { x with since := tset 0 x.since c stop })
      (bump (ck 271 (25 + c) p) ((stop - start) / 1000) s)

/-- A received pause time for one class: it reloads the timer, and 0 resumes at once (R262). -/
def reloadPause (p c units : Nat) (s : State) : State :=
  let s1 := countPaused p c s
  modPause p (fun x =>
    if units = 0 then { x with until_ := tset 0 x.until_ c 0, since := tset 0 x.since c 0 }
    else { x with until_ := tset 0 x.until_ c (s.now + pausePs s p units)
                  since := tset 0 x.since c s.now }) s1

end Sys2Proof.Machine
end

