-- ==== Sys2Proof/Machine/Traffic.lean ====
section
/-! DEFINITION. The traffic commands and the time-driven steps of the traffic manager (chapter 7,
R461). -/

namespace Sys2Proof.Machine

open Sys2Proof

/-! ### Queues (R238, R239, R242) -/

/-- The argument fields of TRAFFIC_SET_QUEUE (R238). -/
def queueArgs (a : Bytes) : List Arg :=
  let q := le a 0 2
  let d := le a 8 16
  let y := fld d 67 25
  [boundArg 0 2 0 1023, anyArg 8 16, zeroArg d 8 16 2,
    bitArg d 8 92 25 stRange (fun v => decide (v ≤ 31719424)),
    ruleArg 8 42 (decide (fld d 42 25 ≤ y)), ruleArg 8 67 (decide (y ≤ fld d 92 25)),
    ruleArg 8 117 (decide (q ≥ 128) || bit d 125 || decide (fld d 117 8 ≠ 0)),
    ruleArg 8 18 (fld d 18 6 == 0 || (decide (fld d 18 6 ≥ 16) && decide (q ≥ 128))),
    ruleArg 8 126 (!bit d 126 || decide (q < 640)), ruleArg 8 127 (!bit d 127 || decide (q < 656))]

def cmdTrafficSetQueue : CmdSpec where
  opcode := 0x0501
  lenOk := fixedLen 24
  args := queueArgs
  legal := clsL
  run := fun _ a s =>
    let q := le a 0 2
    if !bit (le a 8 16) 127 && !(held s q).isEmpty then refuseFree stBusy s
    else
      done (rewriteItem 3 (item 0 q)
        (modQueue q (fun x => { x with desc := BitVec.ofNat 128 (le a 8 16) }) s))

/-- TRAFFIC_SET_QUEUE (R238, R239). -/
def execTrafficSetQueue (n : Fin 16) (s : State) : Answer := .next (takeUp cmdTrafficSetQueue n s)

def cmdTrafficFlushQueue : CmdSpec where
  opcode := 0x0502
  lenOk := fixedLen 2
  args := fun _ => [boundArg 0 2 0 1023]
  legal := clsL
  run := fun _ a s =>
    let q := le a 0 2
    doneWith (leBytes 8 (queueOf s q).pkts.length) (flushQueue 0x47 q s)

/-- TRAFFIC_FLUSH_QUEUE (R242). -/
def execTrafficFlushQueue (n : Fin 16) (s : State) : Answer :=
  .next (takeUp cmdTrafficFlushQueue n s)

/-! ### Policers (R250, R254) -/

/-- A rate of a policer or shaper in kb/s. -/
def rateOk (v : Nat) : Bool := decide (1 ≤ v) && decide (v ≤ 800000000)

/-- YBIT or RBIT: 0, or a FLAGS bit 5 to 15. -/
def markBitOk (v : Nat) : Bool := v == 0 || decide (v ≥ 5)

def policerArgs (a : Bytes) : List Arg :=
  let d := le a 8 16
  [boundArg 0 2 0 8191, anyArg 8 16, zeroArg d 8 0 9, ruleArg 8 88 (decide (polCir d ≤ polPir d)),
    bitArg d 8 88 30 stRange rateOk, bitArg d 8 58 30 stRange rateOk,
    bitArg d 8 34 24 stRange (fun v => decide (v ≥ 1024)),
    bitArg d 8 10 24 stRange (fun v => decide (v ≥ 1024)),
    bitArg d 8 122 4 stRange markBitOk, bitArg d 8 118 4 stRange markBitOk]

/-- The write applied between two meterings (R254); FILL reads as 0. -/
def writePolicer (x : Policer) (d t : Nat) : Policer :=
  let y := polRefill x t
  let keep := BitVec.ofNat 128 (setBit d 9 false)
  if bit d 9 then polFull keep.toNat t
  else { desc := keep, last := t, tc := min y.tc (polCbs d * 2 ^ 32), tp := min y.tp (polPbs d * 2 ^ 32) }

def cmdTrafficSetPolicer : CmdSpec where
  opcode := 0x0503
  lenOk := fixedLen 24
  args := policerArgs
  legal := clsL
  run := fun _ a s =>
    let n := le a 0 2
    done (rewriteItem 3 (item 1 n)
      (setPolicer n (writePolicer (policerOf s n) (le a 8 16) (tickNo s)) s))

/-- TRAFFIC_SET_POLICER (R250, R254). -/
def execTrafficSetPolicer (n : Fin 16) (s : State) : Answer :=
  .next (takeUp cmdTrafficSetPolicer n s)

/-! ### Shapers (R256 to R258) -/

/-- The shaper a TRAFFIC_SET_SHAPER target names. -/
def shaperNo (t : Nat) : Nat := if t < 0x8000 then t else 1024 + (t - 0x8000)

def shaperArgs (a : Bytes) : List Arg :=
  let d := le a 8 8
  [rangeArg 0 2 (fun v => decide (v ≤ 0x3FF) || (decide (0x8000 ≤ v) && decide (v ≤ 0x803F))),
    anyArg 8 8, zeroArg d 8 24 2, bitArg d 8 26 30 stRange rateOk,
    bitArg d 8 0 24 stRange (fun v => decide (v ≥ 64)), ruleArg 8 56 (decide (shapeAdj d ≥ -32))]

def cmdTrafficSetShaper : CmdSpec where
  opcode := 0x0504
  lenOk := fixedLen 16
  args := shaperArgs
  legal := clsL
  run := fun _ a s =>
    let n := shaperNo (le a 0 2)
    done (rewriteItem 3 (item 2 n)
      (setShaper n { shaperOf s n with pending := some (BitVec.ofNat 64 (le a 8 8)) } s))

/-- TRAFFIC_SET_SHAPER (R256, R258): the write waits for the next refill edge. -/
def execTrafficSetShaper (n : Fin 16) (s : State) : Answer := .next (takeUp cmdTrafficSetShaper n s)

/-- SHAPER_REFILL (R257, R258): the next edge of 512 ns. -/
def execShaperRefill (s : State) : Answer :=
  let s1 := passTo ((s.now / 512000 + 1) * 512000) s
  .next (forEach (s1.tm.shapers.map (·.1)) (fun n s => setShaper n (refillShaper (shaperOf s n)) s) s1)

/-! ### Flow control (R259 to R262) -/

def pauseArgs (a : Bytes) : List Arg :=
  [boundArg 0 1 0 15, boundArg 1 1 0 2, boundArg 2 1 0 1, boundArg 4 2 1 65535]
    ++ (List.range 8).flatMap (fun c =>
      let o := 8 + 8 * c
      [boundArg o 4 0 262143, boundArg (o + 4) 4 0 262143,
        ruleArg (o + 4) 0 (decide (le a (o + 4) 4 < le a o 4))])

def cmdTrafficSetPause : CmdSpec where
  opcode := 0x0505
  lenOk := fixedLen 72
  args := pauseArgs
  legal := clsL
  run := fun _ a s =>
    let p := byteAt a 0
    let mode : FlowMode := match byteAt a 1 with
      | 0 => .off
      | 1 => .pause
      | _ => .pfc
    let marks := fun (o : Nat) => (List.range 8).foldl (fun t c => tset 0 t c (le a (8 + 8 * c + o) 4)) []
    let s0 := if mode == (pauseOf s p).mode then s else forEach (List.range 8) (countPaused p) s
    let s1 := modPause p (fun x => { x with
      mode := mode, obey := byteAt a 2 == 1, quanta := le a 4 2, high := marks 0, low := marks 4
      xoff := if mode == x.mode then x.xoff else 0
      until_ := if mode == x.mode then x.until_ else []
      since := if mode == x.mode then x.since else [] }) s0
    done (checkAccounts p (List.range 8) (if (pauseOf s p).xoff.toNat ≠ 0 && mode != (pauseOf s p).mode then noteIdle p s1 else s1))

/-- TRAFFIC_SET_PAUSE (R259): the marks are compared with the accounts as they stand. -/
def execTrafficSetPause (n : Fin 16) (s : State) : Answer := .next (takeUp cmdTrafficSetPause n s)

/-- XOFF_REFRESH (R261): QUANTA / 2 pause units after the last XOFF of the class; one frame carries every
class whose refresh falls due by then. -/
def execXoffRefresh (p : Fin 16) (c : Fin 8) (s : State) : Answer :=
  let x := pauseOf s p
  if x.mode != .off && bit x.xoff.toNat c && portOpen s p then
    let half := pausePs s p x.quanta / 2
    let s1 := passTo (tget 0 x.sentAt c + half) s
    let l := (setBits 8 x.xoff.toNat).filter (fun k => k == c.val || decide (tget 0 x.sentAt k + half ≤ s1.now))
    let s2 := bump (ck 271 16 p) 1 (modPause p (fun x => { x with
      sentAt := l.foldl (fun t k => tset 0 t k s1.now) x.sentAt }) s1)
    .next (sendFlow p l x.quanta s2)
  else .next s

/-- PAUSE_TIMER_EXPIRY (R262): the next of the port's pause timers runs out. -/
def execPauseTimerExpiry (p : Fin 16) (s : State) : Answer :=
  let x := pauseOf s p
  match x.until_ with
  | [] => .next s
  | e :: rest =>
    let t := rest.foldl (fun m f => min m f.2) e.2
    let s1 := passTo t s
    .next (forEach (List.range 8) (fun c s =>
      let u := tget 0 (pauseOf s p).until_ c
      if u ≠ 0 ∧ u ≤ s.now then reloadPause p c 0 s else s) s1)

/-! ### Gate lists (R264 to R267) -/

def gateArgs (a : Bytes) : List Arg :=
  let n := le a 2 2
  let t := le a 0 2
  [rangeArg 0 2 (fun v => if bit v 15 then decide (fld v 0 14 ≤ 0x3FEF) else true),
    { off := if bit t 15 then 1 else 0, len := 1
      bad := fun _ => if bit t 15 then (if bit t 14 then stFormat else 0)
        else if fld t 4 11 = 0 then 0 else stFormat },
    boundArg 2 2 0 256, boundArg 4 4 1000 1000000000,
    { off := 8, len := 2, bad := fun v => if v = 0 then 0 else stFormat },
    boundArg 10 4 0 999999999, anyArg 14 6]
    ++ (List.range n).map (fun i => rangeArg (24 + 4 * i) 4 (fun v => decide (fld v 0 24 ≥ 16)))

/-- The entries of a gate list's arguments (R264). -/
def gateEntries (a : Bytes) : List (Byte × Nat) :=
  (List.range (le a 2 2)).map (fun i =>
    let w := le a (24 + 4 * i) 4
    (BitVec.ofNat 8 (fld w 24 8), fld w 0 24))

def cmdTrafficSetGate : CmdSpec where
  opcode := 0x0506
  lenOk := countedLen 24 4 (fun a => le a 2 2)
  args := gateArgs
  legal := clsL
  run := fun _ a s =>
    let base := le a 14 6 * 1000000000 + le a 10 4
    let cycle := le a 4 4
    let sw := switchInstant s base cycle
    let list : Option GateList := if le a 2 2 = 0 then none
      else some { base := base, cycle := cycle, entries := gateEntries a }
    doneWith (leBytes 12 (nsWord sw)) (rewriteItem 3 (item 3 (le a 0 2))
      (modGate (le a 0 2) (fun x => { x with pending := some (list, sw) }) s))

/-- TRAFFIC_SET_GATE (R264, R266). -/
def execTrafficSetGate (n : Fin 16) (s : State) : Answer := .next (takeUp cmdTrafficSetGate n s)

/-- The target's list runs: a client port, or an allocation that the terminal holds (R461). -/
def gateTargetLive (s : State) (t : Nat) : Bool :=
  !bit t 15 || (allocOf s (fld t 0 14)).isSome

/-- GATE_CHANGE (R265): the next boundary of the list in force. -/
def execGateChange (target : Word16) (s : State) : Answer :=
  match (gateOf s target.toNat).active with
  | none => .next s
  | some g =>
    let s0 := awaitReplica target.toNat s
    let s1 := match nextBoundary g (nowNs s0) with
      | some t => passMain (t * fracNs) s0
      | none => s0
    .next (modGate target.toNat (fun x => { x with gates := liveGates s1 target.toNat x }) s1)

/-- GATE_LIST_SWITCH (R266, R267, R461): the pending list takes effect at S, and hold times restart. -/
def execGateListSwitch (target : Word16) (s : State) : Answer :=
  let t := target.toNat
  match (gateOf s t).pending with
  | none => .next s
  | some (list, sw) =>
    if gateTargetLive s t then
      let s1 := passMain (sw * fracNs) (awaitReplica t s)
      let s2 := modGate t (fun x =>
        let y := { x with active := list, pending := none }
        { y with gates := liveGates s1 t y }) s1
      if bit t 15 then .next s2
      else
        .next (forEach ((List.range 8).map (8 * (t % 16) + ·)) (fun q s =>
          modQueue q (fun x => { x with hold := x.hold.map (fun _ => s.now) }) s)
          (bump (ck 271 49 (t % 16)) 1 s2))
    else .next s

/-! ### Sojourn and spill (R245, R248) -/

/-- A copy has stood in a queue longer than its limit. -/
def overSojourn (s : State) (q : Nat) (c : Copy) : Bool :=
  decide (sojournLimit s q ≠ 0) && decide (s.now - c.joined > sojournLimit s q)

/-- The first copy of one of a queue's lists, and the queue without it. -/
def firstOf (mine : Copy → Bool) : List Copy → Option (Copy × List Copy)
  | [] => none
  | c :: l => if mine c then some (c, l) else (firstOf mine l).map (fun e => (e.1, c :: e.2))

/-- The head of one of a queue's lists dropped when its sojourn exceeds the limit (R248). -/
def checkHead (q : Nat) (mine : Copy → Bool) (s : State) : State :=
  match firstOf mine (queueOf s q).pkts with
  | some (c, rest) =>
    if overSojourn s q c then
      dropResident q 0x45 c (modQueue q (fun x => { x with
        pkts := rest, hold := none, deficit := if rest.isEmpty then 0 else x.deficit }) s)
    else s
  | none => s

/-- A recirculation queue keeps a list for each slice; any other queue is one list (R237). -/
def sliceOwns (q k : Nat) (c : Copy) : Bool := !(decide (648 ≤ q) && decide (q < 656)) || c.pkt.slice == k

/-- SOJOURN_CHECK (R196, R237, R248): the head of each of the queue's lists is checked. -/
def execSojournCheck (q : Nat) (s : State) : Answer :=
  let s1 := checkHead q (sliceOwns q 0) s
  .next (if 648 ≤ q ∧ q < 656 then checkHead q (sliceOwns q 1) s1 else s1)

/-- The first spilled copy of a queue, where the prefetch, with it, stays within 64 cells and the free list
holds its cells (R245). -/
def readBack (s : State) (l : List Copy) : Option (List Copy × Copy × List Copy) :=
  match l.findIdx? (·.spilled) with
  | none => none
  | some i =>
    match l.drop i with
    | c :: rest =>
      if cellsIn (l.filter (·.prefetched)) + c.cells ≤ 64 ∧ c.cells ≤ s.tm.free then
        some (l.take i, c, rest)
      else none
    | [] => none

/-- SPILL_READBACK (R245): one packet is read back in queue order into on-die cells. -/
def execSpillReadback (q : Nat) (s : State) : Answer :=
  match readBack s (queueOf s q).pkts with
  | none => .next s
  | some (front, c, rest) =>
    let fid := s.tm.nextFid
    let d := { c with spilled := false, prefetched := true, pkt := { c.pkt with fid := fid } }
    let s0 := ownEvent 22 3 c.cells (crossCells (linkNo 15 1) (cellEntries c.cells) c.cells s)
    let s1 := { s0 with tm := { s0.tm with
      free := s.tm.free - c.cells, spillFree := s.tm.spillFree + c.cells, nextFid := fid + 1
      refs := tset {} s.tm.refs fid { copies := 1, cells := c.cells } } }
    .next (modQueue q (fun x => { x with pkts := front ++ d :: rest }) s1)

/-! ### Histograms and counters (R243, R255, R269 to R271, R461) -/

def histogramArgs (a : Bytes) : List Arg :=
  let most := match byteAt a 1 with
    | 0 => 1023
    | 1 => 15
    | _ => 0x3FEF
  [boundArg 0 1 0 63, boundArg 1 1 0 2, boundArg 2 2 0 most]

def cmdTrafficSetHistogram : CmdSpec where
  opcode := 0x0507
  lenOk := fixedLen 4
  args := histogramArgs
  legal := clsL
  run := fun _ a s =>
    let h : Hist := { source := some (byteAt a 1, le a 2 2), bins := [] }
    done { s with tm := { s.tm with hists := tset {} s.tm.hists (byteAt a 0) h } }

/-- TRAFFIC_SET_HISTOGRAM (R270): repointing zeroes it. -/
def execTrafficSetHistogram (n : Fin 16) (s : State) : Answer :=
  .next (takeUp cmdTrafficSetHistogram n s)

/-- Counters of a rule's rows for a unit, 8 bytes each. -/
def counterBytes (s : State) (keys : List Nat) : Bytes :=
  keys.flatMap (fun k => leBytes 8 (s.count k))

/-- The counters of a queue in the order of R243, then the marks of R269. -/
def queueKeys (q : Nat) : List Nat :=
  (List.range 60).map (fun r => ck 243 r q) ++ [ck 269 0 q, ck 269 1 q]

def trafficKeys (kind n : Nat) : List Nat :=
  if kind = 0 then queueKeys n
  else if kind = 1 then (List.range 6).map (fun r => ck 255 r n)
  else (List.range 50).map (fun r => ck 271 r n)

def cmdTrafficRead : CmdSpec where
  opcode := 0x0508
  lenOk := fixedLen 4
  args := fun a =>
    let most := match byteAt a 0 with
      | 0 => 1023
      | 1 => 8191
      | _ => 15
    [boundArg 0 1 0 2, boundArg 2 2 0 most]
  legal := clsQ
  run := fun _ a s =>
    let n := le a 2 2
    let t := if byteAt a 0 = 2 then forEach (List.range 8) (countPaused n) s else s
    let data := counterBytes t (trafficKeys (byteAt a 0) n)
    doneWith data (if byteAt a 0 = 0 then setCount (ck 269 0 n) 0 (setCount (ck 269 1 n) 0 t) else t)

/-- TRAFFIC_READ (R461): the marks of a queue clear as they are read (R9, R269); the time a port's classes
have stood paused is counted up to the read (R271). -/
def execTrafficRead (n : Fin 16) (s : State) : Answer := .next (takeUp cmdTrafficRead n s)

def cmdTrafficReadHistogram : CmdSpec where
  opcode := 0x0509
  lenOk := fixedLen 1
  args := fun _ => [boundArg 0 1 0 63]
  legal := clsQ
  run := fun _ a s =>
    let h := tget ({} : Hist) s.tm.hists (byteAt a 0)
    doneWith ((List.range 32).flatMap (fun i => leBytes 8 (tget 0 h.bins i))) s

/-- TRAFFIC_READ_HISTOGRAM (R270, R461). -/
def execTrafficReadHistogram (n : Fin 16) (s : State) : Answer :=
  .next (takeUp cmdTrafficReadHistogram n s)

end Sys2Proof.Machine
end

