-- ==== Sys2Proof/Machine/ResetOps.lean ====
section
/-! DEFINITION. Firmware slots and images (R561 to R566), the starts of replays (R556 to R558), and the cold and
the warm reset (R601 to R603), which the supply, device, alarm and maintenance steps share. -/

namespace Sys2Proof.Machine

open Sys2Proof

/-! ### Flash slots (R561 to R565) -/

def slotImage (s : State) (k : Nat) : Bytes := (tget ({} : Slot) s.mnt.slots k).image

/-- The states of a control sector by their codes (R564). -/
def slotStates : List SlotState := [.stored, .trial, .trying, .confirmed, .failed]

/-- The code of a control sector's state. -/
def SlotState.code : SlotState → Nat
  | .stored => 0 | .trial => 1 | .trying => 2 | .confirmed => 3 | .failed => 4

/-- A control sector's magic, generation and state (R564). -/
def sectorBody (generation : Nat) (st : SlotState) : Bytes :=
  leBytes 4 0x7440C5EC ++ leBytes 4 generation ++ leBytes 1 st.code ++ [0, 0, 0]

/-- A control sector as it is written. -/
def sectorBytes (generation : Nat) (st : SlotState) : Bytes :=
  sectorBody generation st ++ leBytes 4 (crc32c (sectorBody generation st)).toNat

/-- Generation and state of a control sector; none where its magic, its CRC or its state is bad (R564). -/
def readSector (b : Bytes) : Option (Nat × SlotState) :=
  if le b 0 4 = 0x7440C5EC ∧ le b 12 4 = (crc32c (fit 12 b)).toNat then
    (slotStates[byteAt b 8]?).map (fun st => (le b 4 4, st))
  else none

def slotControl (s : State) (k : Nat) : Option (Nat × SlotState) :=
  readSector (tget ({} : Slot) s.mnt.slots k).sector

def modSlot (k : Nat) (f : Slot → Slot) (s : State) : State :=
  { s with mnt := { s.mnt with slots := tset {} s.mnt.slots k (f (tget {} s.mnt.slots k)) } }

/-- Version word of the image in a slot (R562). -/
def slotVersion (s : State) (k : Nat) : Nat := le (slotImage s k) 4 4

/-- The fused security epoch (R566). -/
def fusedEpoch (s : State) : Nat := min 64 (Config.fusedEpoch + s.mnt.epochBlown)

/-- Greatest body length: an image of 65,472 KiB less its header (R561, R562). -/
def imageMax : Nat := 65472 * 1024

/-- The checks of R563 on an image. -/
def authentic (s : State) (img : Bytes) : Bool :=
  let body := (img.drop 512).take (le img 12 4)
  le img 0 4 == 0x74401AA6 && le img 16 2 == 0x7440
    && decide (le img 12 4 + 512 ≤ imageMax)
    && decide (byteAt img 8 ≥ fusedEpoch s)
    && Config.ecdsaVerify (beBytes 96 Config.firmwareKey.toNat) (slice img 0 256) (slice img 256 96)
    && beBytes 48 (Config.sha384 body).toNat == slice img 64 48

/-! ### Starts of a replay (R556 to R558) -/

/-- A record from which a replay may start: the first part of a checkpoint, or a reset marker; so many bytes of
further parts follow it. -/
def amberStart (typ : Nat) (payload : Bytes) (rest : Nat) (s : State) : State :=
  let s1 := amberSkip s
  let start := (s1.mnt.ringOffset, slotVersion s1 s1.mnt.slot)
  if s1.mnt.recorder == .running then
    let s2 := putRecord typ false payload s1
    { s2 with mnt := { s2.mnt with
      starts := start :: s2.mnt.starts, ringOffset := s2.mnt.ringOffset + rest
      recSeq := s2.mnt.recSeq + BitVec.ofNat 32 (rest / 4096) } }
  else { s1 with mnt := { s1.mnt with gap := s1.mnt.gap + 1 } }

/-! ### What every reset leaves outside the device -/

/-- The counters of power domain 0 that only a power-on restarts (R612). -/
def domainZeroCounts (t : Tab Nat) : Tab Nat := t.filter (fun e => isPowerZero e.1)

/-- The accepted levels of the pins of the optics stand as they are. -/
def pinLevels (s : State) : Tab ActChan :=
  (List.range 4).foldl (fun t c => tset {} t c { txFault := (actOf s c).txFault, txPin := (actOf s c).txPin }) []

/-- The device with nothing but what lies outside every rail: the model's own fields, the pins, the
flash, the fuses and the supply. -/
def blank (s : State) : State :=
  { pending := s.pending, now := s.now, fresh := s.fresh, out := s.out
    hif := { perst := s.hif.perst }
    cip := { failuresAt := s.now }
    prt := { since := s.now }
    fib := { act := pinLevels s }
    mnt := { slots := s.mnt.slots, epochBlown := s.mnt.epochBlown }
    sup := s.sup }

/-- A cold reset with its cause (R601, R602, R612, R616). -/
def coldReset (cause : Nat) (s : State) : State :=
  let b := blank s
  showPins s (bump (ck 612 3 cause) 1 { b with
    cnt := domainZeroCounts s.cnt
    dev := { b.dev with cause := BitVec.ofNat 8 cause, previous := 0 } })

/-! ### Warm reset (R603, R607, R437; log entry 18) -/

def warmDev (cause : Nat) (s : State) : Dev :=
  { state := .loading, selected := s.dev.selected, inForce := s.dev.inForce
    alarmLatch := s.dev.alarmLatch, alarmNow := s.dev.alarmNow, erasing := s.dev.erasing
    lockstep := false, cause := BitVec.ofNat 8 cause, previous := s.dev.cause
    released := true, releasedAt := s.dev.releasedAt, warm := true
    pendingMask := BitVec.ofNat 16 (maskOf ((List.range 16).filter (isPending s))) }

/-- A packet ring's configuration is kept, disabled. -/
def ringsOff (t : Tab Ring) : Tab Ring :=
  (List.range 4).foldl (fun t r => tset {} t r { tget {} t r with enable := false }) t

def warmHif (s : State) : Hif :=
  { busMaster := s.hif.busMaster, d3hot := s.hif.d3hot, linkUp := s.hif.linkUp, perst := s.hif.perst
    rx := ringsOff s.hif.rx, tx := ringsOff s.hif.tx
    journal := s.hif.journal, jrnHead := s.hif.jrnHead, snap := s.hif.snap, dumpGen := s.hif.dumpGen
    sensorFail := s.hif.sensorFail, refLoss := s.hif.refLoss }

/-- The host's settings of a channel. -/
def warmAct (x : ActChan) : ActChan :=
  { silenced := x.silenced, activate := x.activate, txEnable := x.txEnable, benLow := x.benLow
    benSet := x.benSet
    txOn := x.txEnable, txFault := x.txFault, txPin := x.txPin }

/-- The host's settings of a channel unit; a member waits to take part (R94). -/
def warmRx (s : State) (c : Nat) : RxChan :=
  let m := bit s.fib.bond.members.toNat c
  { expLabel := (rxOf s c).expLabel, expChan := (rxOf s c).expChan
    reserved := if m then 10125 else 0, joining := m }

/-- A group keeps its channels and its epoch table, without any root (R304, R491). -/
def warmGroup (x : Group) : Group :=
  { mask := x.mask, epoch := x.epoch, entry1 := x.entry1, entry2 := x.entry2, upIndex := x.upIndex }

def warmFib (s : State) : Fib :=
  let b := s.fib.bond
  { rx := (List.range 4).foldl (fun t c => tset {} t c (warmRx s c)) []
    bond := { members := b.members, working := b.working, standby := b.standby }
    ports := s.fib.ports
    act := (List.range 4).foldl (fun t c => tset {} t c (warmAct (actOf s c))) []
    groups := (List.range 4).foldl (fun t g =>
      tset ({} : Group) t g (warmGroup (groupOf s g))) []
    heKey := s.fib.heKey, policy := s.fib.policy }

/-- Queue lists wait for their allocations again (R118, R456). -/
def warmUp (s : State) : Up :=
  { storedLists := s.up.allocs.foldl (fun t a =>
      if a.list.isEmpty then t else tset none t a.id (some a.list)) s.up.storedLists
    queues := s.up.queues }

/-- The tag of the current rule version. -/
def currentTag (s : State) : Nat :=
  ((List.range 8).find? (fun k => tget TagState.free s.cls.tags k == .current)).getD 0

/-- The current version's entries, counters at zero (R195). -/
def warmRules (s : State) : Tab (Option Rule) :=
  let k := currentTag s
  s.cls.rules.filterMap (fun e => match e.2 with
    | some r =>
      if r.versions.getLsbD k then
        some (e.1, some { r with versions := BitVec.ofNat 8 (2 ^ k), pkts := 0, bytes := 0 })
      else none
    | none => none)

def warmCls (s : State) : Cls :=
  { load := s.cls.store, store := s.cls.store, nodes := s.cls.nodes, pos := s.cls.pos
    comparators := s.cls.comparators, rules := warmRules s
    tags := tset TagState.free [] (currentTag s) .current, trap := s.cls.trap }

def warmTables (s : State) : Tables :=
  { em := s.tab.em.map (fun e => (e.1, e.2.map (fun x => { x with age := 3, pkts := 0, bytes := 0 })))
    profiles := s.tab.profiles, agingS := s.tab.agingS, limits := s.tab.limits, aged := s.tab.aged
    nextAged := s.tab.nextAged, tokensAt := s.now, ports := s.tab.ports, vlans := s.tab.vlans }

/-- A shaper from its shadow: the descriptor last written, its credit at BURST (R257, R258, R272). -/
def warmShaper (x : Shaper) : Shaper :=
  let d := x.pending.getD x.desc
  { desc := d, credit := shapeBurst d.toNat * 2 ^ 32 }

def warmTm (s : State) : Tm :=
  { free := 262144 - 10125 * popCount 4 s.fib.bond.members.toNat
    nextFid := s.tm.nextFid
    queues := s.tm.queues.map (fun e => (e.1, { desc := e.2.desc }))
    policers := s.tm.policers.map (fun e => (e.1, polFull e.2.desc.toNat (tickNo s)))
    shapers := s.tm.shapers.map (fun e => (e.1, warmShaper e.2))
    pause := s.tm.pause.map (fun e => (e.1, ({
      mode := e.2.mode, obey := e.2.obey, quanta := e.2.quanta, high := e.2.high
      low := e.2.low } : PauseCfg)))
    gates := s.tm.gates, hists := s.tm.hists }

/-- Slots from the shadow; Propolis holds no root (R304). -/
def warmCipher (s : State) : Cipher :=
  { slots := s.cip.slots, registrations := s.cip.registrations, failuresAt := s.now }

/-- Beryl runs on; what is in flight on its pins and in its queues is lost (R579, R603). -/
def warmTime (s : State) : Time :=
  let t := s.time
  { t with
    a := { t.a with pending := none, everLocked := false }, b := { t.b with pending := none, everLocked := false }
    fibre := { t.fibre with captures := [] }
    ppsHeld := true, lastPps := none, todDue := none, edgeAt := none, lastEdge := none
    slave := none, txStamps := [], lostTags := [] }

def warmPorts (s : State) : Ports :=
  { port := s.prt.port.map (fun e => (e.1, ({ desc := e.2.desc, filters := e.2.filters } : Port)))
    base := s.prt.base, since := s.now }

/-- A lane with its descriptor, its taps at the start values (R376). -/
def freshLane (d : Word64) : Lane :=
  { desc := d, liveTaps := d.extractLsb' 12 30, startTaps := d.extractLsb' 12 30 }

def warmPower (s : State) : Power :=
  { changed := s.now, railsUp := true, levelAt := s.now
    banks := tset ({} : Bank) [] 23 { bankOf s 23 with retained := true, crc := crc32e (bankWords s 23) }
    sensors := s.pow.sensors, throttle := s.pow.throttle }

/-- What the observability island, bank group 23 and region 13 keep. -/
def warmObs (s : State) : Obs :=
  { cycles := s.obs.cycles, counters := s.obs.counters
    dumpPeriod := s.obs.dumpPeriod, dumpHost := s.obs.dumpHost, dumpAddr := s.obs.dumpAddr
    dumpBytes := s.obs.dumpBytes, dumpGenNext := s.obs.dumpGenNext, dumpSkipped := s.obs.dumpSkipped
    dumps := s.obs.dumps, auditAt := s.obs.auditAt, offsets := s.obs.offsets
    audit := s.obs.audit, bridges := s.obs.bridges, flight := s.obs.flight, rebase := s.obs.rebase
    resetLossDue := true }

/-- After every reset Amber runs, with a gap record due where it was stopped (R555, R557). -/
def warmMaint (s : State) : Maint :=
  { s.mnt with
    fallback := false, recorder := .running, gapDue := s.mnt.gapDue || s.mnt.recorder != .running
    optics := [], seed := 0, seedAt := s.now, checkAt := s.now, checkDue := false, jtag := .idcode }

/-- Marks that are cleared with the queues they describe. -/
def warmCounts (t : Tab Nat) : Tab Nat :=
  t.filter (fun e => !(decide (ck 269 0 0 ≤ e.1) && decide (e.1 < ck 270 0 0)))

/-- What a warm reset leaves of a state in which everything has stopped (R603). -/
def warmState (dev : Dev) (s : State) : State :=
  { pending := s.pending, now := s.now, fresh := s.fresh, out := s.out
    cnt := warmCounts s.cnt, dev := dev, hif := warmHif s, fib := warmFib s
    up := warmUp s, cls := warmCls s, tab := warmTables s, tm := warmTm s
    cip := warmCipher s, time := warmTime s, prt := warmPorts s
    lan := s.lan.map (fun e => (e.1, freshLane e.2.desc)), pow := warmPower s
    obs := warmObs s, mnt := warmMaint s, sup := s.sup }

/-- The times that run at a port are counted up to the reset (R369, R398, R607). -/
def endTimes (p : Nat) (s : State) : State :=
  let x := portOf s p
  let s1 := if x.link then s else bump (ck 369 46 p) ((s.now - max x.linkAt s.prt.since) / 1000000000) s
  let s2 := if x.txLpi then bump (ck 369 63 p) ((s.now - x.lpiAt) / 1000000) s1 else s1
  if x.rxLpi then bump (ck 369 65 p) ((s.now - x.rxLpiAt) / 1000000) s2 else s2

/-- What a reset order stops at once, the time of a pause that runs being counted (R271, R404, R579, R607). -/
def stopAll (s : State) : State :=
  leaveSleep (passEdge (settleGrants (stopDma (forEach (List.range 128) (fun i s => countPaused (i / 8) (i % 8) s) (forEach (List.range 16) endTimes (forEach (List.range 21) endLos s))))))

/-- A warm reset with its cause; while one runs, a further order is ignored and counted (R609). -/
def warmReset (cause : Nat) (s : State) : State :=
  if s.dev.warm then bump (ck 612 6 0) 1 s
  else
    let s0 := stopAll s
    let s1 := bump (ck 495 2 s0.pow.state.code) ((s0.now - s0.pow.changed) / 1000000)
      (bump (ck 495 18 s0.pow.level) ((s0.now - s0.pow.levelAt) / 1000000) s0)
    showPins s1 (bump (ck 612 3 cause) 1 (warmState (warmDev cause s) s1))

end Sys2Proof.Machine
end

