-- ==== Sys2Proof/Machine/ReleaseOps.lean ====
section
/-! DEFINITION. MACsec on a client port (R297, R363 to R366) and the release of cipher results to their
sources (R277, R281, R293, R298). -/

namespace Sys2Proof.Machine

open Sys2Proof

/-! ### SecTAG (IEEE 802.1AE; log entry 21) -/

/-- A SecTAG as received. -/
structure SecTag where
  an : Nat
  encrypted : Bool
  changed : Bool
  sci : Option Word64
  pn : Nat
  short : Nat
  /-- Bytes from the destination address to the end of the SecTAG. -/
  head : Nat

/-- Steps 1 and 2 of R364: the tag, or the drop reason. -/
def readTag (b : Bytes) : Except Nat SecTag :=
  if be b 12 2 ≠ 0x88E5 then .error 0x63
  else
    let tci := byteAt b 14
    let withSci := bit tci 5
    let head := 12 + 8 + 8 * b2n withSci
    let sl := byteAt b 15
    let room := b.length - (head + 20)
    let padded := b.length == 64
    let slOk := if sl = 0 then decide (48 ≤ room)
      else decide (sl < 48) && (sl == room || (padded && decide (sl ≤ room)))
    if bit tci 7 || (withSci && (bit tci 6 || bit tci 4)) || decide (b.length < head + 20) || !slOk
        || be b 16 4 == 0 || bit tci 3 != bit tci 2 then .error 0x64
    else .ok {
      an := tci % 4, encrypted := bit tci 3, changed := bit tci 2
      sci := if withSci then some (BitVec.ofNat 64 (be b 20 8)) else none
      pn := be b 16 4, short := if sl = 0 then room else sl, head := head }

/-- The receive channel a SecTAG names: by SCI, or the only one (R363). -/
def findSc (m : Macsec) (sci : Option Word64) : Option (Nat × RxSc) :=
  let all := (List.range 3).filterMap (fun i => (tget none m.rx i).map (fun c => (i, c)))
  match sci with
  | some w => all.find? (fun c => c.2.sci == w)
  | none =>
    match all with
    | [c] => some c
    | _ => none

def findSa (l : List Sa) (an : Nat) : Option Sa := l.find? (fun a => a.an == an)

/-- The 64-bit packet number of a received one under XPN (IEEE 802.1AE). -/
def recoverPn (xpn : Bool) (lowest pn : Nat) : Nat :=
  if !xpn then pn
  else
    let hi := lowest / 2 ^ 32
    if pn < lowest % 2 ^ 32 ∧ bit lowest 31 ∧ !bit pn 31 then (hi + 1) * 2 ^ 32 + pn
    else hi * 2 ^ 32 + pn

/-- The IV of R297. -/
def macsecIv (s : State) (m : Macsec) (sci : Word64) (root pn : Nat) : BitVec 96 :=
  if m.xpn then Config.xpnMask (rootOf s root) sci ^^^ BitVec.ofNat 96 pn
  else BitVec.ofNat 96 (sci.toNat * 2 ^ 32 + pn % 2 ^ 32)

/-- The counter of R369 for a MACsec drop reason of a received frame. -/
def macsecRow (reason : Nat) : Option Nat :=
  [(0x67, 69), (0x68, 70), (0x66, 71), (0x63, 72), (0x64, 73), (0x65, 74)].lookup reason

/-- A received frame dropped for MACsec, counted at its port (R364, R369). -/
def dropMacsec (port reason : Nat) (p : Pkt) (s : State) : State :=
  dropPacket reason p (match macsecRow reason with
    | some r => bump (ck 369 r port) 1 s
    | none => s)

/-- Frames and bytes of an SA: transmit channel 0, receive channels 1 to 3 (R369). -/
def countSa (port sc an bytes : Nat) (s : State) : State :=
  let r := 79 + 2 * (4 * sc + an)
  bump (ck 369 (r + 1) port) bytes (bump (ck 369 r port) 1 s)

/-- Classes of destinations: 0 unicast, 1 multicast, 2 broadcast (R369). -/
def castOf (b : Bytes) : Nat :=
  if be b 0 6 = 0xFFFFFFFFFFFF then 2 else if bit (byteAt b 0) 0 then 1 else 0

/-- A frame that passed every check of R352. -/
def countGood (port : Nat) (b : Bytes) (s : State) : State :=
  bump (ck 369 (2 + castOf b) port) 1 (bump (ck 369 1 port) b.length (bump (ck 369 0 port) 1 s))

/-- A frame that waits for MACsec validation (R364). -/
def macsecReceive (port : Nat) (p : Pkt) (s : State) : State :=
  let m := macsecOf s port
  match readTag p.frame with
  | .error r => dropMacsec port r p s
  | .ok t =>
    match findSc m t.sci with
    | none => dropMacsec port 0x65 p s
    | some (sc, c) =>
      match findSa c.sas t.an with
      | none => dropMacsec port 0x66 p s
      | some a =>
        let pn := recoverPn m.xpn a.lowest t.pn
        if pn < a.lowest then dropMacsec port 0x67 p s
        else
          let clear := if t.encrypted then min m.offset t.short else t.short
          let text := slice p.frame (t.head + clear) (t.short - clear)
          let tag := be p.frame (t.head + t.short) 16
          let q := { p with frame := p.frame.take 12 ++ slice p.frame t.head clear }
          offerRequest (2 + port / 4) (rootSlot a.root) 0 .decrypt (p.frame.take (t.head + clear)) text
            (macsecIv s m c.sci a.root pn) (BitVec.ofNat 128 tag) (.macsecIn port q sc t.an pn) s

/-- Bytes that MACsec adds at egress (R257, R365). -/
def macsecAdds (m : Macsec) : Nat := 24 + 8 * b2n m.withSci

/-- The last packet number of a suite, and the one at which rekeying starts (R365). -/
def lastPn (m : Macsec) : Nat := if m.xpn then 2 ^ 64 - 1 else 2 ^ 32 - 1

def rekeyPn (m : Macsec) : Nat := if m.xpn then 2 ^ 62 else 0xC0000000

/-- The transmit SA in use, where it has a packet number left (R365). -/
def txSa (m : Macsec) : Option Sa := (m.tx.find? (·.inUse)).filter (fun a => decide (a.nextPn ≤ lastPn m))

/-- A frame that leaves is sent for protection, to come back for ref; none where no SA serves (R365). -/
def macsecSend (port : Nat) (ref : CipherRef) (clearFrame : Bytes) (s : State) : Option State :=
  let m := macsecOf s port
  match txSa m with
  | none => none
  | some a =>
    let tci := 32 * b2n m.withSci + 12 * b2n (!m.integrityOnly) + a.an
    let data := (clearFrame.drop 12).take (clearFrame.length - 16)
    let sl := if data.length < 48 then data.length else 0
    let sciPart := if m.withSci then beBytes 8 m.sci.toNat else []
    let head := clearFrame.take 12 ++ beBytes 2 0x88E5 ++ beBytes 1 tci ++ beBytes 1 sl
      ++ beBytes 4 (a.nextPn % 2 ^ 32) ++ sciPart
    let clear := if m.integrityOnly then data.length else min m.offset data.length
    let bumpPn := fun (x : Sa) => if x.inUse then { x with nextPn := x.nextPn + 1 } else x
    let s1 := modMacsec port (fun m => { m with tx := m.tx.map bumpPn }) s
    let s2 := if a.nextPn = rekeyPn m then injectFrame port { kind := .mka } s1 else s1
    let s3 := bump (ck 369 77 port) data.length (bump (ck 369 (75 + b2n (!m.integrityOnly)) port) 1 s2)
    some (offerRequest (6 + port / 4) (rootSlot a.root) 0 .encrypt (head ++ data.take clear)
      (data.drop clear) (macsecIv s m m.sci a.root a.nextPn) 0 ref
      (countSa port 0 a.an clearFrame.length s3))

/-! ### What a result does at its source (R281) -/

/-- The replay check after a verified ICV (R364). -/
def replayFault (a : Option Sa) (pn : Nat) : Option Nat :=
  match a with
  | none => some 0x66
  | some a => if pn < a.lowest ∨ a.seen.contains pn then some 0x67 else none

/-- The replay window updated by an accepted packet number. -/
def acceptPn (window pn : Nat) (a : Sa) : Sa :=
  let next := max a.nextPn (pn + 1)
  let low := max a.lowest (next - window)
  { a with nextPn := next, lowest := low
           seen := (pn :: a.seen).filter (fun n => decide (low ≤ n)) }

/-- Ingress MACsec (R364). -/
def releaseMacsecIn (port : Nat) (p : Pkt) (sc an pn pipe status : Nat) (out : Bytes) (s : State) : State :=
  if status ≠ 0 then dropMacsec port (failReason (2 + port / 4) status) p s
  else
    let m := macsecOf s port
    let sa := (tget none m.rx sc).bind (fun c => findSa c.sas an)
    match replayFault sa pn with
    | some r => dropMacsec port r p s
    | none =>
      let upd := fun (c : RxSc) => { c with
        sas := c.sas.map (fun a => if a.an = an then acceptPn m.window pn a else a) }
      let body := p.frame ++ out
      let frame := body ++ fcsBytes body
      let s1 := countSa port (sc + 1) an frame.length (bump (ck 369 66 port) 1 (countGood port frame s))
      let s2 := bump (ck 369 (67 + b2n (decide (out.length > 0))) port) (frame.length - 16) s1
      toSlice { p with frame := frame, decrypted := true, held := some (pipe, nowNs s % 2 ^ 32) }
        (modMacsec port (fun m => { m with rx := tset none m.rx sc ((tget none m.rx sc).map upd) }) s2)

/-- Egress MACsec: the frame leaves protected, or is dropped (R281, R365). -/
def releaseMacsecOut (port : Nat) (req : CipherReq) (status : Nat) (out : Bytes) (s : State) : State :=
  match tget none s.tm.leaving port with
  | none => s
  | some l =>
    if status ≠ 0 then abandonLeaving port (failReason (6 + port / 4) status)
      (if status = 4 then s else bump (ck 369 78 port) 1 s)
    else
      let body := req.aad ++ out
      let (t, s1) := stampOn (10 + port / 4) s
      let done := { l with bytes := body ++ fcsBytes body, waiting := false, time := stampWord t }
      { s1 with tm := { s1.tm with leaving := tset none s1.tm.leaving port (some done) } }

/-- Upstream staging (R120, R291): the frame is ready, or it is discarded. -/
def releaseUpstream (id : Nat) (req : CipherReq) (status : Nat) (out : Bytes) (s : State) : State :=
  match (allocOf s id).bind (fun a => a.staging.find? (fun f => !f.ready && f.ticket == req.seq)) with
  | none => s
  | some f =>
    let mine := fun (g : Staged) => !g.ready && g.ticket == req.seq
    if status = 0 then
      modAlloc id (fun a => { a with
        staging := a.staging.map (fun g => if mine g then { g with image := out, ready := true } else g) }) s
    else
      dropStaged (failReason 1 status) f.pkt
        (modAlloc id (fun a => { a with staging := a.staging.filter (fun g => !mine g) }) s)

/-- Fibre downstream: the frame closes with a fresh FCS, or is dropped (R281, R291). -/
def releaseFibre (r : Reasm) (pipe status : Nat) (out : Bytes) (s : State) : State :=
  if status = 0 then
    let frame := out ++ fcsBytes out
    toSlice { fibrePkt s r frame with held := some (pipe, nowNs s % 2 ^ 32) } s
  else discardFrame (failReason 0 status) r s

/-- The bin of a frame length (R369). -/
def lengthBin (n : Nat) : Nat :=
  if n < 64 then 0 else if n = 64 then 1 else if n < 128 then 2 else if n < 256 then 3
  else if n < 512 then 4 else if n < 1024 then 5 else if n ≤ 1518 then 6 else if n < 2048 then 7
  else if n < 4096 then 8 else if n ≤ 9216 then 9 else 10

/-- A frame counted as transmitted (R369). -/
def countSent (p len castRow : Nat) (s : State) : State :=
  bump (ck 369 (30 + lengthBin len) p) 1
    (bump (ck 369 castRow p) 1 (bump (ck 369 25 p) len (bump (ck 369 24 p) 1 s)))

/-- A Sync and a Delay_Req ask for their transmit timestamp (R329, R333). -/
def asksStamp (f : OwnFrame) : Bool := f.ptp == some .sync || f.ptp == some .delayReq

/-- The transmit timestamp of a frame of Knarrasar's own, taken on the port's island (R330, R333). -/
def ownStamp (p : Nat) (f : OwnFrame) (s : State) : State :=
  if asksStamp f then
    let (t, s1) := stampOn (10 + p / 4) s
    pushStamp p { knarrasar := true, tag := s.time.ownTag.toNat, outcome := 0, reason := 0
                  time := BitVec.ofNat 96 (stampWord t) }
      { s1 with time := { s1.time with ownTag := s1.time.ownTag + 1 } }
  else s

/-- An injected frame of n bytes leaves (R358, R369). -/
def putOwn (p : Nat) (f : OwnFrame) (b : Bytes) (s : State) : State :=
  noteIdle p (ownStamp p f (onWire p (.protocol f p b s.time.ptpDomain)
    (bump (ck 369 29 p) 1 (countSent p (b.length + 4) 27 s))))

/-- A protocol frame comes back protected, and leaves (R365). -/
def releaseOwn (port : Nat) (f : OwnFrame) (req : CipherReq) (status : Nat) (out : Bytes) (s : State) : State :=
  if status = 0 then putOwn port f (req.aad ++ out) s
  else if status = 4 then s
  else bump (ck 369 78 port) 1 s

/-- The frame of a request whose data hold an uncorrectable word is discarded; its result is never released (R298,
R507). -/
def loseRequest (r : CipherReq) (s : State) : State :=
  match r.ref with
  | .upstream id =>
    let mine := fun (g : Staged) => !g.ready && g.ticket == r.seq
    match (allocOf s id).bind (fun a => a.staging.find? mine) with
    | none => s
    | some f =>
      dropStaged 0x4A f.pkt (modAlloc id (fun a => { a with staging := a.staging.filter (fun g => !mine g) }) s)
  | _ => dropRequest 0x4A r s

/-- A result acts at its source. -/
def applyResult (r : Result) (s : State) : State :=
  if r.req.bad then loseRequest r.req s
  else match r.req.ref with
  | .fibreDown f => releaseFibre f r.pipe r.status r.bytes s
  | .upstream id => releaseUpstream id r.req r.status r.bytes s
  | .macsecIn port p sc an pn => releaseMacsecIn port p sc an pn r.pipe r.status r.bytes s
  | .macsecOut port => releaseMacsecOut port r.req r.status r.bytes s
  | .macsecOwn port f => releaseOwn port f r.req r.status r.bytes s
  | .hive => { s with cip := { s.cip with reported := some (r.req.seq, r.req.handle, r.status, r.bytes) } }

/-- Text bytes that a result holds in its hold buffer (R298). -/
def heldText (r : CipherReq) : Nat :=
  match r.op with
  | .decrypt => r.text.length
  | _ => 0

/-- The key of a slot's counters for a KEY_INDEX (R292, R293). -/
def counterKey (r : CipherReq) : Nat := r.slot * 4 + r.keyIdx.toNat

/-- N of a downstream image (R291). -/
def imageCounter (r : CipherReq) : Nat := r.iv.toNat % 2 ^ 32

/-- The check of R293 at release: the status that is returned, and the last accepted N. -/
def staleCheck (r : Result) (s : State) : Nat × State :=
  if r.req.source = 0 ∧ r.status = 0 then
    if imageCounter r.req > tget 0 s.cip.accepted (counterKey r.req) then
      (0, { s with cip := { s.cip with
        accepted := tset 0 s.cip.accepted (counterKey r.req) (imageCounter r.req) } })
    else (5, s)
  else (r.status, s)

/-- A failed check counted for its source (R300). -/
def countFailure (src status : Nat) (s : State) : State :=
  if status = 1 ∨ status = 5 then
    { s with cip := { s.cip with failures := tset 0 s.cip.failures src (tget 0 s.cip.failures src + 1) } }
  else s

/-- A result leaves its engine: its descriptor is free again, and its room in the hold buffer (R280, R298). -/
def freeService (r : Result) (s : State) : State :=
  if r.taken then
    let e := r.pipe / 2
    setFreeDescriptors e (freeDescriptors s e + 1)
      (modPipe r.pipe (fun p => { p with hold := p.hold - heldText r.req }) s)
  else s

/-- A result returned to its source, its status counted (R281, R305). -/
def returnResult (r : Result) (s : State) : State :=
  let s1 := freeService r s
  let (st, s2) := staleCheck r s1
  let s3 := bump (ck 305 (16 + st) (r.pipe * 16 + r.req.source)) 1 (countFailure r.req.source st s2)
  applyResult { r with status := st, bytes := if st = 0 then r.bytes else [] } s3

/-- Results of a source released while the next in its order is there (R277). -/
def releaseSource (src : Nat) : Nat → State → State
  | 0, s => s
  | n + 1, s =>
    let next := tget 0 s.cip.release src
    let l := tget [] s.cip.results src
    match l.find? (fun r => r.req.seq == next) with
    | none => s
    | some r =>
      let s1 := { s with cip := { s.cip with
        release := tset 0 s.cip.release src (next + 1)
        results := tset [] s.cip.results src (l.filter (fun r => r.req.seq != next)) } }
      releaseSource src n (returnResult r s1)

/-- A finished request waits for its turn, and what can be released is. -/
def finishRequest (r : Result) (s : State) : State :=
  let src := r.req.source
  let l := tget [] s.cip.results src ++ [r]
  releaseSource src l.length { s with cip := { s.cip with results := tset [] s.cip.results src l } }

/-! ### Erasure (R302, R303) -/

/-- Every request of the complex, and every result it holds, comes back as ERASED. -/
def eraseRequests (s : State) : State :=
  let fail := fun (taken : Bool) (p : Nat) (r : CipherReq) =>
    ({ req := r, status := 4, bytes := [], pipe := p, taken := taken } : Result)
  let inPipe := fun p =>
    (pipeOf s p).running.toList.map (fun r => { r with status := 4, bytes := [] })
      ++ (pipeOf s p).suspended.toList.map (fun r => { r with status := 4, bytes := [] })
      ++ (pipeOf s p).queue.map (fail true p)
  let flying := (List.range 16).flatMap inPipe
    ++ s.cip.waiting.flatMap (fun e => e.2.map (fail false ((pipesOf e.1).headD 0)))
  let add := fun (t : Tab (List Result)) (r : Result) =>
    tset [] t r.req.source (tget [] t r.req.source ++ [r])
  let stale := s.cip.results.map (fun e =>
    (e.1, e.2.map (fun r => { r with status := 4, bytes := [] })))
  let s1 := { s with cip := { s.cip with
    pipes := s.cip.pipes.map (fun e => (e.1, { e.2 with
      queue := [], running := none, suspended := none, saved := none, share := false, bulkWait := none }))
    waiting := [], results := flying.foldl add stale } }
  forEach (List.range 11) (fun src s => releaseSource src (tget [] s.cip.results src).length s) s1

/-- Slots, cache, epoch tables, counters and roots zeroed; the SAs and CAKs go with them. -/
def zeroKeys (s : State) : State :=
  let bare := fun (e : Nat × Group) => (e.1, ({ mask := e.2.mask, txSeq := e.2.txSeq } : Group))
  let quiet := fun (e : Nat × Macsec) => (e.1, { e.2 with tx := [], rx := [], ckn := [], mkaUp := false })
  { s with
    fib := { s.fib with groups := s.fib.groups.map bare }
    cip := { s.cip with
      slots := [], roots := [], cache := [], derivations := [], invocation := [], accepted := []
      macsec := s.cip.macsec.map quiet } }

end Sys2Proof.Machine
end

