-- ==== Sys2Proof/Machine/Cipher.lean ====
section
/-! DEFINITION. The cipher commands and the steps of the cipher complex (chapter 8, R462, R463). -/

namespace Sys2Proof.Machine

open Sys2Proof

/-! ### Key requests (R156, R294) -/

/-- A channel of a group that stands in F5, else its lowest. -/
def groupChannel (s : State) (g : Nat) : Nat :=
  let l := setBits 4 (groupOf s g).mask.toNat
  (l.find? (fun c => (actOf s c).act == .f5)).getD (l.headD 0)

/-- KEY_REQUEST queued for a group with its reason. -/
def requestKey (g reason : Nat) (s : State) : State :=
  queueMessage 0x44 g (groupChannel s g) (beBytes 4 (groupOf s g).epoch ++ beBytes 1 reason) s

/-! ### Commands -/

/-- The MACsec fields of CIPHER_SET_CAK and the roots that Propolis derives (R285, R463). -/
def writeCak (p : Nat) (ckn cak : Bytes) (s : State) : State :=
  let put := fun (r : Nat) (v : BitVec 256) s => replaceRoot r v s
  let s1 := put (136 + p) (BitVec.ofNat 256 (be cak 0 32))
    (put (152 + p) (Config.deriveIck cak ckn) (put (168 + p) (Config.deriveKek cak ckn) s))
  let s2 := writeSlot (rootSlot (152 + p)) (slotWord true (152 + p) 0 0) s1
  injectFrame p { kind := .mka } (modMacsec p (fun m => { m with ckn := ckn, mkaUp := true }) s2)

def cmdCipherSetCak (dma : Option Bytes) : CmdSpec where
  opcode := 0x0601
  lenOk := fixedLen 48
  args := fun _ => [boundArg 0 1 0 15, boundArg 1 1 1 32, anyArg 8 32, anyArg 40 8]
  legal := clsL
  run := fun _ a s =>
    match (if dmaOk s then dma else none) with
    | none => refuseFree stResource s
    | some cak => done (writeCak (byteAt a 0) (slice a 8 (byteAt a 1)) (fit 32 cak) s)

/-- CIPHER_SET_CAK (R285, R463): dma is what the read of the host's buffer returned. -/
def execCipherSetCak (n : Fin 16) (dma : Option Bytes) (s : State) : Answer :=
  .next (takeUp (cmdCipherSetCak dma) n s)

def cmdCipherSetMacsec : CmdSpec where
  opcode := 0x0602
  lenOk := fixedLen 16
  args := fun _ => [boundArg 0 1 0 15, boundArg 1 1 0 1,
    rangeArg 2 1 (fun v => v == 0 || v == 30 || v == 50), flagArg 3 2, boundArg 4 4 0 (2 ^ 30), anyArg 8 8]
  legal := clsL
  run := fun _ a s =>
    done (modMacsec (byteAt a 0) (fun m => { m with
      xpn := byteAt a 1 == 1, offset := byteAt a 2, withSci := bit (byteAt a 3) 0
      integrityOnly := bit (byteAt a 3) 1, window := le a 4 4, sci := BitVec.ofNat 64 (be a 8 8) }) s)

/-- CIPHER_SET_MACSEC (R363, R462). -/
def execCipherSetMacsec (n : Fin 16) (s : State) : Answer := .next (takeUp cmdCipherSetMacsec n s)

def cmdCipherSetThreshold : CmdSpec where
  opcode := 0x0603
  lenOk := fixedLen 4
  args := fun _ => [boundArg 0 4 1 (2 ^ 32 - 1)]
  legal := clsL
  run := fun _ a s => done { s with cip := { s.cip with threshold := le a 0 4 } }

/-- CIPHER_SET_THRESHOLD (R300). -/
def execCipherSetThreshold (n : Fin 16) (s : State) : Answer :=
  .next (takeUp cmdCipherSetThreshold n s)

/-- Root state of a group: 0 none, 1 pending, 2 current (R455). -/
def rootState (g : Group) : Nat := if g.curRoot then 2 else if g.pendRoot then 1 else 0

/-- Counters of R305 of a source: results by status on each of its pipelines. -/
def sourceBytes (s : State) (src : Nat) : Bytes :=
  counterBytes s ((pipesOf src).flatMap (fun p => (List.range 6).map (fun st => ck 305 (16 + st) (p * 16 + src))))

/-- The SAs of a SecY: lowest acceptable PN and next PN of each (R462). -/
def saBytes (l : List Sa) : Bytes := l.flatMap (fun a => leBytes 8 a.lowest ++ leBytes 8 a.nextPn)

/-- The response of CIPHER_READ_STATUS; its layout is the model's (log entry 22). -/
def cipherStatus (s : State) (t : Nat) : Bytes :=
  if t < 4 then
    let g := groupOf s t
    leBytes 1 (rootState g) ++ leBytes 4 g.epoch ++ leBytes 1 g.upIndex.toNat
      ++ sourceBytes s 0 ++ sourceBytes s 1
  else
    let p := t - 16
    let m := macsecOf s p
    let used := ((m.tx.find? (·.inUse)).map (·.an)).getD 0xFF
    let rx := (List.range 3).flatMap (fun i => ((tget none m.rx i).map (·.sas)).getD [])
    leBytes 1 used ++ saBytes m.tx ++ saBytes rx ++ sourceBytes s (2 + p / 4)
      ++ sourceBytes s (6 + p / 4)

def cmdCipherReadStatus : CmdSpec where
  opcode := 0x0604
  lenOk := fixedLen 1
  args := fun _ => [rangeArg 0 1 (fun v => decide (v < 4) || (decide (16 ≤ v) && decide (v < 32)))]
  legal := clsQ
  run := fun _ a s => doneWith (cipherStatus s (byteAt a 0)) s

/-- CIPHER_READ_STATUS (R305, R462). -/
def execCipherReadStatus (n : Fin 16) (s : State) : Answer := .next (takeUp cmdCipherReadStatus n s)

/-! ### Requests (R277 to R280) -/

/-- The power domain of a pipeline's engine (R278, R475). -/
def engineDomain (p : Nat) : Nat := 79 + p / 2

/-- The complex refuses requests: in SAFE, and while it is being erased (R302, R303). -/
def complexErased (s : State) : Bool := s.dev.state == .safe || s.dev.erasing

/-- A request fits its pipeline's queue and its engine's input store, and a descriptor is free (R280). -/
def requestFits (s : State) (p : Nat) (r : CipherReq) : Bool :=
  decide ((pipeOf s p).queue.length < 2048) && decide (inputStore s (p / 2) + entryRoom r ≤ 65536)
    && decide (0 < freeDescriptors s (p / 2))

/-- The bridge that carries a source's requests to an engine: a request bridge of R17, or Hive's register bridge
(R18). -/
def requestLink (src e : Nat) : Nat :=
  if src = 0 then linkNo 1 e
  else if src = 1 then linkNo 12 e
  else if src < 10 then linkNo 6 (8 * ((src - 2) % 4) + e)
  else hiveLink (26 + e)

/-- The entries of a request on its bridge: 128 bits each, on a register bridge two of 64 (R23, R279). -/
def requestEntries (r : CipherReq) : Nat :=
  let n := 1 + r.entries.length
  if r.source < 10 then n else 2 * n

/-- The first waiting request of a source taken away. -/
def popRequest (src : Nat) (s : State) : State :=
  { s with cip := { s.cip with waiting := tset [] s.cip.waiting src (tget [] s.cip.waiting src).tail } }

/-- A request joins a pipeline's queue. -/
def joinPipe (p : Nat) (r : CipherReq) (s : State) : State :=
  let row := 2 * (4 * b2n r.bulk + r.op.code)
  let s1 := bump (ck 305 (row + 1) p) r.text.length (bump (ck 305 row p) 1 s)
  let s2 := modPipe p (fun x => { x with
    queue := x.queue ++ [{ r with at_ := s.now }]
    bulkWait := if r.bulk && x.bulkWait.isNone then some s.now else x.bulkWait }) s1
  let e := p / 2
  let s3 := setFreeDescriptors e (freeDescriptors s e - 1)
    (modDomain (engineDomain p) (fun d => { d with access := s.now }) s2)
  let s4 := crossLink (requestLink r.source e) (requestEntries r) s3
  lookAhead p (markHigh (ck 305 34 p) (pipeOf s4 p).queue.length s4)

/-- CIPHER_REQUEST (R277 to R280, R289, R303): the source's oldest request goes to the pipeline of its
set with the fewest queued text bytes. It stalls while that one is full, and while its domain is off, the wake
of which it requests (R26). -/
def execCipherRequest (src : Fin 11) (s : State) : Answer :=
  match tget [] s.cip.waiting src with
  | [] => .next s
  | r :: _ =>
    match leastLoaded s (pipesOf src) with
    | none => .next s
    | some p =>
      if complexErased s then
        .next (finishRequest { req := r, status := 4, bytes := [], pipe := p, taken := false }
          (popRequest src s))
      else if !domainOn s (engineDomain p) then .next (want (engineDomain p) s)
      else if requestFits s p r then .next (joinPipe p r (popRequest src s))
      else .next s

/-- The entry that a derivation comes to: its key and H = AES(K, 0) (R288, R289); none where the slot, the epoch or
the root that it named is gone. -/
def derivedEntry (s : State) (c : Nat × Nat) : Option KeyEntry :=
  (List.range 4).findSome? (fun idx =>
    match resolveKey s c.1 idx with
    | some (k, d) => if d = c then some { id := c, key := k, h := Config.aesBlock k 0 } else none
    | none => none)

/-- A derived key put into the cache in place of the least recently used of 512 entries (R289). -/
def fillCache (e : KeyEntry) (s : State) : State :=
  let full := decide (s.cip.cache.length ≥ 512)
  let s1 := { s with cip := { s.cip with cache := (e :: s.cip.cache).take 512 } }
  if full then bump (ck 305 32 0) 1 s1 else s1

/-- KEY_DERIVATION_DONE (R288, R289): the oldest derivation enters the cache, and the unit looks again at the windows,
where an entry that has gone may be missed. -/
def execKeyDerivationDone (s : State) : Answer :=
  match s.cip.derivations with
  | [] => .next s
  | c :: rest =>
    let s1 := bump (ck 305 33 0) 1 { s with cip := { s.cip with derivations := rest } }
    .next (forEach (List.range 16) lookAhead (match derivedEntry s c with
      | some e => fillCache e s1
      | none => s1))

/-! ### Service (R281 to R284, R291 to R294) -/

/-- The next invocation counter of an upstream request, none when it is used up (R292, R294). -/
def nextInvocation (s : State) (r : CipherReq) : Option Nat :=
  let n := tget 0 s.cip.invocation (counterKey r) + 1
  if n ≤ 0xFFFFFFFF then some n else none

/-- The group a derived slot belongs to. -/
def slotGroup (s : State) (slot : Nat) : Nat := fld (slotOf s slot) 54 8 % 4

/-- The nonce-threshold event and its KEY_REQUEST (R156, R294). -/
def nonceThreshold (r : CipherReq) (s : State) : State :=
  let g := slotGroup s r.slot
  requestKey g 2 (bump (ck 305 35 0) 1
    (raise 0x0601 false g (leBytes 2 r.slot ++ leBytes 1 r.keyIdx.toNat) s))

/-- What a request comes to as it enters its pipeline; upstream, N is assigned (R291, R292). -/
def serveRequest (p : Nat) (r : CipherReq) (s : State) : Result × State :=
  let out := fun (q : CipherReq) (st : Nat) (b : Bytes) =>
    ({ req := q, status := st, bytes := b, pipe := p } : Result)
  let s := touchRequest r s
  if r.source = 1 ∧ !r.keyless ∧ (resolveKey s r.slot r.keyIdx.toNat).isSome then
    match nextInvocation s r with
    | none => (out r 3 [], bump (ck 305 36 0) 1 s)
    | some n =>
      let q := { r with iv := BitVec.ofNat 96 n }
      let (st, b) := compute s q
      let text := b.take q.text.length ++ beBytes 4 n ++ b.drop q.text.length
      let s1 := { s with cip := { s.cip with invocation := tset 0 s.cip.invocation (counterKey r) n } }
      (out q st text, if n = 0x80000001 then nonceThreshold r s1 else s1)
  else
    let (st, b) := compute s r
    (out r st b, s)

/-- A request leaves its queue and its result is found; a decrypt takes its room in the hold buffer (R298). -/
def enterPipe (p : Nat) (r : CipherReq) (s : State) : Result × State :=
  let s1 := lookAhead p (modPipe p (fun x => { x with
    queue := x.queue.filter (fun q => q != r), hold := x.hold + heldText r }) s)
  serveRequest p r s1

/-- A request taken into service. -/
def startRequest (p : Nat) (r : CipherReq) (s : State) : State :=
  let (res, s2) := enterPipe p r s
  modPipe p (fun x => { x with
    running := some res, block := 0
    bulkWait := if r.bulk then x.bulkWait.map (fun t => s.now - t) else x.bulkWait }) s2

/-- The oldest request of a class, with its key ready and room to be held (R282, R283, R298). -/
def readyOf (bulk : Bool) (s : State) (p : Nat) : Option CipherReq :=
  ((pipeOf s p).queue.find? (fun r => r.bulk == bulk)).filter (fun r =>
    keyReady s r && decide ((pipeOf s p).hold + heldText r ≤ 16384))

def readyLine (s : State) (p : Nat) : Option CipherReq := readyOf false s p

def readyBulk (s : State) (p : Nat) : Option CipherReq := readyOf true s p

/-- Blocks of a request's text: at least one for a CMAC (R274). -/
def textBlocks (r : CipherReq) : Nat :=
  let n := (r.text.length + 15) / 16
  if r.op.isGcm then n else max 1 n

/-- What is saved at a block boundary: the next block, its GCM counter, and the accumulator or the chaining
value (R282). -/
def savedAt (s : State) (r : CipherReq) (n : Nat) : Saved :=
  let key := ((resolveKey s r.slot r.keyIdx.toNat).map (·.1)).getD 0
  { block := n, counter := BitVec.ofNat 32 (if r.op.isGcm then n + 2 else 0)
    value := Config.blockState key r.iv r.text n }

/-- The running bulk request goes to the suspend register at its next block boundary, a free value between the
block it started with and its last; its wait counts on (R282, R284). -/
def suspendBulk (p : Nat) (r : Result) (s : State) : State :=
  let (v, s1) := takeFree s
  let from_ := (pipeOf s p).block
  let n := from_ + v % (textBlocks r.req - from_ + 1)
  bump (ck 305 28 p) 1 (modPipe p (fun x => { x with
    running := none, suspended := some r, saved := some (savedAt s r.req n)
    bulkWait := x.bulkWait.map (fun w => s.now - w) }) s1)

/-- The suspended request resumes at the block after the last one completed (R282). -/
def resumeBulk (p : Nat) (r : Result) (s : State) : State :=
  modPipe p (fun x => { x with
    running := some r, block := (x.saved.map (·.block)).getD 0, suspended := none, saved := none
    bulkWait := x.bulkWait.map (fun t => s.now - t) }) s

/-- A key that the head of a queue needs and that has been evicted is derived again (R289). -/
def deriveHead (s : State) (p : Nat) : State :=
  match (pipeOf s p).queue with
  | r :: _ => if keyReady s r then s else lookUp r s
  | [] => s

/-- A pipeline has work, and its engine's power domain is on; where it is off, its wake is requested (R278). -/
def engineRuns (p : Nat) (s : State) : Bool := domainOn s (engineDomain p)

def pipeBusy (s : State) (p : Nat) : Bool :=
  !(pipeOf s p).queue.isEmpty || (pipeOf s p).running.isSome || (pipeOf s p).suspended.isSome

/-- PIPELINE_START (R282 to R284, R286): a ready line request first, then the suspended bulk request,
then the oldest bulk request. -/
def execPipelineStart (p : Fin 16) (s : State) : Answer :=
  if complexErased s then .next s
  else if !engineRuns p s then .next (if pipeBusy s p then want (engineDomain p) s else s)
  else
    match (pipeOf s p).running with
    | some r =>
      match (if r.req.bulk then readyLine s p else none) with
      | some q => .next (startRequest p q (suspendBulk p r s))
      | none => .next s
    | none =>
      match readyLine s p with
      | some q => .next (startRequest p q s)
      | none =>
        match (pipeOf s p).suspended with
        | some r => .next (resumeBulk p r s)
        | none =>
          match readyBulk s p with
          | some q => .next (startRequest p q s)
          | none => .next (deriveHead s p)

/-- BULK_SHARE (R284): after 20 µs of waiting, a bulk request goes on beside the line requests; one whose key is still
being derived, or that has no room to be held, has its turn when it can start (R282, R298). -/
def execBulkShare (p : Fin 16) (s : State) : Answer :=
  let x := pipeOf s p
  let running := x.running.any (fun r => r.req.bulk)
  if running || x.share || x.bulkWait.isNone || !engineRuns p s then .next s
  else if x.suspended.isNone && (readyBulk s p).isNone then .next (lookAhead p s)
  else
    let s1 := passSince x.bulkWait (us 20) s
    let s2 := bump (ck 305 29 p) 1 (modPipe p (fun x => { x with share := true }) s1)
    match x.suspended, readyBulk s2 p with
    | none, some r =>
      let (res, s3) := enterPipe p r s2
      .next (modPipe p (fun x => { x with suspended := some res, saved := some (savedAt s3 r 0) }) s3)
    | _, _ => .next s2

/-- After a bulk request completes, the next one's own wait counts, from the instant at which it joined the
queue (R284). -/
def endBulk (p : Nat) (s : State) : State :=
  modPipe p (fun x => { x with
    share := false, bulkWait := (x.queue.find? (·.bulk)).map (·.at_) }) s

/-- A request in service ends, its blocks processed (R515). -/
def endRequest (r : Result) (s : State) : State :=
  finishRequest r (ownEvent (26 + r.pipe / 2) 0 (textBlocks r.req) s)

/-- CIPHER_RESULT (R277, R281, R293, R298): the request in service ends; under the bulk share the
suspended one may end beside a line request. -/
def execCipherResult (p : Fin 16) (s : State) : Answer :=
  let x := pipeOf s p
  if !engineRuns p s then .next s else
  match x.running, x.suspended with
  | some r, _ =>
    let s1 := modPipe p (fun x => { x with running := none }) s
    .next (endRequest r (if r.req.bulk then endBulk p s1 else s1))
  | none, some r =>
    if x.share then
      .next (endRequest r (endBulk p (modPipe p (fun x => { x with suspended := none, saved := none }) s)))
    else .next s
  | none, none => .next s

/-- TAG_FAILURE_CHECK (R300): a second of failures is over, and sources over the threshold raise the alarm
event. -/
def execTagFailureCheck (s : State) : Answer :=
  if afterLoading s then
    let above := (List.range 11).filter (fun src => decide (tget 0 s.cip.failures src > s.cip.threshold))
    let s1 := passTo (s.cip.failuresAt + us 1000000) s
    .next (forEach above (fun src s' =>
      raise 0x0602 false src (leBytes 4 (min 0xFFFFFFFF (tget 0 s.cip.failures src))) s')
      { s1 with cip := { s1.cip with failures := [], failuresAt := s1.now } })
  else .next s

/-! ### Slots that Knarrasar rewrites (R286, R303, R304) -/

/-- The group of keyed ports: the lowest one configured. -/
def keyGroup (s : State) : Nat :=
  ((List.range 4).find? (fun g => (groupOf s g).mask ≠ 0)).getD 0

/-- The slots of a group's two message keys: held while the group has channels (R139, R286). -/
def writeMessageSlots (g : Nat) (s : State) : State :=
  let on := (groupOf s g).mask != 0
  forEach [0, 1] (fun dir s =>
    writeSlot (messageSlot g dir) (if on then slotWord false g dir 0xFFFF else 0) s) s

/-- Slots of keyed port IDs, keyed upstream queues and message keys written from the shadow. -/
def restoreSlots (s : State) : State :=
  let g := keyGroup s
  let down := s.fib.ports.filterMap (fun e =>
    (e.2.bind (·.keySlot)).map (fun k => (k, slotWord false g 0 e.1)))
  let up := s.up.queues.filterMap (fun e =>
    (if e.2.keyed then e.2.slot else none).map (fun k => (k, slotWord false g 1 e.2.portId.toNat)))
  forEach (List.range 4) writeMessageSlots ((down ++ up).foldl (fun s e => writeSlot e.1 e.2 s) s)

end Sys2Proof.Machine
end

