-- ==== Sys2Proof/Machine/Activation.lean ====
section
/-! DEFINITION. Station messages, registration, key epochs, doze, the timers of activation, and the
consequent actions (chapter 4). -/

namespace Sys2Proof.Machine

open Sys2Proof

/-! ### A received message (R138) -/

def RxMsg.typ (m : RxMsg) : Nat := byteAt m.bytes 2
def RxMsg.seq (m : RxMsg) : Byte := BitVec.ofNat 8 (byteAt m.bytes 3)
def RxMsg.station (m : RxMsg) : Nat := be m.bytes 0 2 / 64
def RxMsg.content (m : RxMsg) : Bytes := slice m.bytes 4 36
def RxMsg.mic (m : RxMsg) : Bytes := slice m.bytes 40 8

/-- The CHANNEL field that PROFILE, RANGING_PARAMS and RANGING_TIME share (R144). -/
def RxMsg.channel (m : RxMsg) : Nat := byteAt m.bytes 4 / 64

/-- The message is addressed to the station ID held on its channel. -/
def toOwn (s : State) (m : RxMsg) : Bool :=
  (actOf s m.ch).stationId.map (·.toNat) == some m.station

/-- The pending root that waits for its first KEY_SWITCH, or is to be switched to (R154): the one that waits
outside its bank, else the bank's, unless a switch has come to S and the bank holds the replaced root. -/
def pendingRoot (s : State) (g : Nat) : Option (BitVec 256) :=
  let x := groupOf s g
  match x.heldRoot with
  | some r => some r
  | none =>
    let replaced := match x.switch with
      | some w => w.fromPending && w.applied
      | none => false
    if x.pendRoot && !replaced then some (rootOf s (4 + g)) else none

/-- The MIC of a message is the keyed one under a message key (R139). -/
def micWith (key : BitVec 256) (m : RxMsg) : Bool := m.mic == keyedMic key m.sfc (m.bytes.take 40)

/-- The keyed MIC under an epoch entry of the group (R139, R155). -/
def micUnder (s : State) (g : Nat) (m : RxMsg) (e : EpochEntry) : Bool :=
  micWith (messageKey s g 0 e.epoch e.pending) m

/-- A KEY_SWITCH to epoch 1 under the pending root (R154). -/
def switchesRoot (s : State) (g : Nat) (m : RxMsg) : Bool :=
  m.typ == 9 && be m.bytes 4 4 == 1
    && (pendingRoot s g).any (fun r => micWith (derivedKey r 0 0xFFFF 1) m)

/-- Check 1 of R140: the MIC in the form that R139 and R154 require. A message to another station's ID is held to the
plain form, for R139 gives it none once the group holds a root (DESIGN CHOICE, log entry 52). -/
def micOk (s : State) (m : RxMsg) : Bool :=
  let n := groupIdOf s m.ch
  let g := groupOf s n
  let plain := m.mic == plainMic (m.bytes.take 40)
  let keyed := (g.entry1.toList ++ g.entry2.toList).any (micUnder s n m)
  if !toOwn s m then plain
  else switchesRoot s n m || keyed || (!g.curRoot && plain)

/-- The epoch under which Hive has a received message's MIC computed: that of the entry it passes under, else
the current one; none where no key applies (R139). -/
def micEpoch (s : State) (m : RxMsg) : Option Nat :=
  let n := groupIdOf s m.ch
  let g := groupOf s n
  if !toOwn s m then none
  else match (g.entry1.toList ++ g.entry2.toList).find? (micUnder s n m) with
    | some e => some e.epoch
    | none => if g.curRoot then some g.epoch else none

/-- A received message's MIC computed as bulk work (R139, R284; log entry 41). -/
def checkMic (m : RxMsg) (s : State) : State :=
  match micEpoch s m with
  | some e => offerMic (groupIdOf s m.ch) 0 e m.sfc (m.bytes.take 40) s
  | none => s

/-- The downstream types of R141. -/
def downType (t : Nat) : Bool := decide (1 ≤ t) && decide (t ≤ 0x0B)

/-- The states in which a type is accepted (R141), by state code. -/
def acceptedIn (t st : Nat) : Bool :=
  if t = 1 ∨ t = 2 ∨ t = 6 then decide (1 ≤ st)
  else if t = 3 then st == 3
  else if t = 4 then st == 4 || st == 5
  else if t = 5 then decide (3 ≤ st) && decide (st ≤ 5)
  else st == 5

/-- Check 5 of R140: every content field in its range (R144). -/
def contentOk (s : State) (m : RxMsg) : Bool :=
  let f := fun off n => be m.bytes off n
  match m.typ with
  | 1 => decide (16 ≤ f 5 2) && decide (f 5 2 ≤ 1024)
  | 2 => decide (f 5 4 ≤ 62208000) && decide (1 ≤ f 9 2) && decide (f 9 2 ≤ 1024)
  | 3 => decide (f 12 2 / 64 ≤ 1022)
  | 4 => decide (f 5 4 ≤ 62208000)
  | 5 => f 4 1 % 16 != 0
  | 6 => f 13 1 % 16 != 0
  | 7 => decide (f 4 2 % 2 ^ 14 ≤ 0x3FEF) && (f 6 1 == 1 || f 6 1 == 2) && decide (f 7 1 ≤ 4)
  | 8 => decide (f 4 1 / 16 ≤ 5) && f 4 1 % 16 == 6
  | 9 => f 4 4 != 0
  | 10 => f 4 2 == 0 || (decide (2 ≤ f 4 2) && decide (f 4 2 ≤ 256)
      && (s.fib.doze.phase != .requested || decide (f 4 2 ≤ s.fib.doze.n)))
  | _ => true

/-- The first check of R140 that a message fails. -/
def messageFault (s : State) (m : RxMsg) : Option Nat :=
  if !micOk s m then some 1
  else if !(toOwn s m || m.station == 0x3FF) then some 2
  else if !downType m.typ then some 3
  else if !acceptedIn m.typ (actOf s m.ch).act.code then some 4
  else if !contentOk s m then some 5
  else none

/-- Types that an ACK answers (R141). -/
def ackType (t : Nat) : Bool := t == 4 || t == 7 || t == 8 || t == 9

/-- An ACK with its SEQ (R144). -/
def newAck (g typ : Nat) (seq : Byte) (result : Nat) (s : State) : TxMsg × State :=
  newMessage 0x42 g (leBytes 1 typ ++ [seq] ++ leBytes 1 result) s

/-- An ACK that is not kept. -/
def sendAck (ch typ : Nat) (seq : Byte) (result : Nat) (s : State) : State :=
  let (a, t) := newAck (groupIdOf s ch) typ seq result s
  putMessage ch a t

/-- The response to a message, kept with its SEQ and CONTENT (R143). -/
def keepReply (m : RxMsg) (l : List TxMsg) (s : State) : State :=
  let r : Repeat := { seq := m.seq, content := m.content, response := l }
  let s1 := modGroup (groupIdOf s m.ch) (fun x => { x with
    repeats := tset none x.repeats m.typ (some r) }) s
  l.foldl (fun s a => putMessage m.ch a s) s1

/-- A kept ACK to a message. -/
def keepAck (m : RxMsg) (result : Nat) (s : State) : State :=
  let (a, t) := newAck (groupIdOf s m.ch) m.typ m.seq result s
  keepReply m [a] t

/-- The kept response to a message that repeats the last of its type (R143). -/
def repeatOf (s : State) (m : RxMsg) : Option Repeat :=
  match tget none (groupOf s (groupIdOf s m.ch)).repeats m.typ with
  | some r => if r.seq = m.seq ∧ r.content = m.content then some r else none
  | none => none

/-- Another terminal's serial number in a message addressed by serial (R142). -/
def otherSerial (m : RxMsg) : Bool := (m.typ == 3 || m.typ == 6) && slice m.bytes 4 8 != serialBytes

/-- What the checks make of a message (R140, R142, R143): discarded, repeated, or accepted. -/
def judgeMessage (m : RxMsg) (s : State) : State :=
  match messageFault s m with
  | some c =>
    let s1 := bump (ck 166 c m.ch) 1 s
    if c = 5 ∧ ackType m.typ then sendAck m.ch m.typ m.seq 1 s1 else s1
  | none =>
    if otherSerial m then s
    else match repeatOf s m with
      | some r => r.response.foldl (fun s a => putMessage m.ch a s) (bump (ck 166 34 m.ch) 1 s)
      | none => { s with fib := { s.fib with accepted := some m } }

/-- A received message goes to Amber with its channel, SFC, bytes and MIC verdict (R548, R553). -/
def recordMessage (m : RxMsg) (s : State) : State :=
  let fault := messageFault s m
  amberRecord 0x0002 fault.isSome
    (leBytes 1 m.ch ++ leBytes 8 m.sfc ++ m.bytes ++ leBytes 1 (b2n (fault != some 1))) s

/-- STATION_MESSAGE (R137, R139, R140, R142, R143): the next message in the order of reception, once the
one before has had its effect. -/
def execStationMessage (s : State) : Answer :=
  match s.fib.rxMsgs with
  | [] => .next s
  | m :: rest =>
    if s.fib.accepted.isSome || !actsRun s then .next s
    else
      let s1 := checkMic m (bump (ck 166 0 m.ch) 1 { s with fib := { s.fib with rxMsgs := rest } })
      .next (judgeMessage m (recordMessage m s1))

/-- The accepted message has its effect when it is of this type (log entry 3). -/
def onAccepted (typ : Nat) (f : RxMsg → State → State) (s : State) : State :=
  match s.fib.accepted with
  | none => s
  | some m => if m.typ = typ then f m { s with fib := { s.fib with accepted := none } } else s

/-- Messages of a frame are still being processed (R137). -/
def processing (s : State) : Bool := s.fib.accepted.isSome || !s.fib.rxMsgs.isEmpty

/-! ### Profiles, ranging, station ID (R133, R144 to R148) -/

/-- PROFILE on its channel; one that leaves no profile takes F2 to F4 back to F1 (R133, R134). -/
def applyProfile (m : RxMsg) (s : State) : State :=
  let c := m.channel
  let i := byteAt m.bytes 4 / 16 % 4
  if (actOf s c).act == .f0 then s
  else
    let p : BurstProfile := {
      words := be m.bytes 5 2, pattern := BitVec.ofNat 32 (be m.bytes 7 4)
      delim := BitVec.ofNat 64 (be m.bytes 11 8) }
    let s1 := modAct c (fun x => { x with
      profiles := tset none x.profiles i (if byteAt m.bytes 4 % 2 = 1 then some p else none) }) s
    let x := actOf s1 c
    let back := x.profiles.isEmpty && (x.act == .f2 || x.act == .f3 || x.act == .f4)
    if back then moveAct c .f1 10 loseStation s1 else checkProfiled c s1

/-- PROFILE (R112, R133, R134, R144, R145). -/
def execProfile (s : State) : Answer := .next (onAccepted 1 applyProfile s)

def applyParams (m : RxMsg) (s : State) : State :=
  let c := m.channel
  if (actOf s c).act == .f0 then s
  else checkProfiled c (modAct c (fun x => { x with
    preEqd := some (be m.bytes 5 4), randSteps := be m.bytes 9 2 }) s)

/-- RANGING_PARAMS (R133, R144, R145). -/
def execRangingParams (s : State) : Answer := .next (onAccepted 2 applyParams s)

/-- Another channel in F4, F5 or F6 holds another station ID (R136). -/
def stationDiffers (s : State) (ch id : Nat) : Bool :=
  (List.range 4).any (fun c =>
    let x := actOf s c
    c != ch && (x.act == .f4 || x.act == .f5 || x.act == .f6)
      && x.stationId.map (·.toNat) != some id)

def applyAssign (m : RxMsg) (s : State) : State :=
  let id := be m.bytes 12 2 / 64
  if stationDiffers s m.ch id then bump (ck 136 0 m.ch) 1 s
  else moveAct m.ch .f4 6 (fun x => { x with stationId := some (BitVec.ofNat 10 id) }) s

/-- ASSIGN_STATION (R133, R136, R142). -/
def execAssignStation (s : State) : Answer := .next (onAccepted 3 applyAssign s)

/-- EqD from upstream frame L + 2 on, with what stays in force before (R148). -/
def newEqd (s : State) (c l e : Nat) (x : ActChan) : ActChan :=
  let old := if x.act != .f5 || (x.eqdOld.isNone && decide (l + 1 < x.eqdFrom)) then none
    else some (eqdAt s c (l + 1))
  { x with eqd := some e, eqdOld := old, eqdFrom := l + 2, rangingEnd := none }

def applyRanging (m : RxMsg) (s : State) : State :=
  let c := m.channel
  let e := be m.bytes 5 4
  match (actOf s c).act with
  | .f4 => keepAck m 0 (moveAct c .f5 7 (newEqd s c m.sfc e) s)
  | .f5 => keepAck m 0 (modAct c (newEqd s c m.sfc e) s)
  | _ => keepAck m 2 s

/-- RANGING_TIME (R133, R141, R145, R148). -/
def execRangingTime (s : State) : Answer := .next (onAccepted 4 applyRanging s)

/-- DEACTIVATE on one channel. -/
def deactivateOne (c : Nat) (s : State) : State :=
  match (actOf s c).act with
  | .f3 | .f4 | .f5 => moveAct c .f2 11 loseStation s
  | _ => s

def applyDeactivate (m : RxMsg) (s : State) : State :=
  forEach (setBits 4 (byteAt m.bytes 4)) deactivateOne s

/-- DEACTIVATE (R133, R144). -/
def execDeactivate (s : State) : Answer := .next (onAccepted 5 applyDeactivate s)

/-- SILENCE on one channel (R133, R135, R165). -/
def silenceOne (on : Bool) (c : Nat) (s : State) : State :=
  match (actOf s c).act, on with
  | .f0, _ => s
  | .f7, true => s
  | .f7, false => checkProfiled c (moveAct c .f1 16 (fun x => { x with silenced := false }) s)
  | _, true => moveAct c .f7 15 (fun x => { loseStation x with silenced := true }) s
  | _, false => s

def applySilence (m : RxMsg) (s : State) : State :=
  forEach (setBits 4 (byteAt m.bytes 13)) (silenceOne (byteAt m.bytes 12 % 2 == 1)) s

/-- SILENCE (R133, R135, R142, R144, R165). -/
def execSilence (s : State) : Answer := .next (onAccepted 6 applySilence s)

/-! ### Allocations (R145) -/

/-- The client frame partly committed as the binding changes its kind is abandoned (R122, R145). -/
def abandonHead (id : Nat) (s : State) : State :=
  match allocOf s id with
  | none => s
  | some a =>
    match a.staging with
    | f :: rest =>
      if a.sent > 0 then
        dropStaged 0x52 f.pkt (modAlloc id (fun a => { a with staging := rest, sent := 0 }) s)
      else s
    | [] => s

/-- The binding of a held allocation replaced. -/
def rebind (id : Nat) (b : Option Nat) (a : Alloc) (s : State) : State :=
  let s1 := if a.binding.isNone != b.isNone then abandonHead id s else s
  modAlloc id (fun a => { a with binding := b }) s1

/-- An allocation created, with the queue list stored for it (R145, R456). -/
def createAlloc (id : Nat) (b : Option Nat) (s : State) : State :=
  let l := (tget none s.up.storedLists id).getD []
  { s with up := { s.up with
      storedLists := tset none s.up.storedLists id none
      allocs := s.up.allocs ++ [{ id := id, binding := b, list := l }] } }

/-- The effect of an ALLOCATION message and its ACK result (R145). Where two rows of its table hold, no bonded group
goes before 64 allocations held (DESIGN CHOICE, log entry 52). -/
def allocEffect (m : RxMsg) (s : State) : Nat × State :=
  let id := be m.bytes 4 2 % 2 ^ 14
  let b := if byteAt m.bytes 7 = 4 then none else some (byteAt m.bytes 7)
  if byteAt m.bytes 6 = 2 then (0, discardAlloc id s)
  else if b.isNone && s.fib.bond.members = 0 then (2, s)
  else match allocOf s id with
    | some a => (0, rebind id b a s)
    | none => if s.up.allocs.length ≥ 64 then (3, s) else (0, createAlloc id b s)

def applyAllocation (m : RxMsg) (s : State) : State :=
  let (r, t) := allocEffect m s
  keepAck m r t

/-- ALLOCATION (R117, R141, R145). -/
def execAllocation (s : State) : Answer := .next (onAccepted 7 applyAllocation s)

/-! ### Registration (R151 to R153) -/

/-- The exchange of a group is over. -/
def endExchange (g : Nat) (s : State) : State :=
  modGroup g (fun x => { x with segs := [], segFirst := none }) s

/-- A registration abandoned with an ACK result; only result 0x04 has an event (R153, R166). -/
def abandonReg (g ch : Nat) (seq : Byte) (result : Nat) (s : State) : State :=
  let s1 := bump (ck 166 (27 + result) 0) 1 (sendAck ch 8 seq result (endExchange g s))
  if result = 4 then raise 0x0206 false g (leBytes 1 4) s1 else s1

/-- Data of segments i to i + 2. -/
def segData (x : Group) (i : Nat) : Bytes :=
  (List.range 3).flatMap (fun k => fit 32 ((tget none x.segs (i + k)).getD []))

/-- T_HE (R151). -/
def headEndText (station mask : Nat) (qHe : Bytes) : Bytes :=
  ([0x50, 0x53, 0x54, 0x43, 0x2D, 0x52, 0x45, 0x47, 0x2D, 0x31] : Bytes) ++ serialBytes
    ++ beBytes 2 station ++ beBytes 1 mask ++ qHe

/-- LR of registration number k (R151). -/
def linkRoot (k : Nat) (qHe text : Bytes) : BitVec 256 :=
  let z := beBytes 48 (Config.sharedSecret k qHe).toNat
  (Config.sha384 (beBytes 4 1 ++ z ++ text)).extractLsb' 128 256

/-- The T_KEY messages: Q_T and its signature in six segments (R144, R151). -/
def tKeyMessages (g mask : Nat) (data : Bytes) : List Nat → State → List TxMsg × State
  | [], s => ([], s)
  | i :: l, s =>
    let (m, s1) := newMessage 0x43 g (leBytes 1 (16 * i + 6) ++ leBytes 1 mask ++ slice data (32 * i) 32) s
    let (rest, s2) := tKeyMessages g mask data l s1
    (m :: rest, s2)

/-- The KEY_INDEX of an epoch (R155). -/
def epochIndex (e : Nat) : Nat := if e % 2 = 1 then 1 else 2

/-- The pending bank is free of a switch: the replaced root goes, and one that waited takes its place. -/
def freeBank (g : Nat) (w : EpochSwitch) (s : State) : State :=
  if w.fromPending then
    let held := (groupOf s g).heldRoot
    modGroup g (fun x => { x with pendRoot := held.isSome, heldRoot := none })
      (setRoot (4 + g) (held.getD 0) (forgetPending g s))
  else s

/-- The old epoch of an overlap ends: its entry, its root where a new one replaced it, and the frames
staged under it (R155). -/
def retireEpoch (g : Nat) (w : EpochSwitch) (s : State) : State :=
  let x := groupOf s g
  let old := if w.epoch % 2 = 1 then x.entry2 else x.entry1
  let s1 := match old with
    | some e => forgetEpoch g e.epoch s
    | none => s
  dropStale (freeBank g w (modGroup g (fun x => { x with
    entry1 := if w.epoch % 2 = 1 then x.entry1 else none
    entry2 := if w.epoch % 2 = 1 then none else x.entry2
    retired := if old.isSome then some (3 - epochIndex w.epoch) else x.retired, switch := none }) s1))

/-- A pending root held (R151). While a switch from the pending bank is to come or in its overlap, it waits
until the bank is free (log entry 41). -/
def holdPending (g : Nat) (r : BitVec 256) (s : State) : State :=
  if (groupOf s g).switch.any (·.fromPending) then modGroup g (fun x => { x with heldRoot := some r }) s
  else modGroup g (fun x => { x with pendRoot := true }) (setRoot (4 + g) r (forgetPending g s))

/-- The exchange completes and holds (R151): the pending root, T_KEY, the event. -/
def completeReg (g mask : Nat) (qHe text : Bytes) (m : RxMsg) (s : State) : State :=
  let k := s.cip.registrations
  let qT := beBytes 96 (Config.ephemeralKey k).toNat
  let t := text ++ qT
  let sig := beBytes 96 (Config.identitySign k (0x02 :: t)).toNat
  let s1 := { s with cip := { s.cip with registrations := k + 1 } }
  let s2 := holdPending g (linkRoot k qHe t) (endExchange g s1)
  let (l, s3) := tKeyMessages g mask (qT ++ sig) (List.range 6) s2
  raise 0x0206 false g (leBytes 1 0) (bump (ck 166 26 0) 1 (keepReply m l s3))

/-- The six segments are judged (R151, R153). -/
def judgeReg (g : Nat) (m : RxMsg) (s : State) : State :=
  let x := groupOf s g
  let mask := x.mask.toNat
  let station := match (actOf s m.ch).stationId with
    | some i => i.toNat
    | none => 0
  let qHe := segData x 0
  let text := headEndText station mask qHe
  let ok := match s.fib.heKey with
    | some key => validPoint qHe && Config.ecdsaVerify key (0x01 :: text) (segData x 3)
    | none => false
  if ok then completeReg g mask qHe text m s else abandonReg g m.ch m.seq 4 s

/-- An HE_KEY segment (R151, R153). -/
def applyHeKey (m : RxMsg) (s : State) : State :=
  let g := groupIdOf s m.ch
  let x := groupOf s g
  let i := byteAt m.bytes 4 / 16
  let data := slice m.bytes 6 32
  if g ≥ 4 ∨ byteAt m.bytes 5 % 16 ≠ x.mask.toNat then abandonReg g m.ch m.seq 3 s
  else match tget none x.segs i with
    | some d => if d = data then s else abandonReg g m.ch m.seq 1 s
    | none =>
      let s1 := modGroup g (fun x => { x with
        segs := tset none x.segs i (some data), segFirst := some (x.segFirst.getD s.now)
        segCh := m.ch, segSeq := m.seq }) s
      if (groupOf s1 g).segs.length = 6 then judgeReg g m s1 else s1

/-- HE_KEY (R151 to R153). -/
def execHeKey (s : State) : Answer := .next (onAccepted 8 applyHeKey s)

/-- REGISTRATION_TIMEOUT (R153): 1 s after the first segment. -/
def execRegistrationTimeout (g : Fin 4) (s : State) : Answer :=
  let x := groupOf s g
  if x.segFirst.isSome && actsRun s && !processing s then
    .next (abandonReg g x.segCh x.segSeq 1 (passSince x.segFirst (ms 1000) s))
  else .next s

/-! ### Key epochs (R154 to R156) -/

/-- Why a KEY_SWITCH is refused, as its ACK result; fresh: it is to epoch 1 under the pending root (R155). -/
def switchRefusal (x : Group) (fresh : Bool) (e sfc l : Nat) : Option Nat :=
  if !((x.curRoot && e == x.epoch + 1) || fresh) then some 1
  else if sfc < l + 8 then some 1
  else if x.switch.isSome then some 2
  else none

/-- An epoch's entry written; its counters restart (R155, R287, R292, R293). -/
def writeEpoch (g : Nat) (entry : EpochEntry) (s : State) : State :=
  let idx := epochIndex entry.epoch
  let s1 := match (groupOf s g).entry idx with
    | some old => forgetEpoch g old.epoch s
    | none => s
  modGroup g (fun x => { x with
    entry1 := if idx = 1 then some entry else x.entry1
    entry2 := if idx = 2 then some entry else x.entry2
    retired := x.retired.filter (· != idx) }) (restartCounters g idx s1)

/-- Old and new epoch use one KEY_INDEX, so that there is no overlap (R296). -/
def sameIndex (x : Group) (w : EpochSwitch) : Bool :=
  w.fromPending && x.curRoot && w.old.any (fun e => epochIndex e == epochIndex w.epoch)

/-- A switch accepted: the new epoch's entry is written on receipt, unless its KEY_INDEX names the current
epoch until S (R155, R287, R296). -/
def beginSwitch (g e sfc : Nat) (fresh : Bool) (s : State) : State :=
  let x := groupOf s g
  let w : EpochSwitch := {
    epoch := e, old := if x.curRoot then some x.epoch else none, sfc := sfc, fromPending := fresh
    applied := false }
  let s1 := modGroup g (fun x => { x with switch := some w }) s
  if sameIndex x w then s1 else writeEpoch g { epoch := e, pending := fresh } s1

def applyKeySwitch (m : RxMsg) (s : State) : State :=
  let g := groupIdOf s m.ch
  let e := be m.bytes 4 4
  let sfc := be m.bytes 8 7 % 2 ^ 51
  let fresh := switchesRoot s g m
  match switchRefusal (groupOf s g) fresh e sfc m.sfc with
  | some r => keepAck m r s
  | none => keepAck m 0 (beginSwitch g e sfc fresh s)

/-- KEY_SWITCH (R154, R155). -/
def execKeySwitch (s : State) : Answer := .next (onAccepted 9 applyKeySwitch s)

/-- A channel of the group that has come to frame n. -/
def reached (s : State) (g n : Nat) : Option Nat :=
  (setBits 4 (groupOf s g).mask.toNat).find? (fun c => comesTo s c n)

/-- The pending root becomes current; the old one stays in the other bank for its overlap (R154). -/
def swapRoots (g : Nat) (s0 : State) : State :=
  let s := forgetGroup g s0
  let cur := rootOf s g
  let s1 := setRoot (4 + g) cur (setRoot g (rootOf s (4 + g)) s)
  let flip := fun (e : EpochEntry) => { e with pending := !e.pending }
  modGroup g (fun x => { x with
    entry1 := x.entry1.map flip, entry2 := x.entry2.map flip, pendRoot := x.curRoot, curRoot := true }) s1

/-- A switch comes to S: a pending root becomes current, and upstream staging moves to the new epoch (R154, R155). -/
def applySwitch (g : Nat) (w : EpochSwitch) (s : State) : State :=
  let same := sameIndex (groupOf s g) w
  let s0 := if same then writeEpoch g { epoch := w.epoch, pending := true } s else s
  let s1 := if w.fromPending then swapRoots g s0 else s0
  let s2 := modGroup g (fun x => { x with
    upIndex := BitVec.ofNat 2 (epochIndex w.epoch), epoch := w.epoch, keyReqAt := s.now
    switch := if same then none else some { w with applied := true } }) s1
  let s3 := if same then dropStale (freeBank g w s2) else s2
  raise 0x0207 false g (leBytes 4 w.epoch ++ leBytes 8 w.sfc) (bump (ck 166 32 0) 1 s3)

/-- EPOCH_SWITCH_APPLY (R154, R155): T_rx(S) has come. -/
def execEpochSwitchApply (g : Fin 4) (s : State) : Answer :=
  match (groupOf s g).switch with
  | none => .next s
  | some w =>
    match (if w.applied then none else reached s g w.sfc) with
    | none => .next s
    | some c => .next (applySwitch g w (passFrame c w.sfc s))

/-- EPOCH_RETIRE (R155): frame S + 800 has come. -/
def execEpochRetire (g : Fin 4) (s : State) : Answer :=
  match (groupOf s g).switch with
  | none => .next s
  | some w =>
    match (if w.applied then reached s g (w.sfc + 800) else none) with
    | none => .next s
    | some c => .next (retireEpoch g w (passFrame c (w.sfc + 800) s))

/-- REKEY_INTERVAL (R156): the host's interval since the last switch or request. -/
def execRekeyInterval (g : Fin 4) (s : State) : Answer :=
  let x := groupOf s g
  let every := s.fib.policy.rekeyS
  if every = 0 ∨ !x.curRoot ∨ !actsRun s then .next s
  else
    let s1 := passSince (some x.keyReqAt) (ms (1000 * every)) s
    .next (requestKey g 1 (modGroup g (fun x => { x with keyReqAt := s1.now }) s1))

/-! ### Doze (R157, R158) -/

/-- A DOZE_REPLY to the request that waits (R157). -/
def applyDozeReply (m : RxMsg) (s : State) : State :=
  let n := be m.bytes 4 2
  let start := be m.bytes 6 7 % 2 ^ 51
  let d := s.fib.doze
  if d.phase != .requested then s
  else if n = 0 then
    concludePower stResource false (leBytes 4 1) (raise 0x0208 false d.ch (leBytes 1 1)
      { s with fib := { s.fib with doze := { d with phase := .idle } } })
  else if start < m.sfc + 8 then s
  else
    { s with fib := { s.fib with doze := {
        phase := .scheduled, n := n, start := start, ch := byteAt m.bytes 13 % 4 } } }

/-- DOZE_REPLY (R157). -/
def execDozeReply (s : State) : Answer := .next (onAccepted 10 applyDozeReply s)

/-- DOZE_END in a listened frame (R158); DOZE_EXIT follows in D0, and is the kept response (R143). -/
def applyDozeEnd (m : RxMsg) (s : State) : State :=
  if s.pow.state == .d2 then requestWake .dozeEnd (keepReply m [] s) else s

/-- DOZE_END (R141, R143, R158, R486). -/
def execDozeEnd (s : State) : Answer := .next (onAccepted 11 applyDozeEnd s)

/-! ### Timers (R133, R137) -/

/-- RANGING_TIMER_EXPIRY (R133): after the last message of the frame being processed (R137). -/
def execRangingTimerExpiry (ch : Fin 4) (s : State) : Answer :=
  let x := actOf s ch
  if (x.act == .f3 || x.act == .f4) && actsRun s && !processing s then
    .next (moveAct ch .f2 8 loseStation (passSince x.rangingEnd 0 s))
  else .next s

/-- F6_TIMER_EXPIRY (R133). -/
def execF6TimerExpiry (ch : Fin 4) (s : State) : Answer :=
  let x := actOf s ch
  if x.act == .f6 && actsRun s && !processing s then
    .next (moveAct ch .f1 14 loseStation (passSince x.f6End 0 s))
  else .next s

/-! ### Consequent actions (R159 to R161) -/

/-- The policy's action for a trigger. -/
def policyAction (s : State) (t : Trigger) : Action := tget .withdraw s.fib.policy.action (trigRow t)

/-- The action applied: switching concerns the working channel of a pair; elsewhere it withdraws. -/
def applyAction (ch : Nat) (t : Trigger) (s : State) : State :=
  match policyAction s t with
  | .report => s
  | .withdraw => withdraw ch t 1 s
  | .switch =>
    if s.fib.bond.working == some ch && s.fib.bond.standby.isSome then switchOver ch t s
    else withdraw ch t 1 s

/-- After an exit the actions wait for SYNC, or for 100 ms (R485). -/
def waitExit (ch : Nat) (s : State) : State :=
  if (rxOf s ch).delin == .sync then s else passSince (tget none s.pow.holdUntil ch) 0 s

/-- A channel that actions concern: one in service and not withdrawn already (R159, R165, R473; log entry 38). -/
def actionable (s : State) (ch : Nat) : Bool := actsRun s && (actOf s ch).withdrawn.isNone

/-- CONSEQUENT_ACTION (R39, R159, R160, R165, R485): a doze channel first returns the terminal to D0. -/
def execConsequentAction (ch : Fin 4) (t : Trigger) (s : State) : Answer :=
  match tget none s.fib.trigSince (ch * 8 + trigRow t) with
  | none => .next s
  | some at_ =>
    if !actionable s ch then .next s
    else
      let s1 := waitExit ch (passTo (at_ + ms (tget 0 s.fib.policy.holdoff (trigRow t))) s)
      if s1.pow.state == .d2 then
        .next (if s1.pow.phase == .idle && s1.fib.doze.ch == ch.val then startExit s1 else s1)
      else .next (applyAction ch t s1)

/-- The channel takes its place again (R161). -/
def restoreChannel (ch : Nat) (t : Trigger) (s : State) : State :=
  let s1 := if (actOf s ch).wasMember then addMember ch s else s
  let s2 := syncTx ch (modAct ch (fun x => { x with
    withdrawn := none, switched := false, wasMember := false }) s1)
  noteWithdrawn (bump (ck 166 38 ch) 1 (raise 0x0209 false ch
    (leBytes 1 3 ++ leBytes 1 (trigRow t)) (queueChannelState ch s2)))

/-- CHANNEL_RESTORE (R94, R161): every trigger clear for the restore hold-off, in F5, and joinable. -/
def execChannelRestore (ch : Fin 4) (s : State) : Answer :=
  match (actOf s ch).withdrawn, tget none s.fib.clearSince ch with
  | some t, some at_ =>
    if actsRun s && (actOf s ch).act == .f5 && canJoin s ch then
      .next (restoreChannel ch t (passTo (at_ + ms s.fib.policy.restoreMs) s))
    else .next s
  | _, _ => .next s

end Sys2Proof.Machine
end

