-- ==== Sys2Proof/Machine/FibreDown.lean ====
section
/-! DEFINITION. The downstream side of the fibre channels (chapter 2): delineation, delivered frames,
PFE frames, the windows of the two error criteria, and the bonding unit's own steps. -/

namespace Sys2Proof.Machine

open Sys2Proof

/-! ### Delineation (R51 to R54) -/

/-- The channel is dark: nothing of its downstream is processed (R132). -/
def dark (s : State) (ch : Nat) : Bool := (actOf s ch).act == .f0

/-- A bit stream reaches the channel unit. -/
def hasStream (s : State) (ch : Nat) : Bool :=
  let x := laneOf s (16 + ch)
  x.state == .ready && x.checker == 0 && x.loopback == 0 && !dark s ch

/-- The first of the four candidate slots that is free. -/
def freeCandidate (x : RxChan) : Option Nat :=
  (List.range 4).find? (fun i => (tget none x.slots i).isNone)

/-- HUNT_MATCH (R52): a match at an offset with no open candidate opens a slot if one is free. -/
def execHuntMatch (ch : Fin 4) (offset : Nat) (window : Word64) (s : State) : Answer :=
  let x := rxOf s ch
  if hasStream s ch && x.delin == .hunt && windowMatches window
      && !x.slots.any (fun e => e.2 == some offset) then
    match freeCandidate x with
    | some i => .next (modRx ch (fun x => { x with slots := tset none x.slots i (some offset) }) s)
    | none => .next s
  else .next s

/-- Word 0 decided: its counter where it is valid, with the corrected and the invalid ones counted
(R65, R97). -/
def decideWord0 (ch : Nat) (w : Word64) (s : State) : Option Nat × State :=
  match hecDecode w.toNat with
  | none => (none, bump (ck 97 4 ch) 1 s)
  | some (v, corrected) =>
    (some (fld v 13 51), if corrected then bump (ck 97 3 ch) 1 s else s)

/-- CANDIDATE_TEST (R52): confirmed, the candidate closes the search; failed, it frees its slot. -/
def execCandidateTest (ch slot : Fin 4) (window word0 : Word64) (s : State) : Answer :=
  let x := rxOf s ch
  if x.delin == .hunt && !dark s ch && (tget none x.slots slot).isSome then
    let gone := modRx ch (fun x => { x with slots := tset none x.slots slot none })
    if windowMatches window then
      match decideWord0 ch word0 s with
      | (some v, s1) => .next (modRx ch (fun x => { x with
          delin := .presync, slots := [], sfc := BitVec.ofNat 51 (v + 1) }) s1)
      | (none, s1) => .next (gone s1)
    else .next (gone s)
  else .next s

/-- SYNC is entered (R53, R95, R133). -/
def enterSync (ch : Nat) (s : State) : State :=
  bondRelease (actEnterSync ch (noteSync ch (modRx ch (fun x => { x with
    delin := .sync, misses := 0, mismatch := none })
    { s with pow := { s.pow with holdUntil := tset none s.pow.holdUntil ch none } })))

/-- PRESYNC_TEST (R53): the window matches, word 0 is valid and its counter is the next one. The
decision on word 0 is counted as its frame is delivered. -/
def execPresyncTest (ch : Fin 4) (window word0 : Word64) (s : State) : Answer :=
  let x := rxOf s ch
  if x.delin == .presync && !dark s ch then
    let v := (hecDecode word0.toNat).map (fun e => fld e.1 13 51)
    if windowMatches window && v == some x.sfc.toNat then .next (enterSync ch s)
    else .next (leaveSync ch (if windowMatches window then (decideWord0 ch word0 s).2 else s))
  else .next s

/-- The doze channel has left SYNC: D0 at once (R158). -/
def endDoze (ch : Nat) (s : State) : State :=
  if s.pow.state == .d2 && s.pow.phase == .idle && s.fib.doze.ch == ch then startExit s else s

/-- SYNC_FRAME_TEST (R54): the window at the expected frame start; the third consecutive miss leads to HUNT there,
and a match resets the count. -/
def execSyncFrameTest (ch : Fin 4) (window : Word64) (s0 : State) : Answer :=
  let x := rxOf s0 ch
  if x.delin != .sync || dark s0 ch then .next s0
  else
    let s := passTrx ch s0
    if windowMatches window then .next (modRx ch (fun x => { x with misses := 0 }) s)
    else
      let s1 := bump (ck 97 1 ch) 1 (modRx ch (fun x => { x with misses := x.misses + 1 }) s)
      if x.misses + 1 ≥ 3 then .next (endDoze ch (leaveSync ch s1)) else .next s1

/-! ### A received frame taken apart (R46, R47, R58, R62) -/

/-- A delivered frame after the decoder. -/
structure DsFrame where
  word0 : Word64
  /-- Header word 1 after decoding, and as received (R63). -/
  word1 : Word64
  word1Raw : Word64
  /-- Codewords that failed to decode (R63). -/
  bad : List Nat
  /-- Codewords that needed correction, and bits corrected (R97). -/
  correctedWords : Nat
  correctedBits : Nat
  /-- The information field; what is left off at the end is 0. -/
  info : Bytes

/-- The frame byte at which byte j of the information field is sent: codewords are sent one after the other, each as
its information and then its parity, after the start pattern (R46, R47). -/
def frameByte (j : Nat) : Nat := 8 + 3240 * (j / 2700) + j % 2700

/-- The codeword that a frame bit belongs to (R46). -/
def codewordOf (n : Nat) : Nat := (n - 64) / 25920

/-- The received frame descrambled from bit 192 on under a predicted counter, with the decoder's changes made
(R56, R58). -/
def clearBytes (f : RxFrame) (sfc : Nat) : Bytes :=
  let raw := bitsOf f.bytes
  let plain := raw.take 192 ++ scramble (91 * 2 ^ 51 + sfc) (raw.drop 192)
  packBits f.bytes.length (plain.zipIdx.map (fun e => e.1 != f.flips.contains e.2))

/-- Parity bits of a codeword that are transmitted: the last 64 of codeword 479 are not, and its decoder takes them
as erasures (R62). -/
def sentParity (i : Nat) : Nat := if i = 479 then 4256 else 4320

/-- A codeword's bits fulfil the code as far as they are transmitted (R61, R62). -/
def codewordHolds (b : Bytes) (i : Nat) : Bool :=
  let at_ := frameByte (2700 * i)
  (ldpcParity (bitsOf (slice b at_ 2700))).take (sentParity i) == bitsOf (slice b (at_ + 2700) (sentParity i / 8))

/-- A codeword of the frame's cleared bytes decodes (R63): it is not given up, and where all of it is given the
decoder's changes lead to a codeword. -/
def decodes (f : RxFrame) (b : Bytes) (i : Nat) : Bool :=
  !f.failed.contains i
    && (decide (b.length < frameByte (2700 * i) + 2700 + sentParity i / 8) || codewordHolds b i)

/-- The information field of the bytes after the start pattern, codeword by codeword (R47). -/
def infoField : Nat → Bytes → Bytes
  | 0, _ => []
  | n + 1, b => if b.length ≤ 2700 then b else b.take 2700 ++ infoField n (b.drop 3240)

/-- A frame taken apart under a predicted counter. -/
def takeApart (f : RxFrame) (sfc : Nat) : DsFrame :=
  let b := clearBytes f sfc
  let bad := (List.range 480).filter (fun i => !decodes f b i)
  let fixed := f.flips.eraseDups.filter (fun n => decide (64 ≤ n) && !bad.contains (codewordOf n))
  { word0 := BitVec.ofNat 64 (be f.bytes 8 8), word1 := BitVec.ofNat 64 (be b 16 8)
    word1Raw := BitVec.ofNat 64 (be f.bytes 16 8), bad := bad
    correctedWords := (fixed.map codewordOf).eraseDups.length, correctedBits := fixed.length
    info := infoField 480 (b.drop 8) }

/-! ### The frame's counter, arrival and skew (R56, R90, R95) -/

/-- The prediction kept or the received counter adopted (R56, R96). -/
def judgeCounter (ch : Nat) (v : Option Nat) (s : State) : State :=
  let x := rxOf s ch
  match v with
  | none => modRx ch (fun x => { x with mismatch := none }) s
  | some n =>
    let w : BitVec 51 := BitVec.ofNat 51 n
    if w = x.sfc then modRx ch (fun x => { x with mismatch := none }) s
    else
      let s1 := bump (ck 97 5 ch) 1 s
      if x.mismatch.map (· + 1) == some w then
        raise 0x0203 false ch (zeros 4 ++ leBytes 8 n)
          (modRx ch (fun x => { x with sfc := w, mismatch := none }) s1)
      else modRx ch (fun x => { x with mismatch := some w }) s1

/-- The earliest arrival of frame n among some channels. -/
def firstAmong (s : State) (l : List Nat) (n : Nat) : Option Nat :=
  l.foldl (fun m c =>
    match (rxOf s c).arrivals.find? (fun e => e.1 == n) with
    | some (_, t) => some (min t (m.getD t))
    | none => m) none

/-- A member takes part in SYNC, with a signal and lock, whatever its skew. -/
def memberInSync (s : State) (c : Nat) : Bool :=
  let l := laneOf s (16 + c)
  bit s.fib.bond.members.toNat c && !(rxOf s c).joining && !l.los && !l.lol && (rxOf s c).delin == .sync

/-- The reference for frame n: its earliest arrival among active members; while there is none, among the members in
SYNC (R90; log entry 45). -/
def firstArrival (s : State) (n : Nat) : Option Nat :=
  if (List.range 4).any (bondActive s) then firstAmong s ((List.range 4).filter (bondActive s)) n
  else firstAmong s ((List.range 4).filter (memberInSync s)) n

/-- A frame counter judged by the skew of every member and the store (R95): the first member to bring it closes the
one before. A counter far below the highest is a new run of the stream's counter. -/
def closeSkewFrame (n : Nat) (s : State) : State :=
  let b := s.fib.bond
  if n ≤ b.skewAt ∧ b.skewAt < n + 64 then s
  else
    let clear := (members s).all (fun c => decide ((rxOf s c).skew ≤ usUnits 240)) && !b.overflowed
    let s1 := modBond (fun b => { b with
      skewRun := if clear then b.skewRun + 1 else 0, skewAt := n, overflowed := false }) s
    if s1.fib.bond.skewRun ≥ 8 then setSkewDefect false n s1 else s1

/-- The raising of the skew defect by a member's skew (R95). -/
def judgeSkew (ch n : Nat) (s : State) : State :=
  if (rxOf s ch).skew > usUnits 250 then
    setSkewDefect true n (modBond (fun b => { b with skewRun := 0 }) s)
  else s

/-- The skew of a channel that has brought frame n, against the earliest arrival among the active members (R90). -/
def measureSkew (n first c : Nat) (s : State) : State :=
  match (rxOf s c).arrivals.find? (fun e => e.1 == n) with
  | none => s
  | some (_, t) =>
    let skew := t - first
    let s1 := modRx c (fun x => { x with skew := skew }) s
    if bit s.fib.bond.members.toNat c then judgeSkew c n (markHigh (ck 97 30 c) (skew / 65536) s1) else s1

/-- The arrival of frame n on a channel, its skew and the high-water mark (R90, R97; log entries 30 and 45). -/
def noteArrival (ch n arrival : Nat) (s : State) : State :=
  let member := bit s.fib.bond.members.toNat ch
  let s0 := if member then closeSkewFrame n s else s
  let s1 := modRx ch (fun x => { x with
    arrivals := ((n, arrival) :: x.arrivals).take 64, joining := false, frameAt := arrival }) s0
  match firstArrival s1 n with
  | none => s1
  | some first =>
    let s2 := forEach (List.range 4) (measureSkew n first) s1
    if member then bondRelease s2 else s2

/-! ### The header (R63, R68, R72, R73, R95) -/

/-- Header word 1 where its HEC decodes, and whether it was corrected: as decoded, or else from the raw received bits
(R63, R65). -/
def word1Of (f : DsFrame) : Option (Nat × Bool) :=
  if f.bad.contains 0 then hecDecode f.word1Raw.toNat
  else match hecDecode f.word1.toNat with
    | some e => some e
    | none => hecDecode f.word1Raw.toNat

/-- The decision on word 1 counted (R65). -/
def countWord1 (ch : Nat) (f : DsFrame) (s : State) : State :=
  match word1Of f with
  | none => bump (ck 65 1 ch) 1 s
  | some (_, corrected) => if corrected then bump (ck 65 0 ch) 1 s else s

/-- Word 1 is usable (R68). -/
def word1Usable (w : Nat) : Bool := decide (fld w 44 10 ≤ 512) && decide (fld w 38 6 ≤ 32)

/-- A run of verdicts of a frame-count criterion extended and judged (R95). -/
def judgeHeader (ch : Nat) (bad : Bool) (s : State) : State :=
  let x := rxOf s ch
  let n := runOf bad x.hdrBad x.hdrRun
  applyRun ch 2 bad n (modRx ch (fun x => { x with hdrBad := bad, hdrRun := n })
    (if bad then bump (ck 97 6 ch) 1 s else s))

def judgeLabel (ch : Nat) (bad : Bool) (s : State) : State :=
  let x := rxOf s ch
  let n := runOf bad x.labBad x.labRun
  applyRun ch 3 bad n (modRx ch (fun x => { x with labBad := bad, labRun := n })
    (if bad then bump (ck 97 13 ch) 1 s else s))

def judgeChannel (ch : Nat) (bad : Bool) (s : State) : State :=
  let x := rxOf s ch
  let n := runOf bad x.chBad x.chRun
  applyRun ch 4 bad n (modRx ch (fun x => { x with chBad := bad, chRun := n })
    (if bad then bump (ck 97 14 ch) 1 s else s))

/-- The expected channel number: the unit's own until the host sets another (R73). -/
def expectedChannel (s : State) (ch : Nat) : Nat := (ch + (rxOf s ch).expChan) % 4

/-- What a frame's word 1 makes of the three header defects. -/
def judgeWord1 (ch : Nat) (w : Option Nat) (s : State) : State :=
  match w with
  | none => judgeHeader ch true s
  | some w =>
    judgeChannel ch (decide (fld w 62 2 ≠ expectedChannel s ch))
      (judgeLabel ch (decide (fld w 54 8 ≠ (rxOf s ch).expLabel.toNat))
        (judgeHeader ch (!word1Usable w) s))

/-- Bits of a downstream frame on the wire: 125 µs at the line rate (R46). -/
def wireFrameBits : Nat := 12441600

/-- Codewords of a downstream frame: 2,700 of its 1,296,000 information bytes each (R47). -/
def frameCodewords : Nat := 480

/-- Codewords counted (R97), and the windows that run (R95). -/
def noteCodewords (ch : Nat) (f : DsFrame) (s : State) : State :=
  let s1 := bump (ck 97 9 ch) f.correctedBits (bump (ck 97 8 ch) f.bad.length
    (bump (ck 97 7 ch) f.correctedWords (ownEvent ch 0 frameCodewords s)))
  modRx ch (fun x => { x with
    winBad := x.winBad || !f.bad.isEmpty, winBits := x.winBits + f.correctedBits
    winRx := x.winRx + wireFrameBits }) s1

/-! ### The items of the information field (R49, R63, R69, R70) -/

/-- Bytes off to off + len − 1 of the information field overlap an erased codeword (R47, R63). -/
def erasedIn (bad : List Nat) (off len : Nat) : Bool :=
  bad.any (fun i => decide (off < 2700 * (i + 1)) && decide (2700 * i < off + len))

/-- The ToD-transfer field (R69). -/
def todBytes (f : DsFrame) : Bytes := slice f.info 16 24

/-- A ToD field passes the three conditions of R70. -/
def todOk (f : DsFrame) (n : Nat) : Bool :=
  let b := todBytes f
  !erasedIn f.bad 16 24 && decide ((crc32c (b.take 20)).toNat = be b 20 4)
    && decide (be b 6 4 ≤ 999999999) && decide (n % 8000 = 0)

/-- The capture of an accepted field on a channel in F5 that runs on its recovered clock, in the terms of shadow A
(R317, R323, R327). -/
def captureTod (ch n : Nat) (f : DsFrame) (s : State) : State :=
  let l := laneOf s (16 + ch)
  if (actOf s ch).act == .f5 && !l.los && !l.lol then
    let b := todBytes f
    let tc : Int := ((rxOf s ch).frameAt : Int) + s.time.a.shadow.stamp - s.time.main.stamp
    let c : Capture := {
      sfc := n, tc := tc.toNat, hc := (be b 0 6 * 1000000000 + be b 6 4) * 65536 + be b 10 2 }
    { s with time := { s.time with fibre := { s.time.fibre with
        captures := tset none s.time.fibre.captures ch (some c) } } }
  else s

/-- The ToD field where the header announces one. -/
def takeTod (ch n w : Nat) (f : DsFrame) (s : State) : State :=
  if !bit w 37 then s
  else if todOk f n then captureTod ch n f s
  else bump (ck 97 10 ch) 1 s

/-- Where the bandwidth map, the station messages and the PFE region begin. -/
def mapAt (w : Nat) : Nat := 16 + 24 * b2n (bit w 37)
def msgsAt (w : Nat) : Nat := mapAt w + 8 * fld w 44 10
def regionAt (w : Nat) : Nat := msgsAt w + 48 * fld w 38 6

/-- The map: erased entries are discarded and counted, the others stand (R63, R98, R105). -/
def takeMap (ch n w : Nat) (f : DsFrame) (s : State) : State :=
  let l := List.range (fld w 44 10)
  let lost := l.filter (fun i => erasedIn f.bad (mapAt w + 8 * i) 8)
  let good := l.filter (fun i => !erasedIn f.bad (mapAt w + 8 * i) 8)
  processMap ch (n + 1) (good.map (fun i => BitVec.ofNat 64 (be f.info (mapAt w + 8 * i) 8))) (bump (ck 97 11 ch) lost.length s)

/-- The station messages put into Knarrasar's queue while its service runs (R137, R473). -/
def takeMsgs (ch n w : Nat) (f : DsFrame) (s : State) : State :=
  let l := List.range (fld w 38 6)
  let lost := l.filter (fun i => erasedIn f.bad (msgsAt w + 48 * i) 48)
  let good := l.filter (fun i => !erasedIn f.bad (msgsAt w + 48 * i) 48)
  let s1 := bump (ck 97 12 ch) lost.length s
  if actsRun s1 then
    { s1 with fib := { s1.fib with
        rxMsgs := s1.fib.rxMsgs ++ good.map (fun i => {
          ch := ch, sfc := n, bytes := slice f.info (msgsAt w + 48 * i) 48 }) } }
  else s1

/-! ### The PFE region (R71) -/

/-- The frame being processed ends: its floor counts for the bonding unit (R91). -/
def endFrame (ch : Nat) (s : State) : State :=
  if (rxOf s ch).inFrame then
    finishFloor ch (modRx ch (fun x => { x with
      inFrame := false, regionLeft := 0, region := [], badWords := [] }) s)
  else s

/-- The bits of PRBS-31, x^31 + x^28 + 1, from a state on: bit i of it is the output of i + 1 bits earlier, as in
R58 (R71; log entry 44). -/
def prbs31 : Nat → Nat → List Bool
  | 0, _ => []
  | n + 1, st =>
    let f := bit st 30 != bit st 27
    f :: prbs31 n ((st * 2 + b2n f) % 2 ^ 31)

/-- Bit errors of the test pattern in the region from byte off on; erased bytes are not compared (R71). -/
def prbsErrors (f : DsFrame) (off : Nat) : Nat :=
  let b := bitsOf (f.info.drop off)
  ((xorBits b (prbs31 b.length (2 ^ 31 - 1))).zipIdx.filter (fun e =>
    e.1 && !erasedIn f.bad (off + e.2 / 8) 1)).length

/-- The region's bytes abandoned (R79, R481). -/
def abandonBytes (ch len : Nat) (s : State) : State := bump (ck 97 17 ch) len s

/-- The region opened under the expected label (R71); it is processed in F5 only (R132), and in D2 abandoned (R481).
A frame open in a channel's unbonded context stays open when the expected label leaves 0x10 (R83; log entry 45). -/
def openRegion (ch w : Nat) (f : DsFrame) (s : State) : State :=
  let len := 1296000 - regionAt w
  let x := rxOf s ch
  let label := x.expLabel.toNat
  let on := (actOf s ch).act == .f5
  let s1 := modRx ch (fun x => { x with
    inFrame := true, frameLabel := x.expLabel
    floorNow := if label = 0x11 ∧ on then some (fld w 17 20) else none }) s
  if !on then endFrame ch (dropOpen ch 0x12 s1)
  else if s.pow.state == .d2 then endFrame ch (abandonBytes ch len (dropOpen ch 0x12 s1))
  else if label = 0x10 ∨ label = 0x11 then
    modRx ch (fun x => { x with
      regionLeft := len, region := f.info.drop (regionAt w), badWords := f.bad }) s1
  else if label = 0x20 then endFrame ch (bump (ck 97 23 ch) (prbsErrors f (regionAt w)) s1)
  else endFrame ch (bump (ck 97 20 ch) len s1)

/-- A frame processed past its counter (R55). -/
def processFrame (ch n : Nat) (f : DsFrame) (s : State) : State :=
  let w := (word1Of f).map (·.1)
  let s1 := judgeWord1 ch w (countWord1 ch f (noteCodewords ch f (bump (ck 97 0 ch) 1 s)))
  match w with
  | some w =>
    if word1Usable w then
      openRegion ch w f (takeMsgs ch n w f (takeMap ch n w f (takeTod ch n w f s1)))
    else dropOpen ch 0x12 s1
  | none => dropOpen ch 0x12 s1

/-- Frames that the doze channel does not decode in D2 (R157). -/
def dozedFrame (s : State) (n : Nat) : Bool :=
  s.pow.state == .d2 && decide (n % max 1 s.fib.doze.n ≠ s.fib.doze.start % max 1 s.fib.doze.n)

/-- T_rx of the frame that begins: at the expected position, or now as the first frame in SYNC is delivered (R54, R55,
R99). -/
def beginFrame (ch : Nat) (s : State) : State :=
  let s1 := passTrx ch s
  modRx ch (fun x => { x with trx := some ((nextTrx s ch).getD (psBits s1.now)) }) s1

/-- Arrival of a frame's first bit: after a miss it is the expected position, one frame after the arrival before
(R90, R99; log entry 44). -/
def arrivalOf (x : RxChan) (f : RxFrame) : Nat :=
  if x.misses > 0 then x.frameAt + 8192000000 else f.arrival

/-- DOWNSTREAM_FRAME (R55, R56, R63 to R73, R90, R98, R105): delivered in SYNC only. In F0 nothing is
processed (R132). -/
def execDownstreamFrame (ch : Fin 4) (f0 : RxFrame) (s : State) : Answer :=
  let f := { f0 with bytes := (laneOf s (16 + ch)).receive f0.bytes }
  if (rxOf s ch).delin != .sync || dark s ch then .next s
  else
    let s1 := beginFrame ch (endFrame ch s)
    let d := decideWord0 ch (BitVec.ofNat 64 (be f.bytes 8 8)) s1
    let s3 := judgeCounter ch d.1 d.2
    let n := (rxOf s3 ch).sfc.toNat
    let s4 := noteArrival ch n (arrivalOf (rxOf s3 ch) f) s3
    let s5 := if dozedFrame s4 n then dropOpen ch 0x12 s4 else processFrame ch n (takeApart f n) s4
    .next (modRx ch (fun x => { x with sfc := BitVec.ofNat 51 (n + 1) }) s5)

/-! ### PFE frames (R74 to R83, R88, R92) -/

/-- The rest of a frame's region on a channel is abandoned (R63, R79, R83). -/
def abandonRegion (ch : Nat) (s : State) : State :=
  let x := rxOf s ch
  let s1 := abandonBytes ch x.regionLeft s
  endFrame ch (if x.frameLabel = 0x10 then dropOpen ch 0x12 s1 else s1)

/-- A PFE frame taken out of the region; fewer than 8 bytes left end it (R77). -/
def consume (ch size : Nat) (s : State) : State :=
  let left := (rxOf s ch).regionLeft - size
  let s1 := modRx ch (fun x => { x with regionLeft := left, region := x.region.drop size }) s
  if left < 8 then endFrame ch s1 else s1

/-- The fields of a decoded PFE header (R74). -/
def pfeLen (w : Nat) : Nat := fld w 50 14
def pfePort (w : Nat) : Nat := fld w 34 16
def pfeKey (w : Nat) : Nat := fld w 30 2

/-- An idle PFE frame (R78). -/
def pfeIdle (w : Nat) : Bool := decide (pfePort w = 0xFFFF) && !bit w 33 && !bit w 32

/-- The bytes a PFE frame takes, GSN word and padding included (R76). -/
def pfeSize (bonded : Bool) (w : Nat) : Nat :=
  8 + (if bonded && !pfeIdle w then 4 else 0) + 4 * ((pfeLen w + 3) / 4)

/-- What follows a decoded PFE header in the region (R74 to R76). -/
structure PfeUnit where
  /-- The GSN word, where R75 puts one. -/
  gsnWord : Nat
  /-- The LENGTH payload bytes. -/
  payload : Bytes
  /-- GSN word or payload overlap erased bytes (R63; the padding takes no part, log entry 44). -/
  erased : Bool
  /-- Receive timestamp of the header's first bit (R330), in units of 2^-16 ns. -/
  stamp : Nat

/-- Where the next PFE header stands in the information field. -/
def headerAt (x : RxChan) : Nat := 1296000 - x.regionLeft

/-- The time from a frame's first bit to one of its bits, in units of 2^-16 ns (R46). -/
def bitUnits (n : Nat) : Nat := n * 8192000000 / 12441600

/-- The PFE frame behind a decoded header. -/
def pfeUnit (x : RxChan) (w : Nat) : PfeUnit :=
  let g := if x.frameLabel == 0x11 && !pfeIdle w then 4 else 0
  { gsnWord := be x.region 8 4, payload := slice x.region (8 + g) (pfeLen w)
    erased := erasedIn x.badWords (headerAt x + 8) (g + pfeLen w)
    stamp := x.frameAt + bitUnits (8 * frameByte (headerAt x)) }

/-- An unbonded PFE frame meets its channel's context (R83). -/
def takeUnbonded (ch w : Nat) (own : Bool) (f : PfeUnit) (s : State) : State :=
  if !own then dropOpen ch 0x10 s
  else
    let frag : Frag := {
      portId := BitVec.ofNat 16 (pfePort w), first := bit w 33, last := bit w 32
      keyIdx := BitVec.ofNat 2 (pfeKey w), payload := f.payload, stamp := f.stamp }
    let (ctx, t) := takeFragment (rxOf s ch).ctx frag s
    modRx ch (fun x => { x with ctx := ctx }) t

/-- The case of R92 that discards an arriving GSN, as its counter row of R97. -/
def bondRefusal (s : State) (ch g : Nat) : Option Nat :=
  let b := s.fib.bond
  if b.started && g != b.next && before 20 g b.next then some 26
  else if (match (rxOf s ch).lastGsn with
      | some l => !gsnAfter g l
      | none => false) then some 27
  else if b.started && decide (subMod 20 g b.next ≥ 393216) then some 28
  else none

/-- The highest GSN that a channel has delivered (R91). -/
def noteGsn (ch g : Nat) (s : State) : State :=
  modRx ch (fun x => { x with lastGsn :=
    match x.lastGsn with
    | some l => if gsnAfter g l then some g else some l
    | none => some g }) s

/-- A sequenced PFE frame meets the bonding unit (R88, R91, R92); a channel that takes no part leaves
nothing there, and a number received already is not stored again. -/
def takeBonded (ch w : Nat) (own : Bool) (f : PfeUnit) (s : State) : State :=
  let g := fld f.gsnWord 12 20
  if !bit s.fib.bond.members.toNat ch || (rxOf s ch).joining then s
  else
    let s1 := noteGsn ch g s
    match bondRefusal s ch g with
    | some row => bondRelease (bump (ck 97 row 4) 1 s1)
    | none =>
      if (storedAt s g).isSome then bondRelease s1
      else
        let e : Stored := {
          gsn := g, foreign := !own, portId := BitVec.ofNat 16 (pfePort w), first := bit w 33
          last := bit w 32, keyIdx := BitVec.ofNat 2 (pfeKey w)
          payload := if own then f.payload else [], stamp := f.stamp }
        bondRelease (modRx ch (fun x => { x with store := x.store ++ [e] }) s1)

/-- A sequenced or unbonded PFE frame within the region. A foreign one whose payload is erased ends an open frame as
PFE_ERASED (R63, R83; log entry 45). -/
def takePfe (ch w : Nat) (f : PfeUnit) (s : State) : State :=
  let bonded := (rxOf s ch).frameLabel == 0x11
  let own := (tget none s.fib.ports (pfePort w)).isSome
  let s1 := bump (ck 97 (if own then 22 else 21) ch) (pfeSize bonded w) s
  if f.erased then (if bonded then s1 else dropOpen ch 0x12 s1)
  else if !bonded then takeUnbonded ch w own f s1
  else if gsnCrc f.gsnWord ≠ f.gsnWord % 256 then bump (ck 97 18 ch) 1 s1
  else takeBonded ch w own f s1

/-- PFE_FRAME (R74 to R83, R88, R91 to R93): the next PFE frame of the region being parsed. An idle frame is skipped
(R78), also where its payload is erased: that it does not discard an open frame as R83's erased frame does is the
model's choice (DESIGN CHOICE, log entry 52). -/
def execPfeFrame (ch : Fin 4) (_ : Unit) (s : State) : Answer :=
  let x := rxOf s ch
  if !x.inFrame || decide (x.regionLeft < 8) then .next s
  else if erasedIn x.badWords (headerAt x) 8 then .next (abandonRegion ch s)
  else match hecDecode (be x.region 0 8) with
    | none => .next (abandonRegion ch (bump (ck 97 16 ch) 1 s))
    | some (w, corrected) =>
      let s1 := if corrected then bump (ck 97 15 ch) 1 s else s
      let s2 := if fld w 13 17 ≠ 0 then bump (ck 97 19 ch) 1 s1 else s1
      let size := pfeSize (x.frameLabel == 0x11) w
      if size > x.regionLeft then .next (abandonRegion ch s2)
      else if pfeIdle w then .next (consume ch size (bump (ck 97 20 ch) (pfeLen w) s2))
      else .next (consume ch size (takePfe ch w (pfeUnit x w)
        (crossLink (linkNo 0 ch) (entriesFor .packet size) s2)))

/-! ### Windows (R95) -/

/-- SIGNAL_FAIL_WINDOW (R95): the end of a 1 ms window; one that is not delivered breaks both runs. -/
def execSignalFailWindow (ch : Fin 4) (s : State) : Answer :=
  let x := rxOf s ch
  if x.delin != .sync then .next (modRx ch (fun x => { x with winBad := false, sfRun := 0 }) s)
  else
    let n := runOf x.winBad x.sfBad x.sfRun
    let s1 := modRx ch (fun x => { x with sfBad := x.winBad, sfRun := n, winBad := false }) s
    if x.winBad && decide (n ≥ 3) then .next (setDefect ch 6 true s1)
    else if !x.winBad && decide (n ≥ 10) then .next (setDefect ch 6 false s1)
    else .next s1

/-- SIGNAL_DEGRADE_WINDOW (R95): corrected bits against 10^-n of the received bits. -/
def execSignalDegradeWindow (ch : Fin 4) (s : State) : Answer :=
  let bits := (rxOf s ch).winBits
  let received := (rxOf s ch).winRx
  let n := s.fib.policy.degradeExp
  let s1 := modRx ch (fun x => { x with winBits := 0, winRx := 0 }) s
  if bits * 10 ^ n > received then .next (setDefect ch 5 true s1)
  else if bits * 10 ^ (n + 1) < received then .next (setDefect ch 5 false s1)
  else .next s1

/-! ### The bonding unit (R91, R94) -/

/-- BOND_WAIT_EXPIRY (R91, R95): 250 µs after the first floor that exceeds NEXT was finished. -/
def execBondWaitExpiry (s : State) : Answer :=
  if s.fib.bond.started then .next (bondRelease (passSince (firstFloorTime s) (us 250) s))
  else .next s

/-- BOND_RESERVATION_FREE (R94): a removed member's store is empty. -/
def execBondReservationFree (ch : Fin 4) (s : State) : Answer :=
  let x := rxOf s ch
  if decide (x.reserved > 0) && !bit s.fib.bond.members.toNat ch && x.store.isEmpty then
    .next (modRx ch (fun y => { y with reserved := 0 })
      { s with tm := { s.tm with free := s.tm.free + x.reserved } })
  else .next s

end Sys2Proof.Machine
end

