-- ==== Sys2Proof/Machine/FibreCmds.lean ====
section
/-! DEFINITION. The fibre commands (R455, R456). -/

namespace Sys2Proof.Machine

open Sys2Proof

/-! ### FIBRE_SET_CHANNEL -/

/-- The payload labels of R71. -/
def knownLabels : List Nat := [0x00, 0x01, 0x10, 0x11, 0x20, 0x3E]

/-- The channel settings stored; the transmitter follows TX_ENABLE (R127). -/
def storeChannel (ch flags label chan : Nat) (s : State) : State :=
  let s1 := modRx ch (fun x => { x with
    expLabel := BitVec.ofNat 8 label, expChan := subMod 2 chan ch }) s
  syncTx ch (movePin ch (modAct ch (fun x => { x with
    activate := bit flags 0, txEnable := bit flags 1, benLow := bit flags 2
    benSet := true })) s1)

/-- ACTIVATE acts at once in ACTIVE and DEGRADED, its clearing in every state (R133, R456). -/
def applyActivate (ch : Nat) (on : Bool) (s : State) : State :=
  if !on then goDark ch s
  else if s.dev.state == .active || s.dev.state == .degraded then lightUp ch s
  else s

def cmdFibreSetChannel : CmdSpec where
  opcode := 0x0201
  lenOk := fixedLen 4
  args := fun _ => [boundArg 0 1 0 3, flagArg 1 3, rangeArg 2 1 (fun v => knownLabels.contains v),
    boundArg 3 1 0 3]
  legal := clsL
  run := fun _ a s =>
    let ch := byteAt a 0
    done (applyActivate ch (bit (byteAt a 1) 0)
      (storeChannel ch (byteAt a 1) (byteAt a 2) (byteAt a 3) s))

/-- FIBRE_SET_CHANNEL (R71, R73, R127, R133, R455, R456). -/
def execFibreSetChannel (n : Fin 16) (s : State) : Answer := .next (takeUp cmdFibreSetChannel n s)

/-! ### FIBRE_SET_BOND -/

/-- A channel number or 0xFF for none. -/
def chanOpt (v : Nat) : Option Nat := if v = 0xFF then none else some v

/-- The first joining channel that R94 refuses. -/
def joinRefused (s : State) (mask : Nat) : Option Nat :=
  (List.range 4).find? (fun c =>
    bit mask c && !bit s.fib.bond.members.toNat c && !canJoin s c)

/-- The membership of the mask; leaving members first. -/
def setMembers (mask : Nat) (s : State) : State :=
  let s1 := forEach (List.range 4) (fun c s => if bit mask c then s else removeMember c s) s
  forEach (List.range 4) (fun c s => if bit mask c then addMember c s else s) s1

def cmdFibreSetBond : CmdSpec where
  opcode := 0x0202
  lenOk := fixedLen 3
  args := fun a => [boundArg 0 1 0 15, rangeArg 1 1 (fun v => decide (v ≤ 3) || v == 0xFF),
    rangeArg 2 1 (fun v => (decide (v ≤ 3) && v != byteAt a 1) || v == 0xFF)]
  legal := clsL
  run := fun _ a s =>
    match joinRefused s (byteAt a 0) with
    | some c => refuseWord stResource c s
    | none =>
      done (modBond (fun b => { b with
        working := chanOpt (byteAt a 1), standby := chanOpt (byteAt a 2) })
        (setMembers (byteAt a 0) s))

/-- FIBRE_SET_BOND (R85, R87, R94, R455, R456). -/
def execFibreSetBond (n : Fin 16) (s : State) : Answer := .next (takeUp cmdFibreSetBond n s)

/-! ### FIBRE_SET_GROUPS -/

/-- A mask is one of the three kinds of R150, or empty. -/
def groupKind (s : State) (m : Nat) : Bool :=
  let b := s.fib.bond
  let pair := match b.working, b.standby with
    | some w, some t => maskOf [w, t]
    | _, _ => 0
  m == 0 || m == b.members.toNat || m == pair
    || (popCount 4 m == 1 && Nat.land m b.members.toNat == 0)

/-- The first mask that overlaps an earlier one, or is of no kind of R150. -/
def groupFault (s : State) (a : Bytes) : Option (Nat × Nat) :=
  ((List.range 4).find? (fun i =>
    !groupKind s (byteAt a i)
      || (List.range i).any (fun j => Nat.land (byteAt a i) (byteAt a j) != 0))).map
    (fun i => (stRange, i))

/-- The group of a channel, with its mask, under four masks. -/
def groupUnder (masks : List Nat) (ch : Nat) : Option (Nat × Nat) :=
  (masks.zipIdx.find? (fun e => bit e.1 ch)).map (fun e => (e.2, e.1))

/-- A channel in F3 to F6. -/
def midway (s : State) (ch : Nat) : Bool :=
  match (actOf s ch).act with
  | .f3 | .f4 | .f5 | .f6 => true
  | _ => false

/-- A channel whose group would change is in F3 to F6 (R456). -/
def groupsBusy (s : State) (a : Bytes) : Bool :=
  let old := (List.range 4).map (fun g => (groupOf s g).mask.toNat)
  let new := (List.range 4).map (byteAt a)
  (List.range 4).any (fun c => midway s c && groupUnder old c != groupUnder new c)

/-- The masks written; groups left with no channel in F5 or F6 hold no root, and the slots of keyed
ports follow their group (R154, R286). -/
def setGroups (a : Bytes) (s : State) : State :=
  restoreSlots (endGroups (forEach (List.range 4)
    (fun g s => modGroup g (fun x => { x with mask := BitVec.ofNat 4 (byteAt a g) }) s) s))

def cmdFibreSetGroups : CmdSpec where
  opcode := 0x0203
  lenOk := fixedLen 4
  args := fun _ => (List.range 4).map (fun g => boundArg g 1 0 15)
  also := groupFault
  legal := clsL
  run := fun _ a s => if groupsBusy s a then refuseFree stBusy s else done (setGroups a s)

/-- FIBRE_SET_GROUPS (R150, R455, R456). -/
def execFibreSetGroups (n : Fin 16) (s : State) : Answer := .next (takeUp cmdFibreSetGroups n s)

/-! ### FIBRE_SET_PORT_ID and FIBRE_SET_UPSTREAM -/

/-- Slots that Knarrasar deals to keyed port IDs and upstream queues (R286). -/
def dealtSlots : Nat := 4608

/-- A keyed port's derived slot written in a free slot; none where the slots overflow. -/
def dealSlot (dir port : Nat) (s : State) : Option (Nat × State) :=
  (freeSlot s 0 dealtSlots).map (fun k =>
    (k, writeSlot k (slotWord false (keyGroup s) dir port) s))

/-- One port ID added (R80, R229, R286): its result and the state, none where a store overflows. -/
def addPortId (port cls : Nat) (keyed : Bool) (s : State) : Option (Byte × State) :=
  if (tget none s.fib.ports port).isSome then some (0x01, s)
  else if s.fib.ports.length ≥ 4096 then none
  else
    let put := fun (k : Option Nat) (s : State) =>
      { s with fib := { s.fib with
          ports := tset none s.fib.ports port (some { cls := cls, keySlot := k }) } }
    if keyed then (dealSlot 0 port s).map (fun e => (0x00, put (some e.1) e.2))
    else some (0x00, put none s)

/-- One port ID removed; its slot is free again. -/
def removePortId (port : Nat) (s : State) : Byte × State :=
  match tget none s.fib.ports port with
  | none => (0x02, s)
  | some o =>
    let s1 := match o.keySlot with
      | some k => writeSlot k 0 s
      | none => s
    (0x00, { s1 with fib := { s1.fib with ports := tset none s1.fib.ports port none } })

/-- The items of a command in order, all or nothing. -/
def portItems (remove : Bool) (a : Bytes) : List Nat → Bytes → State → Option (Bytes × State)
  | [], acc, s => some (acc, s)
  | i :: l, acc, s =>
    let port := le a (8 + 8 * i) 2
    if remove then
      let (r, t) := removePortId port s
      portItems remove a l (acc ++ [r]) t
    else
      match addPortId port (byteAt a (10 + 8 * i)) (bit (byteAt a (11 + 8 * i)) 0) s with
      | none => none
      | some (r, t) => portItems remove a l (acc ++ [r]) t

/-- The fields of item i. -/
def portItemArgs (i : Nat) : List Arg :=
  [boundArg (8 + 8 * i) 2 0 0xFFFE, boundArg (10 + 8 * i) 1 20 63, flagArg (11 + 8 * i) 1]

def cmdFibreSetPortId : CmdSpec where
  opcode := 0x0204
  lenOk := countedLen 8 8 (fun a => fld (le a 0 2) 0 15)
  args := fun a => rangeArg 0 2 (fun v => decide (1 ≤ fld v 0 15) && decide (fld v 0 15 ≤ 224))
    :: (List.range (min 224 (fld (le a 0 2) 0 15))).flatMap portItemArgs
  legal := clsL
  run := fun _ a s =>
    match portItems (bit (le a 0 2) 15) a (List.range (fld (le a 0 2) 0 15)) [] s with
    | some (r, t) => doneWith r t
    | none => refuseFree stResource s

/-- FIBRE_SET_PORT_ID (R80, R229, R286, R455, R456). -/
def execFibreSetPortId (n : Fin 16) (s : State) : Answer := .next (takeUp cmdFibreSetPortId n s)

/-- An upstream queue's port ID, with the slot of a keyed one (R115, R286). -/
def setUpstream (q port : Nat) (keyed : Bool) (s : State) : Option State :=
  let old := (tget {} s.up.queues q).slot
  let s1 := match old with
    | some k => writeSlot k 0 s
    | none => s
  let put := fun (k : Option Nat) (s : State) =>
    let x : UpQueue := { portId := BitVec.ofNat 16 port, keyed := keyed, slot := k }
    { s with up := { s.up with queues := tset {} s.up.queues q x } }
  if keyed then (dealSlot 1 port s1).map (fun e => put (some e.1) e.2) else some (put none s1)

def cmdFibreSetUpstream : CmdSpec where
  opcode := 0x0205
  lenOk := fixedLen 5
  args := fun _ => [boundArg 0 2 0 511, boundArg 2 2 0 0xFFFE, flagArg 4 1]
  legal := clsL
  run := fun _ a s =>
    match setUpstream (le a 0 2) (le a 2 2) (bit (byteAt a 4) 0) s with
    | some t => done t
    | none => refuseFree stResource s

/-- FIBRE_SET_UPSTREAM (R115, R286, R455). -/
def execFibreSetUpstream (n : Fin 16) (s : State) : Answer := .next (takeUp cmdFibreSetUpstream n s)

/-! ### FIBRE_SET_ALLOC_QUEUES -/

/-- The list entries of the arguments (R117). -/
def listEntries (a : Bytes) : List ListEntry :=
  (List.range (byteAt a 2)).map (fun i => {
    queue := le a (8 + 4 * i) 2, weighted := byteAt a (10 + 4 * i) == 1
    weight := byteAt a (11 + 4 * i) })

/-- The list an allocation has, or the one stored for it. -/
def listOf (s : State) (id : Nat) : List ListEntry :=
  match allocOf s id with
  | some a => a.list
  | none => (tget none s.up.storedLists id).getD []

/-- The queue, or the staging buffer of its allocation, holds a frame from it (R118). -/
def queueHolds (s : State) (q : Nat) : Bool :=
  !(queueOf s (128 + q)).pkts.isEmpty
    || s.up.allocs.any (fun a => a.staging.any (fun f => f.queue == q))

/-- Every queue that a list of an allocation names. -/
def ownerLists (s : State) : List (Nat × List ListEntry) :=
  s.up.allocs.map (fun a => (a.id, a.list))
    ++ s.up.storedLists.filterMap (fun e => e.2.map (fun l => (e.1, l)))

/-- The queues that a new list moves from another allocation, or removes from this one. -/
def queuesMoved (s : State) (id : Nat) (new : List ListEntry) : List Nat :=
  let names := new.map (·.queue)
  let gone := ((listOf s id).map (·.queue)).filter (fun q => !names.contains q)
  let taken := names.filter (fun q =>
    (ownerLists s).any (fun e => e.1 != id && e.2.any (fun x => x.queue == q)))
  gone ++ taken

/-- A list without some queues; the round begins anew where it changed. -/
def dropQueues (qs : List Nat) (a : Alloc) : Alloc :=
  let l := a.list.filter (fun e => !qs.contains e.queue)
  if l = a.list then a else { a with list := l, deficits := [], turn := 0 }

/-- The list of an allocation set, its queues taken from every other list (R118, R456). -/
def setList (id : Nat) (new : List ListEntry) (s : State) : State :=
  let names := new.map (·.queue)
  let allocs := s.up.allocs.map (fun a =>
    if a.id = id then { a with list := new, deficits := [], turn := 0 } else dropQueues names a)
  let clean := s.up.storedLists.filterMap (fun e =>
    let l := ((e.2.getD []).filter (fun x => !names.contains x.queue))
    if l.isEmpty then none else some (e.1, some l))
  let stored := if (allocOf s id).isSome || new.isEmpty then tset none clean id none
    else tset none clean id (some new)
  { s with up := { s.up with allocs := allocs, storedLists := stored } }

/-- A queue named twice in one list. -/
def listRepeats (_ : State) (a : Bytes) : Option (Nat × Nat) :=
  let l := (listEntries a).map (·.queue)
  ((List.range l.length).find? (fun i => (l.take i).contains (l.getD i 0))).map
    (fun i => (stRange, 8 + 4 * i))

/-- The fields of entry i: a strict entry has no weight. -/
def listEntryArgs (a : Bytes) (i : Nat) : List Arg :=
  [boundArg (8 + 4 * i) 2 0 511, boundArg (10 + 4 * i) 1 0 1,
    rangeArg (11 + 4 * i) 1 (fun v => (v == 0) == (byteAt a (10 + 4 * i) == 0))]

def cmdFibreSetAllocQueues : CmdSpec where
  opcode := 0x0206
  lenOk := countedLen 8 4 (fun a => byteAt a 2)
  args := fun a => boundArg 0 2 0 0x3FEF :: boundArg 2 1 0 8
    :: (List.range (min 8 (byteAt a 2))).flatMap (listEntryArgs a)
  also := listRepeats
  legal := clsL
  run := fun _ a s =>
    let id := le a 0 2
    let new := listEntries a
    if (queuesMoved s id new).any (queueHolds s) then refuseFree stBusy s else done (setList id new s)

/-- FIBRE_SET_ALLOC_QUEUES (R117, R118, R455, R456). -/
def execFibreSetAllocQueues (n : Fin 16) (s : State) : Answer :=
  .next (takeUp cmdFibreSetAllocQueues n s)

/-! ### FIBRE_SET_HE_KEY and FIBRE_SET_POLICY -/

def cmdFibreSetHeKey : CmdSpec where
  opcode := 0x0207
  lenOk := fixedLen 96
  args := fun _ => [anyArg 0 96]
  also := fun _ a => if validPoint (fit 96 a) then none else some (stRange, 0)
  legal := clsL
  run := fun _ a s => done { s with fib := { s.fib with heKey := some (fit 96 a) } }

/-- FIBRE_SET_HE_KEY (R150, R151, R455, R456). -/
def execFibreSetHeKey (n : Fin 16) (s : State) : Answer := .next (takeUp cmdFibreSetHeKey n s)

/-- An action code of R455 that R159 allows for a trigger row. -/
def actionAllowed (row v : Nat) : Bool := decide (v ≤ 1) || (v == 2 && decide (row ≤ 2))

def actionOf : Nat → Action
  | 0 => .report | 1 => .withdraw | _ => .switch

/-- The policy that the arguments spell. -/
def policyOf (a : Bytes) : Policy :=
  { action := (List.range 6).foldl (fun t i => tset .withdraw t i (actionOf (byteAt a i))) []
    holdoff := (List.range 6).foldl (fun t i => tset 0 t i (le a (8 + 2 * i) 2)) []
    restoreMs := le a 20 2, degradeExp := byteAt a 22, rekeyS := le a 24 4 }

def cmdFibreSetPolicy : CmdSpec where
  opcode := 0x0208
  lenOk := fixedLen 28
  args := fun a => (List.range 6).map (fun i => rangeArg i 1 (actionAllowed i))
    ++ (List.range 6).map (fun i => rangeArg (8 + 2 * i) 2 (fun v =>
        decide (v ≤ 60000) && (v == 0 || byteAt a i == 0)))
    ++ [boundArg 20 2 0 60000, boundArg 22 1 3 7, boundArg 24 4 0 86400]
  legal := clsL
  run := fun _ a s => done { s with fib := { s.fib with policy := policyOf a } }

/-- FIBRE_SET_POLICY (R95, R156, R159, R161, R455, R456). -/
def execFibreSetPolicy (n : Fin 16) (s : State) : Answer := .next (takeUp cmdFibreSetPolicy n s)

/-! ### Reads -/

def Delin.code : Delin → Nat
  | .hunt => 0 | .presync => 1 | .sync => 2

/-- Defects raised on a channel; the bonding unit's skew stands on each of its members. -/
def defectWord (s : State) (ch : Nat) : Nat :=
  let skew := s.fib.bond.skewDefect && bit s.fib.bond.members.toNat ch
  (rxOf s ch).defects.toNat % 64 + 64 * b2n skew

/-- Channel group byte: a free value for a channel in none (log entry 5). -/
def groupByte (s : State) (ch : Nat) : Byte × State :=
  let g := groupIdOf s ch
  if g < 4 then (BitVec.ofNat 8 g, s)
  else
    let (v, t) := takeFree s
    (BitVec.ofNat 8 v, t)

/-- The status of a channel (R455). -/
def fibreStatus (s : State) (ch : Nat) (group : Byte) : Bytes :=
  let x := actOf s ch
  let g := groupOf s (groupIdOf s ch)
  let id := match x.stationId with
    | some i => i.toNat
    | none => 0xFFFF
  let root := if g.curRoot then 2 else if g.pendRoot then 1 else 0
  leBytes 1 x.act.code ++ leBytes 1 (rxOf s ch).delin.code ++ leBytes 2 (defectWord s ch)
    ++ leBytes 4 (x.eqd.getD 0) ++ leBytes 2 id ++ leBytes 4 ((rxOf s ch).skew / 65536) ++ [group]
    ++ leBytes 1 root ++ leBytes 4 g.epoch

def cmdFibreReadStatus : CmdSpec where
  opcode := 0x0209
  lenOk := fixedLen 1
  args := fun _ => [boundArg 0 1 0 3]
  legal := clsQ
  run := fun _ a s =>
    let (g, t) := groupByte s (byteAt a 0)
    doneWith (fibreStatus t (byteAt a 0) g) t

/-- FIBRE_READ_STATUS (R455). -/
def execFibreReadStatus (n : Fin 16) (s : State) : Answer := .next (takeUp cmdFibreReadStatus n s)

/-- Counter keys of a channel, in the row order of R97, R130 and R166. -/
def channelKeys (ch : Nat) : List Nat :=
  (List.range 24).map (fun i => ck 97 i ch) ++ (List.range 22).map (fun i => ck 130 i ch)
    ++ [ck 130 32 ch] ++ ((List.range 26).filter (· != 9)).map (fun i => ck 166 i ch)

/-- Counter keys of the bonding unit and of the terminal as a whole. -/
def groupKeys : List Nat :=
  (List.range 6).map (fun i => ck 97 (24 + i) 4) ++ (List.range 4).map (fun c => ck 97 30 c)
    ++ [ck 130 28 0, ck 130 29 0, ck 166 26 0, ck 166 28 0, ck 166 30 0, ck 166 31 0, ck 166 32 0]
    ++ (List.range 4).map (fun c => ck 166 37 c) ++ (List.range 4).map (fun c => ck 166 38 c)

/-- The skew high-water marks are cleared as they are read (R9, R97). -/
def clearSkewHigh (s : State) : State := forEach (List.range 4) (fun c s => setCount (ck 97 30 c) 0 s) s

def cmdFibreReadCounters : CmdSpec where
  opcode := 0x020A
  lenOk := fixedLen 1
  args := fun _ => [boundArg 0 1 0 4]
  legal := clsQ
  run := fun _ a s =>
    let group := byteAt a 0 == 4
    let keys := if group then groupKeys else channelKeys (byteAt a 0)
    doneWith (keys.flatMap (fun k => leBytes 8 (s.count k))) (if group then clearSkewHigh s else s)

/-- FIBRE_READ_COUNTERS (R97, R130, R166, R455). -/
def execFibreReadCounters (n : Fin 16) (s : State) : Answer :=
  .next (takeUp cmdFibreReadCounters n s)

end Sys2Proof.Machine
end

