-- ==== Sys2Proof/Machine/ObsOps.lean ====
section
/-! DEFINITION. Alarms (R301 to R303, R551), supply conditions and pin defects, which the fault, supply and device
steps share. -/

namespace Sys2Proof.Machine

open Sys2Proof

/-! ### Alarms -/

/-- The alarm sources asserted now (R453); a lockstep mismatch holds its line until a reset (R549). -/
def assertedMask (s : State) : Nat := Nat.lor s.dev.alarmNow.toNat (16 * b2n s.dev.lockstep)

/-- A source asserted or no longer asserted. -/
def assertSource (src : Nat) (b : Bool) (s : State) : State :=
  { s with dev := { s.dev with alarmNow := BitVec.ofNat 5 (setBit s.dev.alarmNow.toNat src b) } }

/-- Propolis sends the erase order to each cipher island and to the key-derivation unit; an engine whose power domain is
off takes no part (R302, R487). -/
def sendEraseOrder (s : State) : State :=
  forEach (List.range 9) (fun i s =>
    if domainOn s (islandDomain (linkAt (linkNo 19 i)).receiver) then crossLink (linkNo 19 i) 1 s else s) s

/-- The erasure of R302 begins, and the device is on its way to SAFE (R39, R442, R444). -/
def beginErasure (src : Nat) (s : State) : State :=
  let s1 := raise 0x0102 true src []
    { s with dev := { s.dev with erasing := true, alarmSinceReset := true } }
  headForSafe (zeroKeys (eraseRequests (sendEraseOrder s1)))

/-- A qualified alarm: counted and latched; a second one during erasure, and one that asserts again in
SAFE, change nothing else (R303, R551). -/
def raiseAlarm (src : Nat) (s : State) : State :=
  let again := s.dev.erasing || (s.dev.state == .safe && bit s.dev.alarmLatch.toNat src)
  let s1 := bump (ck 305 37 src) 1 { s with dev := { s.dev with
    alarmLatch := BitVec.ofNat 5 (setBit s.dev.alarmLatch.toNat src true) } }
  if again then s1 else beginErasure src s1

/-- A source whose condition has been found: it raises the alarm as it becomes asserted. -/
def holdSource (src : Nat) (s : State) : State :=
  if bit s.dev.alarmNow.toNat src then s else raiseAlarm src (assertSource src true s)

/-- DEVICE_ERASE_KEYS completes once the erasure is done and the device is in SAFE (R454). -/
def concludeErase (s : State) : State :=
  match waiting s 0x010A with
  | some r => if s.dev.erasing || s.dev.state != .safe then s else conclude r.mbx stOk false false [] s
  | none => s

/-! ### Supply conditions (R589, R591) -/

/-- The dying-gasp condition begins, counted at each onset. -/
def dyingGaspOnset (s : State) : State :=
  if s.sup.dyingGasp then s
  else bump (ck 612 0 0) 1 { s with sup := { s.sup with dyingGasp := true } }

/-- Since when PGOOD_IN has been high and VIN above 2.65 V together. -/
def noteGood (s : State) : State :=
  let good := s.sup.pgood && decide (s.sup.vinMv > 2650)
  { s with sup := { s.sup with
    goodSince := if good then some (s.sup.goodSince.getD s.now) else none } }

/-! ### Defects of pins (R128, R576) -/

/-- A filtered transition of a laser-fault input. -/
def laserFault (ch : Nat) (level : Bool) (s : State) : State :=
  if (actOf s ch).txFault = level then s
  else
    let s1 := modAct ch (fun x => { x with txFault := level }) s
    let s2 := raise 0x0205 false ch (leBytes 1 (b2n level)) (bump (ck 130 (if level then 32 else 36) ch) 1 s1)
    noteTriggers ch s2

end Sys2Proof.Machine
end

