-- ==== Sys2Proof/Machine/Faults.lean ====
section
/-! DEFINITION. Alarms, sensors, the Warden, and the slow pins (chapters 8, 17, 18 and R37, R38). -/

namespace Sys2Proof.Machine

open Sys2Proof

/-! ### Alarms (R301 to R303, R551) -/

/-- ALARM (R302): the source of this number has been qualified. -/
def execAlarm (src : Fin 5) (s : State) : Answer := .next (raiseAlarm src s)

/-- ERASE_DONE (R302): the erased stores read back as zero. -/
def execEraseDone (s : State) : Answer :=
  if s.dev.erasing then
    let s1 := raise 0x0103 true 0xFF []
      (bump (ck 305 38 0) 1 { s with dev := { s.dev with erasing := false } })
    .next (concludeErase s1)
  else .next s

/-- TAMPER_CHECK (R547): three mismatches in a row qualify. -/
def execTamperCheck (same : Bool) (s : State) : Answer :=
  if same then .next (assertSource 0 false { s with pow := { s.pow with tamperRun := 0 } })
  else
    let run := s.pow.tamperRun + 1
    let s1 := { s with pow := { s.pow with tamperRun := run } }
    .next (if run ≥ 3 then holdSource 0 s1 else s1)

/-- LOCKSTEP_MISMATCH (R549): the Warden-order line stays asserted until a reset. -/
def execLockstepMismatch (s : State) : Answer :=
  let s1 := { s with dev := { s.dev with lockstep := true } }
  .next (if s.dev.lockstep then s1 else raiseAlarm 4 s1)

/-- The Warden runs: the core rails are up. -/
def wardenRuns (s : State) : Bool := s.dev.state != .cold

/-- WATCHDOG (R550): a watchdog record that names the loop, then a warm reset. -/
def execWatchdog (loop : Fin 32) (s : State) : Answer :=
  if wardenRuns s then .next (warmReset 0x05 (amberRecord 0x000E false (leBytes 1 loop) s)) else .next s

/-- HIVE_MEMORY_ERROR (R507, R509): the event of region 14 with the word's address, a free one of its 2 MiB,
and a warm reset. -/
def execHiveMemoryError (s : State) : Answer :=
  if wardenRuns s then
    let (v, s1) := takeFree (bump (ck 511 5 14) 1 s)
    .next (warmReset 0x06 (raise 0x0B03 true 14 (leBytes 8 (8 * (v % 262144))) s1))
  else .next s

/-- RANDOM_RESEED (R554): 60 s after the last seed. -/
def execRandomReseed (s : State) : Answer :=
  if afterLoading s then .next (reseed (passTo (s.mnt.seedAt + ms 60000) s)) else .next s

/-! ### Thermal sensors (R38, R547) -/

/-- A conversion taken into a sensor. -/
def takeReading (t : Int) (now : Nat) (x : Sensor) : Sensor :=
  { x with
    reading := t, at_ := now, failed := false, overAlarm := decide (t > 1250), overHot := decide (t ≥ 1180)
    coolAt := if t ≤ 1120 then some (x.coolAt.getD now) else none }

/-- The hard thermal throttle begins (R38). -/
def beginThrottle (sensor : Nat) (s : State) : State :=
  if s.pow.throttle then s
  else raise 0x0A02 true sensor (leBytes 1 1)
    (setCause 1 true { s with pow := { s.pow with throttle := true } })

/-- A reading that the sensor's range allows (R547). -/
def readingOk (t : Int) : Bool := decide (-550 ≤ t) && decide (t ≤ 1500)

/-- One reading taken, or discarded and counted (R547). -/
def noteReading (e : Fin 24 × Int) (s : State) : State :=
  if readingOk e.2 then modSensor e.1 (takeReading e.2 s.now) s else bump (ck 547 0 e.1) 1 s

/-- The sensors that cross 118 °C in a conversion: on two conversions in a row (R38, R547). -/
def crossing (s : State) (l : List (Fin 24 × Int)) : List Nat :=
  (l.filter (fun e => readingOk e.2 && (sensorOf s e.1).overHot && decide (e.2 ≥ 1180))).map (·.1.val)

/-- The lowest of some sensor numbers. -/
def lowest (l : List Nat) : Nat := l.foldl min 23

/-- THERMAL_CONVERSION (R38, R301, R547): the readings of one conversion; the throttle's event names the
lowest-numbered sensor that crossed. -/
def execThermalConversion (sensor : Fin 24) (t : Int) (s : State) (others : List (Fin 24 × Int) := []) : Answer :=
  let l := (sensor, t) :: others
  let s1 := l.foldl (fun s e => noteReading e s) s
  let hot := crossing s l
  let s2 := if hot.isEmpty then s1 else beginThrottle (lowest hot) s1
  if l.any (fun e => readingOk e.2 && (sensorOf s e.1).overAlarm && decide (e.2 > 1250)) then
    .next (holdSource 2 s2)
  else if (List.range 24).any (fun k => (sensorOf s2 k).overAlarm) then .next s2
  else .next (assertSource 2 false s2)

/-- A sensor stands in the way of the release: it has not failed and reads above 112 °C. That a failed sensor, which
reads nothing, does not hold the throttle is the model's choice (DESIGN CHOICE, log entry 43). -/
def stillHot (x : Sensor) : Bool := !x.failed && decide (x.reading > 1120)

/-- The sensor last to fall to 112 °C, the lowest-numbered of several, and its instant. -/
def lastToCool (s : State) : Nat × Nat :=
  (List.range 24).foldl (fun best k =>
    let at_ := (sensorOf s k).coolAt.getD 0
    if at_ > best.2 then (k, at_) else best) (0, (sensorOf s 0).coolAt.getD 0)

/-- THROTTLE_RELEASE (R38): every sensor has read 112 °C or less for 10 ms. -/
def execThrottleRelease (s : State) : Answer :=
  if s.pow.throttle && !(List.range 24).any (fun k => stillHot (sensorOf s k)) then
    let (k, at_) := lastToCool s
    let s1 := passTo (at_ + ms 10) s
    .next (raise 0x0A02 true k (leBytes 1 0)
      (setCause 1 false { s1 with pow := { s1.pow with throttle := false } }))
  else .next s

/-- SENSOR_FAILED (R547, R617): no conversion for 1 ms. -/
def execSensorFailed (sensor : Fin 24) (s : State) : Answer :=
  if (sensorOf s sensor).failed then .next s
  else
    let s1 := passTo ((sensorOf s sensor).at_ + ms 1) s
    .next { modSensor sensor (fun x => { x with failed := true }) s1 with
            hif := { s1.hif with sensorFail := true } }

/-! ### Pins -/

/-- TXFAULT_TRANSITION (R128, R547): while the optic bank is isolated the input reads as asserted. -/
def execTxfaultTransition (ch : Fin 4) (level : Bool) (s : State) (held : Nat := 2000000) : Answer :=
  .next (deglitch 0 ch (us 2) held (fun s =>
    let s1 := modAct ch (fun x => { x with txPin := level }) s
    if s.sup.vioLow then s1 else laserFault ch level s1) s)

/-- The optic bank isolated or returned to service: every BEN pin that moves (R37, R576). -/
def isolateOptics (low : Bool) (s : State) : State :=
  showPins s { s with sup := { s.sup with vioLow := low } }

/-- VIO_OPT_LOW (R576, R580): below 1.6 V for 10 µs, the optic bank is isolated; the laser-fault inputs read as
asserted. -/
def execVioOptLow (s : State) (held : Nat := 10000000) : Answer :=
  if s.sup.vioLow then .next s
  else
    .next (deglitch 4 0 (us 10) held
      (fun s => forEach (List.range 4) (fun c s => laserFault c true s) (isolateOptics true s)) s)

/-- VIO_OPT_RESTORE (R576): the bank returns to service 10 µs after VIO_OPT has risen above 1.65 V. -/
def execVioOptRestore (s : State) (held : Nat := 10000000) : Answer :=
  if s.sup.vioLow then
    .next (deglitch 4 0 (us 10) held (fun s =>
      forEach (List.range 4) (fun c s => laserFault c (actOf s c).txPin s) (isolateOptics false s)) s)
  else .next s

/-- GPIO_INPUT_TRANSITION (R546, R587): a filtered input transition, counted on island 43 (R515); a ball that the
device drives is no input. -/
def execGpioInputTransition (i : Fin 16) (level : Bool) (s : State) (held : Nat := 10000000) : Answer :=
  if bit s.hif.gpioDir.toNat i ∨ bit s.hif.gpioIn.toNat i = level then .next s
  else
    .next (deglitch 1 i (us 10) held (fun s => countIsland 43 0x6000 1 { s with hif := { s.hif with
      gpioIn := BitVec.ofNat 16 (setBit s.hif.gpioIn.toNat i level) } }) s)

/-- The diagnostic page of a channel's optics: a failed transaction keeps the previous value, and the
third failure in a row raises an event, whose TYPE the manual does not give (R547; log entry 24). -/
def opticFailure (ch : Nat) (s : State) : State :=
  bump (ck 581 1 ch) 1 (bump (ck 547 12 ch) 1 s)

/-- OPTIC_DIAG_READ (R547, R581): once a second while the channel's lane is READY and the channel is not
in F0; isolated, every transaction fails (R576). -/
def execOpticDiagRead (ch : Fin 4) (page : Option Bytes) (s : State) : Answer :=
  if (laneOf s (16 + ch)).state == .ready && (actOf s ch).act != .f0 && servicesRun s then
    match (if s.sup.vioLow then none else page) with
    | none => .next (opticFailure ch s)
    | some b =>
      .next (amberRecord 0x0008 false (leBytes 1 ch ++ leBytes 1 0x51 ++ b)
        (setCount (ck 581 1 ch) 0 { s with mnt := { s.mnt with optics := tset [] s.mnt.optics ch b } }))
  else .next s

/-! ### JTAG (R584, R585) -/

/-- IDCODE: version 0x1, part 0x7440, and the manufacturer's identity that the ordering supplement gives. -/
def jtagIdcode : Word32 := BitVec.ofNat 32 (0x1 * 2 ^ 28 + deviceId * 2 ^ 12 + Config.jtagMaker % 2 ^ 11 * 2 + 1)

/-- Instructions honoured only while RESET_N is asserted. -/
def resetOnly : JtagInstr → Bool
  | .extest | .extestPulse | .extestTrain | .clamp | .highz => true
  | _ => false

/-- JTAG_INSTRUCTION (R585): outside RESET_N those instructions are BYPASS and are counted. -/
def execJtagInstruction (i : JtagInstr) (s : State) : Answer :=
  if resetOnly i && !s.dev.pinLow then
    .next (bump (ck 585 0 0) 1 { s with mnt := { s.mnt with jtag := .bypass } })
  else .next { s with mnt := { s.mnt with jtag := i } }

end Sys2Proof.Machine
end

