-- ==== Sys2Proof/Machine/Power.lean ====
section
/-! DEFINITION. The power commands, power states, domain wakes, droop and the power cap (chapter 14,
R467, R468, R443). -/

namespace Sys2Proof.Machine

open Sys2Proof

/-! ### Commands (R467, R468, R479) -/

/-- D2 is asked of the head end (R157, R468). -/
def askDoze (a : Bytes) (s : State) : Ran :=
  if (List.range 4).all (fun c => (actOf s c).act != .f5) then refuseWord stResource 2 s
  else
    let n := le a 2 2
    let ch := byteAt a 4
    let s1 := { s with fib := { s.fib with doze := { phase := .requested, n := n, start := 0, ch := ch } } }
    .waits false (queueMessage 0x45 (groupIdOf s1 ch) ch (beBytes 2 n ++ beBytes 1 ch) s1)

/-- POWER_SET_STATE past step 5 (R479, R480). -/
def runPowerState (a : Bytes) (s : State) : Ran :=
  let goal := powerOf (byteAt a 0)
  let deep := goal == .d2 || goal == .d3
  if goal == s.pow.state then done s
  else if s.pow.state == .d2 || s.pow.state == .d3 then
    if goal == .d0 then .waits false (requestWake .hostOrder s) else refuseWord stResource 3 s
  else match (if deep then background? s else none) with
    | some op => refuseWord stBusy op s
    | none =>
      match goal with
      | .d0 => .waits false { s with pow := { s.pow with phase := .fromD1 } }
      | .d1 => .waits false { s with pow := { s.pow with phase := .toD1 } }
      | .d2 => askDoze a s
      | .d3 => .waits false (startD3 s)

def cmdPowerSetState : CmdSpec where
  opcode := 0x0A01
  lenOk := fixedLen 5
  args := fun a =>
    let d2 := byteAt a 0 = 2
    [boundArg 0 1 0 3,
      rangeArg 2 2 (fun v => !d2 || (decide (2 ≤ v) && decide (v ≤ 256))),
      rangeArg 4 1 (fun v => !d2 || decide (v ≤ 3))]
  legal := fun s a =>
    s.dev.state == .active || s.dev.state == .degraded
      || (s.dev.state == .standby && decide (byteAt a 0 ≠ 2))
  deadline := 100000
  run := fun _ a s => runPowerState a s

/-- POWER_SET_STATE (R467, R468, R479). -/
def execPowerSetState (n : Fin 16) (s : State) : Answer := .next (takeUp cmdPowerSetState n s)

def cmdPowerSetCap : CmdSpec where
  opcode := 0x0A02
  lenOk := fixedLen 2
  args := fun _ => [rangeArg 0 2 (fun v => v == 0 || (decide (30 ≤ v) && decide (v ≤ 120)))]
  legal := clsL
  run := fun _ a s =>
    let s1 := { s with pow := { s.pow with cap := le a 0 2 } }
    done (setCause 2 (decide (s1.pow.level ≥ 1) && !economyCaps s1) s1)

/-- POWER_SET_CAP (R467, R490). -/
def execPowerSetCap (n : Fin 16) (s : State) : Answer := .next (takeUp cmdPowerSetCap n s)

def cmdPowerSetDroop : CmdSpec where
  opcode := 0x0A03
  lenOk := fixedLen 8
  args := fun _ => [rangeArg 0 1 (fun v => decide (v ≤ 47) || v == 0xFF), boundArg 1 1 2 8,
    boundArg 2 1 0 1, boundArg 4 4 1 1000]
  legal := clsL
  run := fun _ a s =>
    let l := if byteAt a 0 = 0xFF then List.range 48 else [byteAt a 0]
    done (forEach l (fun d s => modDetect d (fun x => { x with
      threshold := byteAt a 1, half := byteAt a 2 == 1, sustain := le a 4 4 }) s) s)

/-- POWER_SET_DROOP (R467, R488, R489). -/
def execPowerSetDroop (n : Fin 16) (s : State) : Answer := .next (takeUp cmdPowerSetDroop n s)

def cmdPowerReadStatus : CmdSpec where
  opcode := 0x0A04
  lenOk := fixedLen 0
  args := fun _ => []
  legal := clsQ
  run := fun _ _ s =>
    doneWith (leBytes 12 (domainMask s)
      ++ (List.range 24).flatMap (fun k => leBytes 2 (uint 16 (sensorOf s k).reading))
      ++ (List.range 48).flatMap (fun d => leBytes 4 (s.count (ck 495 16 d) % 2 ^ 32))) s

/-- POWER_READ_STATUS (R467, R495). -/
def execPowerReadStatus (n : Fin 16) (s : State) : Answer := .next (takeUp cmdPowerReadStatus n s)

/-! ### Domains (R476, R477) -/

/-- DOMAIN_WAKE (R26, R477, R494). -/
def execDomainWake (d : Fin 96) (intact : Bool) (s : State) : Answer :=
  if s.pow.railsUp then .next (wakeDomain d intact s) else .next s

/-- A domain has requests to do: a bridge asks for it, or a cipher engine or a slice has something in hand
(R26, R477). -/
def domainBusy (s : State) (d : Nat) : Bool :=
  s.pow.wanted.contains d
    || (List.range 16).any (fun p => engineDomain p == d && pipeBusy s p)
    || (List.range 2).any (fun k => (sliceDomains k).contains d
      && (List.range 5).any (fun i => !(inputList s k i).isEmpty))

/-- A power domain's last access, or the change of power state since which it has had none (R476, R477). -/
def idleFrom (s : State) (d : Nat) : Nat := max (domainOf s d).access s.pow.changed

/-- DOMAIN_IDLE_OFF (R476, R477, R493): its requests are done, and 100 µs have passed without an
access; what it held is lost. -/
def execDomainIdleOff (d : Fin 96) (s : State) : Answer :=
  let x := domainOf s d
  if domainBusy s d then .next s
  else match domainSetting s d with
  | .gated =>
    if x.asleep then .next s
    else .next (modDomain d (fun x => { x with asleep := true }) (loseDomain d (passTo (idleFrom s d + us 100) s)))
  | .off =>
    if x.woken then
      .next (modDomain d (fun x => { x with woken := false }) (loseDomain d (passTo (idleFrom s d + us 100) s)))
    else .next s
  | .retained =>
    if x.woken then
      let s1 := modDomain d (fun x => { x with woken := false }) (passTo (idleFrom s d + us 100) s)
      match bankOfDomain d with
      | some g => .next (retainBank g s1)
      | none => .next s1
    else .next s
  | _ => .next s

/-! ### Changes of power state (R480 to R487) -/

/-- D2_ENTRY (R157, R481): T_rx(START_SFC) of the doze channel has come. -/
def execD2Entry (s : State) : Answer :=
  let d := s.fib.doze
  if d.phase == .scheduled && (s.pow.state == .d0 || s.pow.state == .d1) && comesTo s d.ch d.start then
    .next (enterD2 (passFrame d.ch d.start s))
  else .next s

/-- WAKE_SOURCE (R486, R487). -/
def execWakeSource (w : WakeSource) (s : State) : Answer := .next (requestWake w s)

/-- D3_ENTRY_DONE (R342, R483, R487). -/
def execD3EntryDone (s : State) : Answer :=
  if s.pow.phase == .enteringD3 then .next (finishD3 s) else .next s

/-- POWER_STATE_CHANGE_DONE (R480): D0 to D1, or D1 to D0. -/
def execPowerStateChangeDone (s : State) : Answer :=
  match s.pow.phase with
  | .toD1 => .next (concludePower stOk false [] (enterPower .d1 s))
  | .fromD1 => .next (concludePower stOk false [] (enterPower .d0 s))
  | _ => .next s

/-! ### Droop (R488, R489) -/

/-- Events of the last 1 ms with this one. -/
def recentSags (s : State) (x : Detect) : List Nat :=
  s.now :: x.recent.filter (fun t => decide (s.now < t + ms 1))

/-- Which detector of its island this is (R514). -/
def detectorIndex (d : Nat) : Nat := if d < 44 then 0 else 1

/-- A sag begins: a non-exempt island stretches, an exempt one runs on; either is counted, and the count
in 1 ms may make the sag a sustained one (R21, R488, R489). -/
def beginSag (d : Nat) (s : State) : State :=
  let i := detectorIsland d
  let x := detectOf s d
  let recent := recentSags s x
  let s1 := countIsland i (0x1100 + detectorIndex d) 1 (bump (ck 495 16 d) 1 s)
  let s2 := modDetect d (fun x => { x with
    recent := recent, stretching := !exemptIsland i, since := s.now, low := s.now }) s1
  if recent.length ≥ x.sustain then answerSag d s2 else s2

/-- DROOP_SAG (R21, R488, R489): within a stretch the sag prolongs it, and is no stretch of its own. A
detector whose power domain is off is disarmed. -/
def execDroopSag (d : Fin 48) (s : State) : Answer :=
  if !domainOn s (islandDomain (detectorIsland d)) then .next s
  else if (detectOf s d).stretching then .next (modDetect d (fun x => { x with low := s.now }) s)
  else .next (beginSag d s)

/-- DROOP_STRETCH_END (R488): at least 1 µs after the stretch began, and after the supply was last low. -/
def execDroopStretchEnd (d : Fin 48) (s : State) : Answer :=
  let x := detectOf s d
  if x.stretching then
    let s1 := passTo (x.low + us 1) s
    .next (modDetect d (fun x => { x with
      stretching := false, sustained := false, stretched := x.stretched + (s1.now - x.since) }) s1)
  else .next s

/-- SUSTAINED_SAG (R489): one stretch lasts 100 µs. -/
def execSustainedSag (d : Fin 48) (s : State) : Answer :=
  let x := detectOf s d
  if x.stretching && !x.sustained then .next (answerSag d (passTo (x.since + us 100) s)) else .next s

/-! ### Power cap (R490) -/

/-- The next whole millisecond of the clock. -/
def nextMs (s : State) : Nat := (s.now / 1000000000 + 1) * 1000000000

/-- The average stays below the effective cap less 5 W with no sustained sag (R490). -/
def belowCap (s : State) (mW : Nat) : Bool :=
  decide (mW + 5000 < effectiveCap s * 1000)
    && (s.pow.detectors.all (fun e => !e.2.sustained))

/-- The instant since which the average has stayed below, noted or forgotten. -/
def setBelow (o : Option Nat) (s : State) : State := { s with pow := { s.pow with belowSince := o } }

/-- The level raised by one, to 4 at most. -/
def raiseLevel (s : State) : State := if s.pow.level < 4 then setLevel (s.pow.level + 1) 0xFF s else s

/-- The level lowered by one once the average has stayed below for 1 s. -/
def lowerLevel (s : State) : State :=
  if passed s s.pow.belowSince (ms 1000) then
    let s1 := setBelow (some s.now) s
    if s1.pow.level = 0 then s1 else setLevel (s1.pow.level - 1) 0xFF s1
  else setBelow (some (s.pow.belowSince.getD s.now)) s

/-- One comparison of an average with the effective cap. -/
def judgeCap (mW : Nat) (s : State) : State :=
  if mW > effectiveCap s * 1000 then raiseLevel (setBelow none s)
  else if belowCap s mW then lowerLevel s
  else setBelow none s

/-- POWER_CAP_EVALUATION (R490): the 1 ms average of input power. -/
def execPowerCapEvaluation (mW : Nat) (s : State) : Answer :=
  if s.dev.ready then .next (judgeCap mW (passTo (nextMs s) s)) else .next s

/-- DEGRADED_EVALUATION (R442, R443). -/
def execDegradedEvaluation (s : State) : Answer :=
  match s.dev.state with
  | .active => if s.dev.causes = 0 then .next s else .next (changeState .degraded s)
  | .degraded => if s.dev.causes = 0 then .next (changeState .active s) else .next s
  | _ => .next s

end Sys2Proof.Machine
end

