-- ==== Sys2Proof/Machine/Lanes.lean ====
section
/-! DEFINITION. The serial lanes (chapter 11, R466): their commands, their detectors, and the
transitions between their states. -/

namespace Sys2Proof.Machine

open Sys2Proof

/-! ### LANE_CONFIGURE (R375, R376) -/

/-- Magnitudes of the five taps of a descriptor (R375). -/
def tapSum (d : Nat) : Nat :=
  (sint 6 (fld d 36 6)).natAbs + (sint 6 (fld d 30 6)).natAbs + (sint 6 (fld d 24 6)).natAbs
    + fld d 18 6 + (sint 6 (fld d 12 6)).natAbs

def laneArgs (a : Bytes) : List Arg :=
  let d := le a 8 8
  let early := decide (byteAt a 0 < 16)
  [boundArg 0 1 0 20, anyArg 8 8, zeroArg d 8 0 12, zeroArg d 8 42 1,
    ruleArg 8 12 (decide (tapSum d ≤ 63)), bitArg d 8 18 6 stRange (fun v => decide (16 ≤ v)),
    bitArg d 8 30 6 stRange (fun v => early || v == 0), bitArg d 8 36 6 stRange (fun v => early || v == 0),
    bitArg d 8 43 8 stRange (fun v => decide (fld d 51 8 + 5 ≤ v) && decide (v ≤ 150)),
    bitArg d 8 51 8 stRange (fun v => decide (10 ≤ v) && decide (v ≤ 100)),
    bitArg d 8 60 2 stRange (fun v => v != 3)]

/-- What a descriptor changes at the balls: the transmit polarity, and the static level of a squelched transmitter
(R372, R374, R375). -/
def showLane (l : Nat) (d : Word64) (x : Lane) (s : State) : State :=
  let s1 := if d.getLsbD 63 = x.txInvert then s else emit (.polarity l (d.getLsbD 63)) s
  if d.getLsbD 59 = x.squelch then s1
  else if d.getLsbD 59 then emit (.still l) s1
  else if isFibreLane l then emit (.levelZero (l - 16)) s1
  else s1

/-- A descriptor written; taps of a lane in training wait for the next one (R376, R378). -/
def writeLane (l : Nat) (d : Word64) (s : State) : State :=
  let taps := d.extractLsb' 12 30
  let live := !trainingOwns s l
  let s0 := showLane l d (laneOf s l) s
  let s1 := modLane l (fun x => { (if fld d.toNat 60 2 = 1 then freezeCoeffs x else x) with
    desc := d, startTaps := taps, liveTaps := if live then taps else x.liveTaps }) s0
  if fld d.toNat 60 2 = 2 then bump (ck 398 6 l) 1 s1 else s1

def cmdLaneConfigure : CmdSpec where
  opcode := 0x0901
  lenOk := fixedLen 16
  args := laneArgs
  legal := clsL
  run := fun _ a s => done (writeLane (byteAt a 0) (BitVec.ofNat 64 (le a 8 8)) s)

/-- LANE_CONFIGURE (R375, R376). -/
def execLaneConfigure (n : Fin 16) (s : State) : Answer := .next (takeUp cmdLaneConfigure n s)

/-! ### Generators, checkers and loopbacks (R392 to R397) -/

/-- R392 offers a pattern code of R466 on a lane. -/
def patternOk (s : State) (l code : Nat) : Bool :=
  if code ≤ 1 ∨ code = 9 then true
  else if code ≤ 5 ∨ code = 10 then decide (l < 20)
  else if code ≤ 8 then decide (l < 20) && isPam4 s l
  else decide (l = 20) && decide (code ≤ 13)

/-- Steps of a lane test that R392 and R397 do not offer on the lane. -/
def testFault (s : State) (a : Bytes) : Option (Nat × Nat) :=
  let l := byteAt a 0
  if !patternOk s l (byteAt a 1) then some (stRange, 1)
  else if !patternOk s l (byteAt a 2) then some (stRange, 2)
  else if byteAt a 3 ≥ 2 && isFibreLane l then some (stRange, 3)
  else none

/-- The traffic that a test would replace is in use (R395). -/
def laneInUse (s : State) (l : Nat) : Bool :=
  if isClientLane l then
    match ownerOf s l with
    | some p => (portOf s p).enable
    | none => false
  else if isFibreLane l then (actOf s (l - 16)).act != .f0
  else decide (s.prt.mgmtMode ≠ 0)

/-- Where bits are counted from as injection begins. -/
def injectStart (s : State) (l : Nat) : Nat :=
  if isFibreLane l && decide ((laneOf s l).generator = 0) then s.count (ck 130 21 (l - 16)) else s.now

/-- A fibre lane clocks its transmitter from the holdover clock while nothing reaches it (R22, R397); with lock its
channel unit enters HUNT (R57, R97). -/
def syncHoldover (l : Nat) (s : State) : State :=
  if isFibreLane l then
    let x := laneOf s l
    let lost := x.los || x.lol
    let h := lost || x.loopback == 1
    let was := (rxOf s (l - 16)).holdover
    let s1 := if lost && !was then bump (ck 398 8 l) 1 s else s
    let lock := x.state == .ready && !lost
    let begins := lock && !(rxOf s (l - 16)).lock && (rxOf s (l - 16)).delin == .hunt
    modRx (l - 16) (fun r => { r with holdover := h, lock := lock })
      (if begins then bump (ck 97 2 (l - 16)) 1 s1 else s1)
  else s

/-- What a test changes at the balls (R372, R392, R397): a generated pattern, a lane held still in near-end parallel
loopback, or level 0 again on a fibre lane. -/
def showTest (l gen loop : Nat) (word : Word64) (s : State) : State :=
  let x := laneOf s l
  let begins := gen ≠ 0 ∧ (gen ≠ x.generator ∨ word ≠ x.word)
  let s1 := if begins then
      let (v, t) := takeFree s
      emit (.pattern l gen (patternLevels gen v word (isPam4 s l))) t
    else s
  if loop = 2 ∧ x.loopback ≠ 2 then emit (.still l) s1
  else if isFibreLane l ∧ gen = 0 ∧ x.generator ≠ 0 then emit (.levelZero (l - 16)) s1
  else s1

/-- Generator, checker and loopback of a lane set; a fibre generator asserts BEN (R396). -/
def setTest (l gen chk loop : Nat) (word : Word64) (s : State) : State :=
  let s1 := showTest l gen loop word (settleChecker l s)
  let s2 := modLane l (fun x => { x with
    generator := gen, checker := chk, loopback := loop, word := word
    checkLock := x.checkLock && chk == x.checker && chk != 0 }) s1
  let s3 := modLane l (fun x => { x with injectAt := injectStart s2 l, injectDone := 0 }) s2
  let s4 := if isFibreLane l && ((laneOf s l).generator != 0 || gen != 0) then
      driveBen (l - 16) (gen != 0) s3
    else s3
  syncHoldover l s4

/-- Every lane test ends (R442). -/
def stopTests (s : State) : State :=
  forEach (List.range 21) (fun l s =>
    modLane l (fun x => { x with inject := 0, injectLive := false }) (setTest l 0 0 0 0 s)) s

def cmdLaneSetTest : CmdSpec where
  opcode := 0x0902
  lenOk := fixedLen 16
  args := fun _ => [boundArg 0 1 0 20, boundArg 1 1 0 13, boundArg 2 1 0 13, boundArg 3 1 0 3, anyArg 8 8]
  also := testFault
  legal := fun s a => clsL s a
    && (!(isFibreLane (byteAt a 0) && byteAt a 1 != 0) || clsM s a)
  run := fun _ a s =>
    let l := byteAt a 0
    let starts := byteAt a 1 != 0 || byteAt a 2 != 0 || byteAt a 3 != 0
    if starts && laneInUse s l then refuseFree stBusy s
    else done (setTest l (byteAt a 1) (byteAt a 2) (byteAt a 3) (BitVec.ofNat 64 (le a 8 8)) s)

/-- LANE_SET_TEST (R392, R395, R396, R397, R466). -/
def execLaneSetTest (n : Fin 16) (s : State) : Answer := .next (takeUp cmdLaneSetTest n s)

/-- Injection stopped, one error placed, or continuous injection begun at a free place (R394); an error for live fibre
traffic waits for the next burst. -/
def setInject (l mode n : Nat) (live : Bool) (s : State) : State :=
  let s1 := settleInject l s
  let waits := isFibreLane l && (laneOf s l).generator == 0
  let (v, s2) := if mode = 2 then takeFree s1 else (0, s1)
  let s3 := modLane l (fun x => { x with
    inject := if mode = 1 ∧ waits then 1 else if mode = 2 then 2 else 0, injectN := n, injectLive := live && mode != 0
    injectAt := injectStart s2 l, injectPhase := v % 2 ^ n, injectDone := 0 }) s2
  if mode = 1 && !waits && ((laneOf s l).generator != 0 || live) then bump (ck 398 21 l) 1 s3 else s3

def cmdLaneInject : CmdSpec where
  opcode := 0x0903
  lenOk := fixedLen 4
  args := fun a => [boundArg 0 1 0 20, boundArg 1 1 0 2,
    rangeArg 2 1 (fun v => byteAt a 1 != 2 || (decide (10 ≤ v) && decide (v ≤ 30))), flagArg 3 1]
  legal := fun s a => clsL s a && (byteAt a 3 == 0 || clsM s a)
  run := fun _ a s => done (setInject (byteAt a 0) (byteAt a 1) (byteAt a 2) (byteAt a 3 == 1) s)

/-- LANE_INJECT (R394, R466). -/
def execLaneInject (n : Fin 16) (s : State) : Answer := .next (takeUp cmdLaneInject n s)

/-! ### Reads (R379, R398, R466) -/

def LaneState.code : LaneState → Nat
  | .off => 0 | .deep => 1 | .exiting => 2 | .ready => 3

/-- Equaliser coefficients that a lane has (R377). -/
def coefficients (s : State) (l : Nat) : Nat :=
  if isFibreLane l then 33 else if l = 20 then 0 else if isNrz s l then 8 else 17

/-- So many free bytes, one to a coefficient (log entry 5). -/
def freeBytes : Nat → State → Bytes × State
  | 0, s => ([], s)
  | n + 1, s =>
    let (v, s1) := takeFree s
    let (l, s2) := freeBytes n s1
    (BitVec.ofNat 8 v :: l, s2)

/-- The present coefficients: those kept, or as adaptation has them now, free values (R378, R379; log entry 5). -/
def sampleCoeffs (l : Nat) (s : State) : Bytes × State :=
  let x := laneOf s l
  match (if keepsCoeffs x then x.coeffs else none) with
  | some b => (b, s)
  | none =>
    let (b, s1) := freeBytes (coefficients s l) s
    (b, modLane l (fun x => { x with coeffs := some b }) s1)

/-- The low-water mark of a lane is read (R9, R379). -/
def clearSnrLow (l : Nat) (s : State) : State := modLane l (fun x => { x with snrLow := 0 }) s

def cmdLaneReadStatus : CmdSpec where
  opcode := 0x0904
  lenOk := fixedLen 1
  args := fun _ => [boundArg 0 1 0 20]
  legal := clsQ
  run := fun _ a s0 =>
    let l := byteAt a 0
    let (coeffs, s1) := sampleCoeffs l (sampleSnr l s0)
    let x := laneOf s1 l
    doneWith (leBytes 1 x.state.code ++ leBytes 1 (b2n x.los + 2 * b2n x.lol + 4 * b2n x.energy)
      ++ leBytes 2 x.snr ++ leBytes 2 x.snrLow ++ [0, 0] ++ coeffs) (clearSnrLow l s1)

/-- LANE_READ_STATUS (R379, R386, R466). -/
def execLaneReadStatus (n : Fin 16) (s : State) : Answer := .next (takeUp cmdLaneReadStatus n s)

/-- Counter i of R398 in row order; the low-water mark stands at row 7. -/
def laneCount (s : State) (l i : Nat) : Nat :=
  let x := laneOf s l
  if i = 7 then x.snrLow
  else if i = 4 then s.count (ck 398 4 l) + (if x.los then (s.now - x.losAt) / 1000000 else 0)
  else s.count (ck 398 i l)

/-- Rate compensation goes on in idle whether or not frames pass (R381, R382, R398). -/
def compensateIdle (l : Nat) (s : State) : State :=
  if !isFibreLane l && armed (laneOf s l) && !(laneOf s l).los then compensate l s else s

def cmdLaneReadCounters : CmdSpec where
  opcode := 0x0905
  lenOk := fixedLen 1
  args := fun _ => [boundArg 0 1 0 20]
  legal := clsQ
  run := fun _ a s =>
    let l := byteAt a 0
    let s1 := compensateIdle l (sampleSnr l (settleChecker l s))
    doneWith ((List.range 26).flatMap (fun i => leBytes 8 (laneCount s1 l i))) (clearSnrLow l s1)

/-- LANE_READ_COUNTERS (R398, R466). -/
def execLaneReadCounters (n : Fin 16) (s : State) : Answer := .next (takeUp cmdLaneReadCounters n s)

/-! ### Detectors (R384 to R387) -/

/-- What a fibre channel makes of its lane's detectors: the changeover, the trigger, the waiting of
the bonding unit (R22, R89, R159). -/
def laneChanged (l : Nat) (s : State) : State :=
  let s1 := syncHoldover l s
  if isFibreLane l then bondRelease (noteSync (l - 16) (noteTriggers (l - 16) s1)) else s1

/-- A detector raised or cleared, with its event and counters (R385, R398). -/
def setDetector (l : Nat) (det : Detector) (b : Bool) (s : State) : State :=
  let x := laneOf s l
  match det with
  | .los =>
    if x.los = b then s
    else
      let s1 := modLane l (fun x => { x with los := b, losAt := if b then s.now else x.losAt }) s
      let s2 := if b then s1 else bump (ck 398 4 l) ((s.now - x.losAt) / 1000000) s1
      laneChanged l (raise 0x0901 false l [0, BitVec.ofNat 8 (b2n b)] (bump (ck 398 (1 - b2n b) l) 1 s2))
  | .lol =>
    if x.lol = b then s
    else
      let s1 := modLane l (fun x => { x with lol := b }) s
      let s2 := if b then s1 else bump (ck 398 5 l) 1 s1
      laneChanged l (raise 0x0901 false l [1, BitVec.ofNat 8 (b2n b)] (bump (ck 398 (3 - b2n b) l) 1 s2))

/-- LOS is masked now (R387). -/
def losMaskedNow (s : State) (x : Lane) : Bool :=
  x.losMasked && (match x.unmaskAt with
    | some t => decide (s.now < t)
    | none => true)

/-- What a detector measured calls for the decision that is reported; a report without a measurement is the decision
itself (R384). -/
def bears (x : Lane) (det : Detector) (raised : Bool) : Option LaneSeen → Bool
  | none => true
  | some (.amplitude u t) =>
    det == .los && (if raised then decide (u < x.losAssert) && decide (2 ≤ t)
      else decide (x.losDeassert < u) && decide (100 ≤ t))
  | some (.clock l slip locked) =>
    det == .lol && (if raised then slip || (decide (2 ≤ l.length) && (l.take 2).all (fun p => decide (300 < p)))
      else locked && decide (100 ≤ l.length) && (l.take 100).all (fun p => decide (p ≤ 250)))
  | some (.wake _ _) => false

/-- LANE_DETECTOR (R384 to R387): a detector is armed only in READY; a masked LOS is not raised. -/
def execLaneDetector (lane : Fin 21) (det : Detector) (raised : Bool) (s : State)
    (seen : Option LaneSeen := none) : Answer :=
  let x := laneOf s lane
  if !armed x || !bears x det raised seen || (raised && det == .los && losMaskedNow s x) then .next s
  else .next (setDetector lane det raised s)

/-- What the energy detector measured is activity, or on a fibre lane the head end's wake pattern (R388). -/
def stirs (l : Nat) (x : Lane) : Option LaneSeen → Bool
  | none => true
  | some (.amplitude u t) => !isFibreLane l && decide (x.losDeassert < u) && decide (10 ≤ t)
  | some (.wake n k) => isFibreLane l && decide (64 ≤ n) && decide (950 ≤ k) && decide (k ≤ 1050)
  | some (.clock _ _ _) => false

/-- ENERGY_DETECT (R388, R391): in DEEP the report acts; during an entry it is held. -/
def execEnergyDetect (lane : Fin 21) (s : State) (seen : Option LaneSeen := none) : Answer :=
  let x := laneOf s lane
  if !stirs lane x seen then .next s
  else if x.entering then .next (modLane lane (fun x => { x with energyHeld := true }) s)
  else if x.state == .deep then .next (reportEnergy lane s)
  else .next s

/-! ### Transitions (R389 to R391) -/

/-- LANE_DEEP_ENTRY_DONE (R389, R391): the entry ends; a held report or an exit order acts at once. -/
def execLaneDeepEntryDone (lane : Fin 21) (s : State) : Answer :=
  let x := laneOf s lane
  if !x.entering then .next s
  else
    let s1 := syncHoldover lane (enterDeep lane s)
    let s2 := releaseEnergy lane s1
    .next (if x.order == some true && (laneOf s2 lane).state == .deep then
      orderExit lane s2 else s2)

/-- The exit did not reach 3 dB below the SNR at DEEP entry (R390). -/
def needsFull (x : Lane) (snr : Nat) : Bool := x.heldCoeffs && decide (snr + 30 < x.snrDeep)

/-- A lane becomes READY, with its counts (R389, R398); a fibre lane drives level 0 (R372). -/
def becomeReady (l : Nat) (signal : Bool) (snr : Nat) (s : State) : State :=
  let x := laneOf s l
  let s0 := if x.fromOff then s else bump (ck 398 23 l) 1 s
  let s1 := if signal && needsFull x snr then bump (ck 398 24 l) 1 s0 else s0
  let s2 := modLane l (fun x =>
    let y := { x with state := .ready, order := none, energy := false, entering := x.order == some false }
    if signal then noteSnr snr snr y else y) s1
  syncHoldover l (if isFibreLane l then levelZero (l - 16) s2 else s2)

/-- LANE_READY (R390, R391): without a signal, LOS is raised 2 µs after arming; a fibre channel that
has lock is not in SYNC (R95); an entry order that waited starts at once. -/
def execLaneReady (lane : Fin 21) (signal : Bool) (snr : Nat) (s : State) : Answer :=
  if (laneOf s lane).state != .exiting then .next s
  else
    let s1 := becomeReady lane signal snr s
    if signal then .next (if isFibreLane lane then noteSync (lane - 16) s1 else s1)
    else if (laneOf s1 lane).entering then .next s1
    else .next (setDetector lane .los true (passTo (s1.now + us 2) s1))

/-! ### Checkers (R393) -/

/-- CHECKER_LOCK_CHANGE (R393): lock after 64 bits without an error; a loss on 32 or more bit errors, which is counted,
with what was compared since the counts were brought up to date. -/
def execCheckerLockChange (lane : Fin 21) (locked : Bool) (bits bitErrors symErrors : Nat) (s : State) :
    Answer :=
  let l := lane.val
  let x := laneOf s l
  if x.checker = 0 ∨ x.checkLock = locked ∨ x.state ≠ .ready then .next s
  else if locked && (decide (bits < 64) || bitErrors != 0) then .next s
  else if !locked && decide (bitErrors < 32) then .next s
  else
    let s1 := modLane l (fun x => { x with
      checkLock := locked, checkedTo := s.now, injectsSeen := s.count (ck 398 21 l) }) (settleInject l s)
    if locked then .next s1
    else
      let s2 := bump (ck 398 18 l) bitErrors (bump (ck 398 17 l) bits s1)
      let s3 := if isPam4 s l then bump (ck 398 19 l) symErrors s2 else s2
      .next (bump (ck 398 20 l) 1 s3)

end Sys2Proof.Machine
end

