-- ==== Sys2Proof/Machine/FlowOps.lean ====
section
/-! DEFINITION. Flow export: streams of exact-match and rule entries and the records they yield (R540 to
R544). -/

namespace Sys2Proof.Machine

open Sys2Proof

/-- Keys of a stream: an exact-match entry's profile and key, or a rule entry's number. -/
def emStream (profile : Nat) (key : BitVec 320) : Nat := profile * 2 ^ 320 + key.toNat
def ruleStream (i : Nat) : Nat := 2 ^ 330 + i

def streamOf (s : State) (k : Nat) : Stream := tget {} s.obs.ipfix.streams k

def setStream (k : Nat) (x : Stream) (s : State) : State :=
  { s with obs := { s.obs with ipfix := { s.obs.ipfix with
    streams := tset {} s.obs.ipfix.streams k x } } }

/-- A stream begins with its entry's creation, its counters at zero. -/
def beginStream (k : Nat) (s : State) : State :=
  setStream k { time := nowNs s, at_ := s.now, changedAt := s.now } s

/-- Counters read and added into the 64-bit totals (R542). -/
def accumulate (k pkts bytes : Nat) (s : State) : State :=
  let x := streamOf s k
  if x.rawPkts = pkts ∧ x.rawBytes = bytes then s
  else
    setStream k { x with
      rawPkts := pkts, rawBytes := bytes
      pkts := (x.pkts + subMod 40 pkts x.rawPkts) % 2 ^ 64
      bytes := (x.bytes + subMod 48 bytes x.rawBytes) % 2 ^ 64
      changedAt := s.now, idle := false } s

/-- Export runs: the service runs, or the device is in SAFE, and the management lane carries frames: it is neither
asleep nor without a link (R368, R473, R543). -/
def exportRuns (s : State) : Bool :=
  (servicesRun s || s.dev.state == .safe) && s.obs.ipfix.enable && mgmtUp s
    && (s.pow.state == .d0 || s.pow.state == .d1)

/-- Export of a template runs. -/
def exports (s : State) (template : Nat) : Bool :=
  exportRuns s && bit s.obs.ipfix.mask.toNat (template - 256)

/-- ps that a message of the longest length, 1,452 bytes, takes at 100 Mb/s (R543, R544). -/
def messageTime : Nat := 1452 * 8 * 10000

def modIpfix (f : Ipfix → Ipfix) (s : State) : State :=
  { s with obs := { s.obs with ipfix := f s.obs.ipfix } }

/-- The collector is IPv4-mapped (R540). -/
def mapped (a : Nat) : Bool := a / 2 ^ 32 == 0xFFFF

/-- The IPv6 link-local address that modified EUI-64 forms from a MAC address (R540). -/
def linkLocal (mac : Nat) : Nat :=
  0xFE80 * 2 ^ 112 + (Nat.xor (mac / 2 ^ 24) 0x020000) * 2 ^ 40 + 0xFFFE * 2 ^ 24 + mac % 2 ^ 24

/-- The IPv4 link-local address claimed, as IPv4-mapped: 169.254.1.0 to 169.254.254.255 (RFC 3927). -/
def claimed : Nat := 0xFFFF * 2 ^ 32 + 0xA9FE0100 + Config.claimedAddress % 0xFE00

/-- The headers of the next message (R540, R544). -/
def exportHeader (s : State) : ExportHeader :=
  let x := s.obs.ipfix
  { mac := sourceAddress s 16
    src := if mapped x.collector.toNat then claimed else linkLocal ((s.prt.base.toNat + 16) % 2 ^ 48)
    dst := x.collector.toNat, port := x.port.toNat, time := (mainNow s).sec % 2 ^ 32
    sequence := x.sequence.toNat, domain := x.domain.toNat }

/-- A message leaves on the management lane, and takes its time of the rate (R368, R369, R543 to R545). How many bytes
its fields take the ordering supplement says, not the spec: a free number within the longest message. -/
def sendMessage (template : Nat) (data : List Nat) (isData : Bool) (s : State) : State :=
  let (v, s0) := takeFree s
  let s1 := bump (ck 545 13 0) (b2n isData) (bump (ck 545 12 0) 1
    (bump (ck 369 25 16) (66 + v % 1453) (bump (ck 369 24 16) 1 s0)))
  onWire 16 (.ipfix (exportHeader s) template data) (modIpfix (fun x => { x with
    sequence := x.sequence + BitVec.ofNat 32 (b2n isData)
    filledTo := max x.filledTo s1.now + messageTime }) s1)

/-- The messages that waited are sent. -/
def sendHeld (s : State) : State :=
  s.obs.ipfix.held.foldl (fun s m => sendMessage m.1 m.2.1 m.2.2 s) (modIpfix (fun x => { x with held := [] }) s)

/-- A message waits. -/
def holdMessage (template : Nat) (data : List Nat) (isData : Bool) (s : State) : State :=
  modIpfix (fun x => { x with held := x.held ++ [(template, data, isData)] }) s

/-- A message to the collector: it waits while the collector is being resolved or the management lane carries
nothing, and is discarded and counted once resolution has failed (R540, R543, R545). -/
def deliver (template : Nat) (data : List Nat) (isData : Bool) (s : State) : State :=
  if s.obs.ipfix.failed then bump (ck 545 15 0) 1 s
  else if s.obs.ipfix.resolved && exportRuns s then sendMessage template data isData (sendHeld s)
  else holdMessage template data isData s

/-- The template sets that the mask enables, sent while export runs (R544). -/
def sendTemplates (s : State) : State :=
  if exportRuns s then
    forEach ((setBits 6 s.obs.ipfix.mask.toNat).map (256 + ·)) (fun t s => deliver t [] false s)
      (modIpfix (fun x => { x with templateAt := some s.now }) s)
  else s

/-- A record to the collector, after the template sets where they have not been sent yet (R544). -/
def sendExport (template : Nat) (data : List Nat) (isData : Bool) (s : State) : State :=
  deliver template data isData (if s.obs.ipfix.templateAt.isNone then sendTemplates s else s)

/-- The messages that waited are discarded and counted. -/
def discardHeld (s : State) : State :=
  modIpfix (fun x => { x with held := [] }) (bump (ck 545 15 0) s.obs.ipfix.held.length s)

/-- A record whose counts stay accumulated, sent where it fits within 100 Mb/s and otherwise deferred and
counted (R543). It fits once the messages before it have had their time; earlier, the answer is free, since
no rule says for how long the rate is measured (log entries 5 and 28). -/
def orDefer (send : State → State) (s : State) : State :=
  if s.obs.ipfix.filledTo ≤ s.now ∨ s.obs.ipfix.resolved = false then send s
  else
    let (v, s1) := takeFree s
    if v % 2 = 0 then send s1 else bump (ck 545 14 0) 1 s1

/-- A record that nothing accumulates any more: the last one of a stream, a sample, an audit state. Where it does not
fit it waits and is counted as deferred; while export is suspended it waits (R543; log entry 28). -/
def orHold (template : Nat) (data : List Nat) (s : State) : State :=
  if s.obs.ipfix.filledTo ≤ s.now ∨ s.obs.ipfix.resolved = false ∨ exportRuns s = false then
    sendExport template data true s
  else
    let (v, s1) := takeFree s
    if v % 2 = 0 then sendExport template data true s1
    else holdMessage template data true (bump (ck 545 14 0) 1 s1)

/-- The stream's record as sent: the counts since the previous one. -/
def markSent (k reason : Nat) (s : State) : State :=
  let x := streamOf s k
  setStream k { x with
    sentPkts := x.pkts, sentBytes := x.bytes, time := nowNs s, at_ := s.now
    idle := x.idle || decide (reason = 1) } s

/-- The record of an exact-match entry as its stream stands (R541, R542): profile, way, index, key,
action, deltas, start, end and reason. -/
def entryFields (way index reason : Nat) (e : EmEntry) (s : State) : List Nat :=
  let x := streamOf s (emStream e.profile e.key)
  [e.profile, way, index, e.key.toNat, e.action.toNat, x.pkts - x.sentPkts, x.bytes - x.sentBytes,
    x.time, nowNs s, reason]

def entryRecord (way index reason : Nat) (e : EmEntry) (s : State) : State :=
  markSent (emStream e.profile e.key) reason (sendExport 256 (entryFields way index reason e s) true s)

/-- The counters of an exact-match entry read, and its record where template 256 is exported and the record
is not deferred. -/
def exportEntry (way index reason : Nat) (e : EmEntry) (s : State) : State :=
  let s1 := accumulate (emStream e.profile e.key) e.pkts.toNat e.bytes.toNat s
  if exports s 256 then orDefer (entryRecord way index reason e) s1 else s1

/-- A template that the host has enabled, whether or not export is suspended just now (R541, R543). -/
def wanted (s : State) (template : Nat) : Bool :=
  s.obs.ipfix.enable && bit s.obs.ipfix.mask.toNat (template - 256) && (servicesRun s || s.dev.state == .safe)

/-- The last record of an entry that is deleted, replaced without CARRY, or aged out, and the end of its stream
(log entry 28). -/
def endEntry (way index reason : Nat) (e : EmEntry) (s : State) : State :=
  let k := emStream e.profile e.key
  let s1 := accumulate k e.pkts.toNat e.bytes.toNat s
  setStream k {} (if wanted s 256 then orHold 256 (entryFields way index reason e s1) s1 else s1)

end Sys2Proof.Machine
end

