-- ==== Sys2Proof/Machine/Device.lean ====
section
/-! DEFINITION. The device commands (R441 to R454), and the ends of the exits from D2 and D3, after
which the commands that waited for them run (R482, R484, R487). -/

namespace Sys2Proof.Machine

open Sys2Proof

/-- A command that changes the device state first leaves D2 or D3 (R486, R487). -/
def afterWake (f : State → Ran) (s : State) : Ran :=
  if s.pow.state == .d2 || s.pow.state == .d3 || s.pow.phase == .enteringD3 then
    .waits true (requestWake .stateCommand s)
  else f s

/-! ### Reads -/

def cmdDeviceReadState : CmdSpec where
  opcode := 0x0101
  lenOk := fixedLen 0
  args := fun _ => []
  legal := clsQ
  run := fun _ _ s =>
    doneWith (leBytes 4 (stateWord s) ++ leBytes 4 s.dev.causes.toNat ++ leBytes 4 s.dev.alarmLatch.toNat) s

/-- DEVICE_READ_STATE (R419, R450). -/
def execDeviceReadState (n : Fin 16) (s : State) : Answer := .next (takeUp cmdDeviceReadState n s)

def cmdDeviceNop : CmdSpec where
  opcode := 0x010B
  lenOk := fun len _ => decide (len ≤ 64)
  args := fun a => [anyArg 0 a.length]
  legal := clsQ
  run := fun _ a s => doneWith a s

/-- DEVICE_NOP (R450, R454). -/
def execDeviceNop (n : Fin 16) (s : State) : Answer := .next (takeUp cmdDeviceNop n s)

def cmdDeviceReadIdentity : CmdSpec where
  opcode := 0x010C
  lenOk := fixedLen 0
  args := fun _ => []
  legal := clsQ
  run := fun _ _ s =>
    doneWith (serialBytes ++ beBytes 96 Config.identityKey.toNat ++ beBytes 96 Config.attestation.toNat) s

/-- DEVICE_READ_IDENTITY (R152, R450). -/
def execDeviceReadIdentity (n : Fin 16) (s : State) : Answer := .next (takeUp cmdDeviceReadIdentity n s)

/-! ### Start and stop -/

/-- ACTIVE, or DEGRADED while a cause of R443 holds. -/
def serviceState (s : State) : DevState := if s.dev.causes = 0 then .active else .degraded

/-- DEVICE_START past step 5 (R42, R451). -/
def startDevice (s : State) : State :=
  let s1 := { s with dev := { s.dev with inForce := s.dev.selected } }
  let s2 := setCause 2 (decide (s1.pow.level ≥ 1) && !economyCaps s1) s1
  let s3 := syncFaults (syncLanes (changeState (serviceState s2) s2))
  let risen := replicaIslands.filter (fun i => !domainOn s (islandDomain i) && domainOn s3 (islandDomain i))
  forEach risen realign (forEach ((List.range 4).filter (fun c => (actOf s c).activate)) lightUp s3)

/-- The command reports the state it left behind. -/
def withState (f : State → State) (s : State) : Ran := doneWith (leBytes 4 (stateWord (f s))) (f s)

def cmdDeviceStart : CmdSpec where
  opcode := 0x0102
  lenOk := fixedLen 0
  args := fun _ => []
  legal := clsS
  deadline := 100000
  run := fun _ _ s => afterWake (withState startDevice) s

/-- DEVICE_START (R42, R450, R451). -/
def execDeviceStart (n : Fin 16) (s : State) : Answer := .next (takeUp cmdDeviceStart n s)

/-- Every client port is treated as though ENABLE were clear, without EGRESS_DOWN (R347, R452). -/
def closeLinks (s : State) : State :=
  forEach (List.range 16) (fun p s => if (portOf s p).link then reportLink p 5 false s else s) s

/-- Every queued packet is discarded as QUEUE_FLUSH, and every channel moves to F0 (R444, R452). -/
def quiesce (s : State) : State :=
  let s1 := flushAll 0x47 (flushAllStaging 0x47 s)
  closeLinks (forEach (List.range 4) goDark s1)

/-- The losses that end at DEVICE_STOP: items without a usable shadow, and bank group 23's counters
(R494, R508). -/
def forgetLosses (s : State) : State :=
  settleLoss (setCause 3 false { s with
    mem := { s.mem with lost := s.mem.lost.map (fun e => { e with caused := e.caused && !e.failed }) }
    pow := { s.pow with banks := s.pow.banks.map (fun e => (e.1, { e.2 with lost := false })) } })

/-- DEVICE_STOP past step 5 (R452). -/
def stopDevice (s : State) : State :=
  if s.dev.state == .active || s.dev.state == .degraded then
    syncFaults (changeState .standby (forgetLosses (quiesce s)))
  else s

def cmdDeviceStop : CmdSpec where
  opcode := 0x0103
  lenOk := fixedLen 0
  args := fun _ => []
  legal := clsIn [.active, .degraded]
  run := fun _ _ s => afterWake (fun s => done (stopDevice s)) s

/-- DEVICE_STOP (R450, R452, R487). -/
def execDeviceStop (n : Fin 16) (s : State) : Answer := .next (takeUp cmdDeviceStop n s)

/-- A port is configured on lanes 8 to 15 (R43). -/
def upperLanesUsed (s : State) : Bool := (List.range 8).any (fun i => (ownerOf s (8 + i)).isSome)

def cmdDeviceSetProfile : CmdSpec where
  opcode := 0x0104
  lenOk := fixedLen 1
  args := fun _ => [boundArg 0 1 0 3]
  legal := clsS
  run := fun _ a s =>
    if byteAt a 0 = 3 && upperLanesUsed s then refuseFree stResource s
    else done { s with dev := { s.dev with selected := profileOf (byteAt a 0) } }

/-- DEVICE_SET_PROFILE (R42, R43, R450). -/
def execDeviceSetProfile (n : Fin 16) (s : State) : Answer := .next (takeUp cmdDeviceSetProfile n s)

/-! ### MAINTENANCE and SAFE -/

/-- DEVICE_ENTER_MAINTENANCE past step 5 (R442). -/
def enterMaintenance (s : State) : State :=
  if s.dev.state == .standby || s.dev.state == .active || s.dev.state == .degraded then
    changeState .maintenance { s with dev := { s.dev with maintFrom := s.dev.state } }
  else s

def cmdDeviceEnterMaintenance : CmdSpec where
  opcode := 0x0106
  lenOk := fixedLen 0
  args := fun _ => []
  legal := clsIn [.standby, .active, .degraded]
  run := fun _ _ s => afterWake (fun s => done (enterMaintenance s)) s

/-- DEVICE_ENTER_MAINTENANCE (R442, R450, R487). -/
def execDeviceEnterMaintenance (n : Fin 16) (s : State) : Answer :=
  .next (takeUp cmdDeviceEnterMaintenance n s)

/-- The state that DEVICE_LEAVE_MAINTENANCE enters (R442). -/
def maintenanceExit (s : State) : DevState :=
  match s.dev.maintFrom with
  | .active => serviceState s
  | d => d

/-- DEVICE_LEAVE_MAINTENANCE past step 5 (R453). -/
def leaveMaintenance (s : State) : State :=
  let s1 := stopTests s
  changeState (maintenanceExit s1) s1

def cmdDeviceLeaveMaintenance : CmdSpec where
  opcode := 0x0107
  lenOk := fixedLen 0
  args := fun _ => []
  legal := clsM
  run := fun _ _ s =>
    if background? s == some 0x0D04 || background? s == some 0x0D05 then refuseWord stBusy 1 s
    else withState leaveMaintenance s

/-- DEVICE_LEAVE_MAINTENANCE (R442, R450, R453). -/
def execDeviceLeaveMaintenance (n : Fin 16) (s : State) : Answer :=
  .next (takeUp cmdDeviceLeaveMaintenance n s)

/-- DEVICE_LEAVE_SAFE past its check (R303, R444, R551). -/
def leaveSafe (s : State) : State :=
  let s1 := restoreSlots (quiesce s)
  changeState .standby { s1 with dev := { s1.dev with alarmLatch := 0, alarmSinceReset := false } }

def cmdDeviceLeaveSafe : CmdSpec where
  opcode := 0x0108
  lenOk := fixedLen 0
  args := fun _ => []
  legal := clsIn [.safe]
  run := fun _ _ s =>
    if assertedMask s ≠ 0 then refuseWord stBusy (assertedMask s) s else done (leaveSafe s)

/-- DEVICE_LEAVE_SAFE (R444, R450, R453, R551). -/
def execDeviceLeaveSafe (n : Fin 16) (s : State) : Answer := .next (takeUp cmdDeviceLeaveSafe n s)

/-! ### Reset and erasure -/

/-- The reset that DEVICE_RESET orders; after a cold one the device holds itself reset for 10 ms (R454, R601). -/
def orderReset (kind : Nat) (s : State) : State :=
  if kind = 1 then warmReset 0x04 s
  else
    let s1 := coldReset 0x03 s
    { s1 with sup := { s1.sup with releaseAt := s1.now + ms 10 } }

def cmdDeviceReset : CmdSpec where
  opcode := 0x0109
  lenOk := fixedLen 1
  args := fun _ => [boundArg 0 1 1 2]
  legal := clsQ
  run := fun _ a s => afterWake (fun s => .never (orderReset (byteAt a 0) s)) s

/-- DEVICE_RESET (R450, R454, R487). -/
def execDeviceReset (n : Fin 16) (s : State) : Answer := .next (takeUp cmdDeviceReset n s)

def cmdDeviceEraseKeys : CmdSpec where
  opcode := 0x010A
  lenOk := fixedLen 4
  args := fun _ => [rangeArg 0 4 (fun v => v == 0x45524153)]
  legal := clsQ
  run := fun _ _ s =>
    let s1 := raiseAlarm 4 s
    if !s1.dev.erasing && s1.dev.state == .safe then done s1 else .waits false s1

/-- DEVICE_ERASE_KEYS (R301, R302, R454): a Warden order. -/
def execDeviceEraseKeys (n : Fin 16) (s : State) : Answer := .next (takeUp cmdDeviceEraseKeys n s)

/-! ### Exits from D2 and D3 (R482, R484, R487) -/

/-- A command that waited for the exit has its effect now. -/
def resumeCommand (r : Running) (s : State) : State :=
  if r.opcode = 0x0102 then
    let s1 := if s.dev.state == .standby then startDevice s else s
    conclude r.mbx stOk false false (leBytes 4 (stateWord s1)) s1
  else if r.opcode = 0x0103 then conclude r.mbx stOk false false [] (stopDevice s)
  else if r.opcode = 0x0106 then conclude r.mbx stOk false false [] (enterMaintenance s)
  else if r.opcode = 0x0109 then orderReset (byteAt r.args 0) s
  else s

/-- The exit ends: the groups that failed, D0, and what waited for it. -/
def endExit (lost : List (Fin 24)) (s : State) : State :=
  let s1 := concludeErase (finishExit lost s)
  match s1.hif.running.find? (·.afterExit) with
  | some r => resumeCommand r s1
  | none => s1

/-- D2_EXIT_DONE (R482, R485, R487). -/
def execD2ExitDone (lost : List (Fin 24)) (s : State) : Answer :=
  if s.pow.phase == .exitingD2 then .next (endExit lost s) else .next s

/-- D3_EXIT_DONE (R484, R485, R487). -/
def execD3ExitDone (lost : List (Fin 24)) (s : State) : Answer :=
  if s.pow.phase == .exitingD3 then .next (endExit lost s) else .next s

end Sys2Proof.Machine
end

