-- ==== Sys2Proof/Machine/Supply.lean ====
section
/-! DEFINITION. Supply, reset inputs, reference clock and boot (chapter 19 R589 to R609, chapter 17
R561 to R567, R442, R444). -/

namespace Sys2Proof.Machine

open Sys2Proof

/-! ### Lockout and resets (R589 to R591, R601, R605) -/

/-- POWER_ON (R590, R602, R612): the lockout releases, and everything starts anew. -/
def execPowerOn (s : State) : Answer :=
  if !s.sup.lockout then .next s
  else
    let s1 := emit (.v1p8 true) (coldReset 0x01 s)
    .next { s1 with cnt := [], sup := { s1.sup with
      lockout := false, refOk := false, releaseAt := s1.now + ms 1 } }

/-- UNDER_VOLTAGE_LOCKOUT (R590): every volatile store loses its contents. -/
def execUnderVoltageLockout (s : State) : Answer :=
  let b := blank s
  .next (emit (.v1p8 false) (showPins s
    { b with sup := { b.sup with lockout := true, refOk := false, dyingGasp := false, goodSince := none } }))

/-- Boot logic runs once reset is released and REFCLK156 is qualified (R600, R605). -/
def enterLoading (s : State) : State :=
  if s.dev.released && s.sup.refOk && s.dev.state == .cold then
    { s with dev := { s.dev with state := .loading } }
  else s

/-- RESET_RELEASE (R601, R605): PGOOD_IN and RESET_N are high, no earlier than 1 ms after the lockout's release or
10 ms after a host cold reset; the rails ramp and the PCIe link trains. A rising edge of RESET_N passes its filter
first (R546). -/
def execResetRelease (s : State) (held : Nat := 1000000) : Answer :=
  if s.dev.state == .cold && !s.dev.released && !s.sup.lockout && s.sup.pgood then
    let release := fun (s : State) =>
      let s1 := passTo s.sup.releaseAt s
      enterLoading { s1 with
        dev := { s1.dev with released := true, releasedAt := s1.now, pinLow := false }
        pow := { s1.pow with railsUp := true, changed := s1.now, levelAt := s1.now }
        hif := { s1.hif with linkUp := !s1.hif.perst } }
    .next (if s.dev.pinLow then deglitch 2 0 (us 1) held release s else release s)
  else .next s

/-- PIN_RESET (R546, R601, R609): a cold reset once RESET_N has been low for 1 µs, held while it stays low. -/
def execPinReset (s : State) (held : Nat := 1000000) : Answer :=
  if s.sup.lockout then .next s
  else
    .next (deglitch 2 0 (us 1) held (fun s =>
      let s1 := coldReset 0x02 s
      { s1 with dev := { s1.dev with pinLow := true } }) s)

/-- REFCLK156_QUALIFY (R600, R612). -/
def execRefclk156Qualify (s : State) : Answer :=
  if s.sup.lockout || s.sup.refOk then .next s
  else
    let s1 := { s with sup := { s.sup with refOk := true } }
    .next (if s.dev.state == .cold then enterLoading s1 else bump (ck 612 2 0) 1 s1)

/-- REFCLK156_LOSS (R600, R612, R617). -/
def execRefclk156Loss (s : State) : Answer :=
  if s.sup.refOk then
    .next (bump (ck 612 1 0) 1 { s with
      sup := { s.sup with refOk := false }, hif := { s.hif with refLoss := true } })
  else .next s

/-! ### What the outputs drive (R579) -/

/-- The device's outputs (R579); BEN has its own (R127). -/
inductive OutBall where
  | tx (lane : Nat) | ppsOut | todOut | qcsN | qsck | qio | tdo | mdc | mdio | gpio (i : Nat) | tamperDrv
  deriving DecidableEq, Repr

/-- How an output is driven: not at all; at a level; without swing; by its function. -/
inductive Drive where
  | highZ | low | high | idle | active
  deriving DecidableEq, Repr

/-- A lane's transmitter before STANDBY and after it (R389, R579). -/
def txDrive (s : State) (l : Nat) : Drive :=
  if s.dev.ready && (laneOf s l).state == .ready then .active else .idle

/-- A GPIO ball: an input pulled down until the host drives it (R579, R587). -/
def gpioDrive (s : State) (i : Nat) : Drive :=
  if !bit s.hif.gpioDir.toNat i then .highZ else if bit s.hif.gpioOut.toNat i then .high else .low

/-- An output between its pulses, messages and frames (R579): the flash's balls are the boot logic's in LOADING; the
tamper pattern runs while Propolis does. -/
def outDrive (s : State) (b : OutBall) : Drive :=
  if s.sup.lockout then .highZ
  else match b with
    | .tx l => txDrive s l
    | .ppsOut => .low
    | .todOut => .high
    | .qcsN => if s.dev.state = .loading then .active else .high
    | .qsck | .qio => if s.dev.state = .loading then .active else .idle
    | .tdo => .highZ
    | .mdc => if s.hif.mdioCmd.getLsbD 31 then .active else .low
    | .mdio => if s.hif.mdioCmd.getLsbD 31 then .active else .highZ
    | .gpio i => gpioDrive s i
    | .tamperDrv => .active

/-! ### PGOOD_IN and VIN (R589, R591, R612) -/

/-- PGOOD_IN_TRANSITION (R546, R591): a level held for 1 µs. -/
def execPgoodInTransition (level : Bool) (s : State) (held : Nat := 1000000) : Answer :=
  .next (deglitch 2 1 (us 1) held (fun s =>
    let s1 := noteGood { s with sup := { s.sup with pgood := level } }
    if level || s.sup.lockout then s1 else dyingGaspOnset s1) s)

/-- DYING_GASP_CLEAR (R591): both have been good for 10 ms. -/
def execDyingGaspClear (s : State) : Answer :=
  if s.sup.dyingGasp && s.sup.goodSince.isSome then
    let s1 := passSince s.sup.goodSince (ms 10) s
    .next { s1 with sup := { s1.sup with dyingGasp := false } }
  else .next s

/-- The marks of VIN in 10 mV; 0 stands for a mark that was read (R612). -/
def markVin (mV : Nat) (s : State) : State :=
  let v := mV / 10
  let low := s.count (ck 612 5 0)
  setCount (ck 612 5 0) (if low = 0 then v else min low v) (markHigh (ck 612 4 0) v s)

/-- VIN_SAMPLE (R589, R591, R301): the monitor's 1 µs average. -/
def execVinSample (mV : Nat) (s : State) : Answer :=
  if s.sup.lockout then .next s
  else
    let s1 := noteGood (markVin mV { s with sup := { s.sup with vinMv := mV } })
    let s2 := if mV < 2600 then dyingGaspOnset s1 else s1
    .next (if mV < 2500 ∨ 5800 < mV then holdSource 1 s2 else assertSource 1 false s2)

/-! ### Boot (R561 to R567, R582) -/

/-- A control sector from which R565 may boot. -/
def bootable (c : Option (Nat × SlotState)) : Bool :=
  match c with
  | some (_, .trial) | some (_, .trying) | some (_, .confirmed) => true
  | _ => false

/-- A slot's state written into its control sector (R564). -/
def writeControl (k : Nat) (st : SlotState) (s : State) : State :=
  modSlot k (fun x => { x with sector := match readSector x.sector with
    | some c => sectorBytes c.1 st
    | none => x.sector }) s

/-- The generation of a bootable slot. -/
def generation (s : State) (k : Nat) : Nat := ((slotControl s k).map (·.1)).getD 0

/-- The slots that R565 tries, in its order. -/
def bootOrder (s : State) : List Nat :=
  match bootable (slotControl s 0), bootable (slotControl s 1) with
  | true, true => if generation s 0 ≥ generation s 1 then [0, 1] else [1, 0]
  | true, false => [0]
  | false, true => [1]
  | false, false => []

/-- One slot tried: whether it boots, and the control sector it is left with (R565); an image a page of which takes more
than 5 ms to read is refused (R547). -/
def trySlot (k : Nat) (slow : List (Fin 2)) (s : State) : Bool × State :=
  let ok := authentic s (slotImage s k) && !slow.any (fun x => x.val == k)
  match slotControl s k with
  | some (_, .trying) => (false, writeControl k .failed s)
  | some (_, .trial) =>
    let s1 := writeControl k .trying s
    if ok then (true, s1) else (false, writeControl k .failed s1)
  | some (_, .confirmed) =>
    if ok then (true, s) else (false, writeControl k .failed s)
  | _ => (false, s)

/-- The image of a slot is booted; another slot than the one first chosen is a fallback. -/
def bootSlot (k first : Nat) (s : State) : State :=
  let s1 := { s with
    mnt := { s.mnt with slot := k, fallback := decide (k ≠ first) }, dev := { s.dev with booted := true } }
  if k = first then s1 else raise 0x0D01 false k (leBytes 1 first) s1

/-- BOOT_SELECT (R565, R567, R582): a flash without the read mode boots no slot; nothing is tried twice. -/
def execBootSelect (readMode : Bool) (s0 : State) (slow : List (Fin 2) := []) : Answer :=
  let s := { s0 with dev := { s0.dev with bootTried := true } }
  if s0.dev.state != .loading || s0.dev.bootTried then .next s0
  else if !readMode then .next s
  else
    match bootOrder s with
    | [] => .next s
    | k :: rest =>
      let (ok, s1) := trySlot k slow s
      if ok then .next (bootSlot k k s1)
      else
        match rest with
        | [] => .next s1
        | j :: _ =>
          let (ok2, s2) := trySlot j slow s1
          .next (if ok2 then bootSlot j k s2 else s2)

/-- The argument bytes of the journal's reset marker (R436). -/
def markerArgs (s : State) : Bytes :=
  leBytes 1 s.dev.cause.toNat ++ [0] ++ leBytes 2 s.dev.pendingMask.toNat

/-- What Knarrasar does after a warm reset before READY: its mailboxes from the journal, the reset
marker, bank group 23 with its check and its shadow (R436, R437, R494, R603, R607). -/
def rebuild (s : State) : State :=
  if s.dev.warm then
    restoreBank 23 (wakeBankFreely 23
      (journal 0 0 0 stOk false false (markerArgs s) (mailboxesFromJournal s)))
  else s

/-- The payload of Amber's reset marker: slot and version, reset cause, LAST_SEQ of each mailbox (R553). -/
def markerPayload (s : State) : Bytes :=
  leBytes 1 s.mnt.slot ++ leBytes 4 (slotVersion s s.mnt.slot) ++ leBytes 1 s.dev.cause.toNat
    ++ (List.range 16).flatMap (fun n => leBytes 4 ((lastSeq s n).getD 0).toNat)

/-- Amber goes on with a reset marker (R557). -/
def markReset (s : State) : State := amberStart 0x000C (markerPayload s) 0 s

/-- LOADING_COMPLETE (R411, R442, R444, R553, R554): READY and STANDBY, or SAFE at once. -/
def execLoadingComplete (s : State) : Answer :=
  if s.dev.state != .loading || !s.dev.booted then .next s
  else
    let s1 := forEach replicaIslands realign (markReset (reseed (rebuild s)))
    let s2 := changeState .standby { s1 with
      dev := { s1.dev with ready := true, readyAt := some s1.now, warm := false }
      time := { s1.time with ppsHeld := false } }
    let s3 := showPins s1 (syncLanes s2)
    .next (if assertedMask s3 ≠ 0 ∨ s3.dev.alarmSinceReset then becomeSafe s3 else s3)

/-- Fuses are blown up to the confirmed image's epoch (R566). -/
def blowFuses (s : State) : State :=
  let e := byteAt (slotImage s s.mnt.slot) 8
  if e > fusedEpoch s then { s with mnt := { s.mnt with epochBlown := e - Config.fusedEpoch } } else s

/-- IMAGE_CONFIRM (R565, R566): 60 s in STANDBY or a later state. -/
def execImageConfirm (s : State) : Answer :=
  match s.dev.readyAt, slotControl s s.mnt.slot with
  | some _, some (_, .trying) =>
    let s1 := passSince s.dev.readyAt (ms 60000) s
    .next (blowFuses (writeControl s1.mnt.slot .confirmed s1))
  | _, _ => .next s

end Sys2Proof.Machine
end

