-- ==== Sys2Proof/Machine/Ports.lean ====
section
/-! DEFINITION. The client ports and the management port: their commands and their links (chapter 10
R345 to R351, R359, R361, R367 to R369, R465). -/

namespace Sys2Proof.Machine

open Sys2Proof

/-! ### PORT_CONFIGURE (R347, R348) -/

def portArgs (a : Bytes) : List Arg :=
  let d := le a 8 8
  let mode := fld d 60 4
  [boundArg 0 1 0 15, anyArg 8 8, zeroArg d 8 0 17,
    bitArg d 8 18 7 stRange (fun v => decide (v ≤ 100)), bitArg d 8 25 2 stRange (fun v => v != 3),
    bitArg d 8 27 16 stRange (fun v => v != 0),
    ruleArg 8 43 (!bit d 43 || (bit d 59 && (mode == 1 || mode == 2))),
    bitArg d 8 44 14 stRange (fun v => decide (1518 ≤ v) && decide (v ≤ 9728)),
    ruleArg 8 60 (decide (mode ≤ 5) && decide (byteAt a 0 % max 1 (modeLanes mode) = 0))]

/-- A descriptor's MODE and its other fields that the checks read. -/
def descMode (d : Nat) : Nat := fld d 60 4

/-- Ports whose lanes a new MODE of port p would take. -/
def takenFrom (s : State) (p mode : Nat) : List Nat :=
  (List.range 16).filter (fun q =>
    decide (q ≠ p) && (lanesOf q (portOf s q).mode).any (fun l => (lanesOf p mode).contains l))

/-- A change of MODE or KR that R347 answers BUSY. -/
def portBusy (s : State) (p d : Nat) : Bool :=
  let x := portOf s p
  (decide (descMode d ≠ x.mode) || bit d 59 != x.kr)
    && (x.enable || (takenFrom s p (descMode d)).any (fun q => (portOf s q).enable))

/-- The rate that a descriptor adds to the sum of R276: MACsec in force on an enabled port. -/
def macsecRate (d : Nat) : Nat := if bit d 17 && bit d 58 then 2 * modeRate (descMode d) else 0

/-- The sum of R276 with port p under descriptor d. -/
def macsecSum (s : State) (p d : Nat) : Nat :=
  macsecRate d + total (((List.range 16).filter (· ≠ p)).map (fun q => macsecRate (portOf s q).desc.toNat))

/-- A port under another MODE or KR begins without a link. -/
def freshPort (d : Word64) (x : Port) : Port :=
  { desc := d, filters := x.filters, linkAt := x.linkAt, faultSent := x.faultSent, divert := x.divert, divertAt := x.divertAt }

/-- The link of a port that is disabled goes down (R241, R347). -/
def disablePort (p : Nat) (s : State) : State :=
  if (portOf s p).link && !(portOf s p).enable then linkGoesDown p 5 s else s

/-- A descriptor written, with the displacement of the ports whose lanes it takes (R347, R348). -/
def writePort (p : Nat) (d : Word64) (s : State) : State :=
  let other := descMode d.toNat ≠ (portOf s p).mode ∨ d.getLsbD 59 ≠ (portOf s p).kr
  let s1 := forEach (takenFrom s p (descMode d.toNat))
    (fun q s => modPort q (freshPort ({} : Port).desc) s) s
  let starts := d.getLsbD 58 && !(portOf s p).enable
  let s2 := modPort p (fun x =>
    let y := if other then freshPort d x else { x with desc := d }
    if starts then { y with anAt := s.now } else y) s1
  let s3 := if d.getLsbD 43 then s2 else leaveLpi p s2
  syncFaults (syncLanes (disablePort p s3))

def cmdPortConfigure : CmdSpec where
  opcode := 0x0801
  lenOk := fixedLen 16
  args := portArgs
  legal := clsL
  run := fun _ a s =>
    let p := byteAt a 0
    let d := le a 8 8
    let mode := descMode d
    if portBusy s p d then refuseFree stBusy s
    else if s.dev.selected == .economy && mode != 0 && decide (p ≥ 8) then refuseFree stResource s
    else if macsecRate d ≠ 0 ∧ macsecSum s p d > 1500 then refuseFree stResource s
    else done (writePort p (BitVec.ofNat 64 d) s)

/-- PORT_CONFIGURE (R43, R276, R347, R348). -/
def execPortConfigure (n : Fin 16) (s : State) : Answer := .next (takeUp cmdPortConfigure n s)

/-! ### Filters, addresses, aggregations (R354, R359, R367) -/

def cmdPortSetFilter : CmdSpec where
  opcode := 0x0802
  lenOk := fixedLen 72
  args := fun _ => boundArg 0 1 0 15 :: (List.range 8).map (fun i => anyArg (8 + 8 * i) 6)
  legal := clsL
  run := fun _ a s =>
    let l := (List.range 8).foldl
      (fun t i => tset (0 : BitVec 48) t i (BitVec.ofNat 48 (be a (8 + 8 * i) 6))) []
    done (modPort (byteAt a 0) (fun x => { x with filters := l }) s)

/-- PORT_SET_FILTER (R354, R465). -/
def execPortSetFilter (n : Fin 16) (s : State) : Answer := .next (takeUp cmdPortSetFilter n s)

def cmdPortSetAddress : CmdSpec where
  opcode := 0x0803
  lenOk := fixedLen 6
  args := fun _ => [rangeArg 0 1 (fun v => !bit v 0), anyArg 1 4, boundArg 5 1 0 0xEF]
  legal := clsL
  run := fun _ a s => done { s with prt := { s.prt with base := BitVec.ofNat 48 (be a 0 6) } }

/-- PORT_SET_ADDRESS (R359, R465). -/
def execPortSetAddress (n : Fin 16) (s : State) : Answer := .next (takeUp cmdPortSetAddress n s)

def aggOf (s : State) (i : Nat) : Aggregation := tget {} s.prt.aggs i

def setAgg (i : Nat) (x : Aggregation) (s : State) : State :=
  { s with prt := { s.prt with aggs := tset {} s.prt.aggs i x } }

/-- A member mask that R465 refuses: one port, more than 8, unequal MODE, or another aggregation's. -/
def aggFault (s : State) (a : Bytes) : Option (Nat × Nat) :=
  let m := le a 2 2
  let l := setBits 16 m
  let equal := match l with
    | [] => true
    | p :: rest => rest.all (fun q => (portOf s q).mode == (portOf s p).mode)
  let taken := (List.range 8).any (fun i =>
    decide (i ≠ byteAt a 0) && decide (Nat.land (aggOf s i).mask.toNat m ≠ 0))
  if l.length = 1 ∨ l.length > 8 ∨ !equal ∨ taken then some (stRange, 2) else none

def cmdPortSetAggregation : CmdSpec where
  opcode := 0x0804
  lenOk := fixedLen 7
  args := fun _ => [boundArg 0 1 0 7, anyArg 2 4, flagArg 6 1]
  also := aggFault
  legal := clsL
  run := fun _ a s =>
    let m := le a 2 2
    let old := (aggOf s (byteAt a 0)).distributing.toNat
    done (setAgg (byteAt a 0) (if m = 0 then {} else {
      mask := BitVec.ofNat 16 m, priority := BitVec.ofNat 16 (le a 4 2), active := byteAt a 6 == 1
      distributing := BitVec.ofNat 16 (Nat.land old m) }) s)

/-- PORT_SET_AGGREGATION (R367, R465). -/
def execPortSetAggregation (n : Fin 16) (s : State) : Answer :=
  .next (takeUp cmdPortSetAggregation n s)

/-- The aggregation that a client port belongs to (R367). -/
def aggOfPort (s : State) (p : Nat) : Option Nat :=
  (List.range 8).find? (fun i => bit (aggOf s i).mask.toNat p)

/-! ### Management port and LLDP (R361, R368) -/

def cmdPortSetMgmt : CmdSpec where
  opcode := 0x0805
  lenOk := fixedLen 1
  args := fun _ => [boundArg 0 1 0 4]
  legal := clsL
  run := fun _ a s =>
    let m := byteAt a 0
    let falls := s.prt.mgmtSync && m != s.prt.mgmtMode
    let s1 := syncLanes { s with prt := { s.prt with mgmtMode := m, mgmtSync := s.prt.mgmtSync && !falls } }
    done (if falls then raise 0x0801 false 16 (leBytes 1 0 ++ leBytes 1 (if m = 0 then 5 else 1)) s1 else s1)

/-- PORT_SET_MGMT (R351, R368, R465, R474, R475). -/
def execPortSetMgmt (n : Fin 16) (s : State) : Answer := .next (takeUp cmdPortSetMgmt n s)

def lldpOf (s : State) (p : Nat) : Lldp := tget {} s.prt.lldp p

def cmdPortSetLldp : CmdSpec where
  opcode := 0x0806
  lenOk := fixedLen 4
  args := fun _ => [boundArg 0 1 0 16, flagArg 1 2, boundArg 2 2 1 3600]
  legal := clsL
  run := fun _ a s =>
    let x : Lldp := { enable := bit (byteAt a 1) 0, eee := bit (byteAt a 1) 1, interval := le a 2 2 }
    done { s with prt := { s.prt with lldp := tset {} s.prt.lldp (byteAt a 0) x } }

/-- PORT_SET_LLDP (R361, R465). -/
def execPortSetLldp (n : Fin 16) (s : State) : Answer := .next (takeUp cmdPortSetLldp n s)

/-! ### Reads (R369, R465, R466) -/

/-- The link cause that stands (R466). -/
def linkCause (s : State) (p : Nat) : Nat :=
  let x := portOf s p
  if x.link then 0
  else if !portRuns s p then 5
  else if x.anFailed then 7
  else if x.kr && !x.anDone then 6
  else if !x.aligned then 1
  else if !x.fecLock then 2
  else if x.localFault then 3
  else if x.remoteFault then 4
  else 1

/-- AN of the transmit SA in use, 0xFF when none. -/
def usedAn (m : Macsec) : Nat := ((m.tx.find? (·.inUse)).map (·.an)).getD 0xFF

def portStatus (s : State) (p : Nat) : Bytes :=
  if p = 16 then
    let up := s.prt.mgmtSync && decide (s.prt.mgmtMode ≠ 0)
    leBytes 1 (b2n up) ++ leBytes 1 (if up then 0 else if s.prt.mgmtMode = 0 then 5 else 1)
      ++ zeros 5 ++ [0xFF]
  else
    let x := portOf s p
    leBytes 1 (b2n x.link) ++ leBytes 1 (linkCause s p) ++ leBytes 1 (if x.kr && !x.anDone then 0 else x.mode)
      ++ [0] ++ leBytes 2 x.tw ++ leBytes 1 (b2n x.txLpi + 2 * b2n x.rxLpi)
      ++ leBytes 1 (usedAn (macsecOf s p))

def cmdPortReadStatus : CmdSpec where
  opcode := 0x0807
  lenOk := fixedLen 1
  args := fun _ => [boundArg 0 1 0 16]
  legal := clsQ
  run := fun _ a s => doneWith (portStatus s (byteAt a 0)) s

/-- PORT_READ_STATUS (R361, R465, R466). -/
def execPortReadStatus (n : Fin 16) (s : State) : Answer := .next (takeUp cmdPortReadStatus n s)

/-- A counter of R369 as it reads now: the times that still run are counted in. -/
def portCount (s : State) (p row : Nat) : Nat :=
  let x := portOf s p
  let n := s.count (ck 369 row p)
  if row = 46 && !x.link then n + (s.now - max x.linkAt s.prt.since) / 1000000000
  else if row = 63 && x.txLpi then n + (s.now - x.lpiAt) / 1000000
  else if row = 65 && x.rxLpi then n + (s.now - x.rxLpiAt) / 1000000
  else n

/-- The rows of R369 that a port keeps, in order (log entry 7). -/
def portRows (p : Nat) : List Nat := if p = 16 then [0, 1, 24, 25, 111, 112] else List.range 111

/-- What the RS-FEC has corrected and what it could not, and the errors of each lane, since they were counted last: free
numbers while the FEC is locked (R346, R369; log entry 5). -/
def countCoding (p : Nat) (s : State) : State :=
  let x := portOf s p
  let lanes := List.range (modeLanes x.mode)
  let rows := if x.fecLock then [47, 48] ++ lanes.map (49 + ·) ++ lanes.map (54 + ·) else []
  forEach rows (fun r s =>
    let (v, s1) := takeFree s
    bump (ck 369 r p) v s1) s

def cmdPortReadCounters : CmdSpec where
  opcode := 0x0808
  lenOk := fixedLen 1
  args := fun _ => [boundArg 0 1 0 16]
  legal := clsQ
  run := fun _ a s =>
    let p := byteAt a 0
    let s1 := countCoding p s
    doneWith ((portRows p).flatMap (fun r => leBytes 8 (portCount s1 p r))) s1

/-- PORT_READ_COUNTERS (R369, R465). -/
def execPortReadCounters (n : Fin 16) (s : State) : Answer := .next (takeUp cmdPortReadCounters n s)

/-! ### Links (R350, R351) -/

/-- Every condition of R351 holds, and negotiation and training where the port uses them. -/
def linkGood (x : Port) : Bool :=
  x.aligned && x.fecLock && !x.localFault && !x.remoteFault && (!x.kr || x.anDone)

/-- Since when the conditions hold, or fail, noted anew. -/
def noteLink (p : Nat) (s : State) : State :=
  modPort p (fun x => { x with
    goodSince := if linkGood x then some (x.goodSince.getD s.now) else none
    badSince := if linkGood x then none else some (x.badSince.getD s.now) }) s

/-- The cause of R466 for which a link fails. -/
def failCause (s : State) (p : Nat) : Nat :=
  let x := portOf s p
  if x.kr && !x.anDone then 6 else if !x.aligned then 1 else if !x.fecLock then 2
  else if x.localFault then 3 else 4

/-- LINK_CONDITION_CHANGE (R351, R369): on a local fault the port transmits remote fault; with DOWN_HOLD at 0 a
failure takes the link down at once. -/
def execLinkConditionChange (p : Fin 16) (aligned fecLock localFault remoteFault : Bool) (s : State) :
    Answer :=
  let x := portOf s p
  if x.mode = 0 then .next s
  else
    let s1 := bump (ck 369 53 p) (b2n (x.aligned && !aligned)) s
    let s2 := bump (ck 369 45 p) (b2n (remoteFault && !x.remoteFault))
      (bump (ck 369 44 p) (b2n (localFault && !x.localFault)) s1)
    let s3 := noteLink p (modPort p (fun x => { x with
      aligned := aligned, fecLock := fecLock, localFault := localFault, remoteFault := remoteFault }) s2)
    let s4 := syncFaults s3
    let y := portOf s4 p
    .next (if y.link && !linkGood y && y.downHold == 0 then linkGoesDown p (failCause s4 p) s4 else s4)

/-- LINK_UP (R351): every condition has held for 10 ms. -/
def execLinkUp (p : Fin 16) (s : State) : Answer :=
  let x := portOf s p
  if x.link || !linkGood x || !portRuns s p || !portsSend s || x.goodSince.isNone then .next s
  else .next (reportLink p 0 true (passSince x.goodSince (ms 10) s))

/-- LINK_DOWN (R241, R351): a condition has failed for DOWN_HOLD × 10 ms. -/
def execLinkDown (p : Fin 16) (s : State) : Answer :=
  let x := portOf s p
  if !x.link || linkGood x || x.badSince.isNone then .next s
  else .next (linkGoesDown p (failCause s p) (passSince x.badSince (ms (10 * x.downHold)) s))

/-- The next training of a port's lanes begins at their start values, without precoding (R371, R376). -/
def startTraining (p : Nat) (s : State) : State :=
  forEach (lanesOf p (portOf s p).mode)
    (fun l s => modLane l (fun x => { x with liveTaps := x.startTaps }) s)
    (modPort p (fun x => { x with anDone := false, anFailed := false, anAt := s.now, precode := false }) s)

/-- AN_RESTART (R350): resolution gave no RS-FEC, or 500 ms have passed without link since it went down or
negotiation last started. -/
def execAnRestart (p : Fin 16) (fecFailed : Bool) (s : State) : Answer :=
  let x := portOf s p
  if !x.kr || !portRuns s p || x.link || (fecFailed && !x.anFailed) then .next s
  else
    let s1 := if fecFailed then s else passTo (max x.linkAt x.anAt + ms 500) s
    .next (noteLink p (startTraining p (bump (ck 369 58 p) 1 s1)))

/-- Training of Clause 162 or 163 may enable precoding: the 100 Gb/s-per-lane modes (R346, R371). -/
def mayPrecode (x : Port) : Bool := x.kr && decide (3 ≤ x.mode)

/-- AUTO_NEGOTIATION_COMPLETE (R350, R369): a 25GBASE-KR port needs RS-FEC of the resolution. -/
def execAutoNegotiationComplete (p : Fin 16) (rsFec trained : Bool) (s : State) (precode : Bool := false) :
    Answer :=
  let x := portOf s p
  if !x.kr || !portRuns s p || x.anDone then .next s
  else if x.mode = 1 ∧ !rsFec then
    .next (bump (ck 369 60 p) 1 (modPort p (fun x => { x with anFailed := true }) s))
  else if !trained then .next (bump (ck 369 61 p) 1 s)
  else .next (noteLink p (modPort p (fun x => { x with
    anDone := true, anFailed := false, precode := precode && mayPrecode x }) (bump (ck 369 59 p) 1 s)))

/-! ### Low-power idle (R361, R362, R387) -/

/-- The three conditions of R361 hold at port p. -/
def mayIdle (s : State) (p : Nat) : Bool :=
  let x := portOf s p
  x.lpiEn && portsSend s && linkIsUp s p && x.eeeKnown && (lldpOf s p).enable && x.inject.isEmpty
    && (tget none s.tm.leaving p).isNone && (pauseOf s p).xoff == 0
    && (List.range 8).all (fun c => (queueOf s (8 * p + c)).pkts.isEmpty)

/-- LPI_ENTRY (R361): the conditions have held together for LPI_IDLE. -/
def execLpiEntry (p : Fin 16) (s : State) : Answer :=
  let x := portOf s p
  if x.txLpi || !mayIdle s p then .next s
  else
    let s1 := passSince x.idleSince (us x.lpiIdle) s
    .next (onWire p (.lpi p) (bump (ck 369 62 p) 1 (modPort p (fun x => { x with
      txLpi := true, lpiAt := s1.now }) s1)))

/-- The partner's quiet ends; its time is counted (R369). -/
def endRxLpi (p : Nat) (s : State) : State :=
  if (portOf s p).rxLpi then
    modPort p (fun x => { x with rxLpi := false })
      (bump (ck 369 65 p) ((s.now - (portOf s p).rxLpiAt) / 1000000) s)
  else s

/-- RECEIVE_LPI (R362, R387): LOS is masked and adaptation frozen while the partner is quiet, within
its refresh interval, and LOS until 10 µs after its signalling returns. -/
def execReceiveLpi (lane : Fin 16) (phase : LpiPhase) (s : State) : Answer :=
  match (if armed (laneOf s lane) then ownerOf s lane else none) with
  | none => .next s
  | some p =>
    match phase with
    | .quiet =>
      let s1 := modLane lane (fun x => { freezeCoeffs x with losMasked := true, unmaskAt := none, frozen := true }) s
      if (portOf s p).rxLpi then .next s1
      else .next (bump (ck 369 64 p) 1 (modPort p (fun x => { x with rxLpi := true, rxLpiAt := s.now }) s1))
    | .refreshed =>
      .next (endRxLpi p (modLane lane (fun x => { x with unmaskAt := some (s.now + us 10), frozen := false }) s))
    | .overdue => .next (modLane lane (fun x => { x with losMasked := false }) s)

/-! ### The management lane (R368, R382, R383) -/

/-- How often SGMII sends each byte (R382). -/
def sgmiiRepeat (mode : Nat) : Nat := if mode = 3 then 10 else if mode = 4 then 100 else 1

/-- Bytes as they stand on the management lane (R382). -/
def laneBytes (n : Nat) (b : Bytes) : Bytes := b.flatMap (List.replicate n)

/-- The bytes that a lane's bytes spell. -/
def unrepeat (n : Nat) (b : Bytes) : Bytes := (List.range (b.length / n)).map (fun i => b.getD (i * n) 0)

/-- An error character in a frame may stand for an elastic buffer of the lane that ran over or empty: free
(R381, R398). -/
def overrunLane (l : Nat) (s : State) : State :=
  let (v, s1) := takeFree s
  if v % 3 = 0 then s1 else bump (ck 398 (10 + v % 3) l) 1 s1

/-- Invalid code-groups and wrong disparities that the management lane meets: free numbers (R383, R398). -/
def countCodeErrors (s : State) : State :=
  let (v, s1) := takeFree s
  let (w, s2) := takeFree s1
  bump (ck 398 16 20) w (bump (ck 398 15 20) v s2)

/-- MGMT_SYNCHRONISATION_CHANGE (R368, R383, R398): synchronisation after three ordered sets with commas at one
alignment; each comma to which the lane has realigned, and each loss, is counted. -/
def execMgmtSynchronisationChange (acquired : Bool) (s : State) (orderedSets : Nat := 3) (commas : Nat := 1) : Answer :=
  if s.prt.mgmtMode = 0 ∨ s.prt.mgmtSync = acquired ∨ !armed (laneOf s 20) then .next s
  else if acquired && decide (orderedSets < 3) then
    .next (bump (ck 398 13 20) commas (countCodeErrors s))
  else
    let s1 := bump (ck 398 (if acquired then 13 else 14) 20) (if acquired then commas else 1) (countCodeErrors
      { s with prt := { s.prt with mgmtSync := acquired } })
    .next (raise 0x0801 false 16 (leBytes 1 (b2n acquired) ++ leBytes 1 (1 - b2n acquired)) s1)

end Sys2Proof.Machine
end

