-- ==== Sys2Proof/Machine/ObsRead.lean ====
section
/-! DEFINITION. The counter groups of the islands (R512 to R517), and the observability commands of R469
that set and read them, the drop counters, the trap bitmap, sampling, ECC rates and the audit records. -/

namespace Sys2Proof.Machine

open Sys2Proof

/-! ### Event codes (R514, R515) -/

/-- Droop detectors of an island (R21). -/
def detectorsOf (island : Nat) : Nat := if [16, 19, 21, 23].contains island then 2 else 1

/-- The drop reasons of R200, in code order. -/
def dropReasons : List Nat :=
  (List.range 8).map (0x01 + ·) ++ (List.range 7).map (0x10 + ·) ++ (List.range 11).map (0x20 + ·)
    ++ (List.range 11).map (0x30 + ·) ++ (List.range 11).map (0x40 + ·) ++ (List.range 3).map (0x50 + ·)
    ++ (List.range 10).map (0x60 + ·) ++ (List.range 3).map (0x70 + ·) ++ (List.range 32).map (0xC0 + ·)

/-- Events of KIND 6 that R515 defines for an island. -/
def ownEvents (i : Nat) : Nat :=
  if i < 4 then 4
  else if i < 10 then 3
  else if i < 14 then 4
  else if i = 14 then 2
  else if i < 21 then 4
  else if i = 21 then 3
  else if i < 26 then 4
  else if i < 35 then 3
  else if i = 35 then 2
  else if i = 37 ∨ i = 38 ∨ i = 42 then 2
  else if i = 40 ∨ i = 41 then 3
  else 1

/-- An event code that R514 or R515 defines for an island. -/
def codeOk (i c : Nat) : Bool :=
  let kind := fld c 12 4
  let sub := fld c 8 4
  let n := fld c 0 8
  match kind with
  | 0 => c == 0
  | 1 => (decide (sub ≤ 1) && decide (n < detectorsOf i)) || (sub == 2 && n == 0)
  | 2 => decide (sub ≤ 1) && decide (n < (portsOf i).length)
  | 3 => decide (sub ≤ 2) && decide (n < (portsOf i).length)
  | 4 => sub == 0 && (n == 0 || dropReasons.contains n)
  | 5 => decide (sub ≤ 3) && decide (n ≤ 14)
  | 6 => sub == 0 && decide (n < ownEvents i)
  | _ => false

/-- A sum over units of a counter. -/
def sumOver (s : State) (rule row : Nat) (l : List Nat) : Nat := total (l.map (fun u => s.count (ck rule row u)))

/-- Every value of one row over all units. -/
def rowTotal (s : State) (rule row : Nat) : Nat :=
  total ((s.cnt.filter (fun e => e.1 / 16777216 == rule * 256 + row)).map (·.2))

/-- Occurrences so far of an own event, or the ps for which its condition has held; none where the model follows
nothing of it, so that its count is a free value (log entry 5). The four islands of the traffic manager show one
count for each of their events: the manual does not say which of them sees a copy or a cell (DESIGN CHOICE, log
entry 27). -/
def ownSource (s : State) (i n : Nat) : Option Nat :=
  let ports := (List.range 4).map (4 * (i - 10) + ·)
  let slice := (i - 15) / 3
  let pipes := [2 * (i - 26), 2 * (i - 26) + 1]
  let own := fun (island : Nat) => some (s.count (ck 515 (16 + n) island))
  if i < 4 then
    (match n with
      | 1 => some (s.count (ck 97 7 i)) | 2 => some (s.count (ck 97 8 i))
      | 3 => some (s.count (ck 97 22 i)) | _ => own i)
  else if i < 8 then
    (match n with
      | 0 => some (s.count (ck 130 20 (i - 4)))
      | 1 => some (bitsPs (s.count (ck 130 21 (i - 4))) + 96000 * s.count (ck 130 20 (i - 4)))
      | _ => own i)
  else if i = 8 then
    (match n with
      | 0 => some (s.count (ck 97 24 4)) | 1 => some (s.count (ck 97 25 4)) | _ => none)
  else if i = 9 then
    (match n with
      | 1 => some (rowTotal s 130 26) | 2 => some (rowTotal s 130 31) | _ => own i)
  else if i < 14 then
    (match n with
      | 0 => some (total ((List.range 11).map (fun r => sumOver s 369 (5 + r) ports)))
      | 1 => some (sumOver s 369 24 ports) | 2 => some (sumOver s 398 9 ports + sumOver s 398 10 ports)
      | _ => some (total (ports.map (fun p => portCount s p 63)) * 1000000))
  else if i = 14 then (if n = 0 then some (s.count (ck 369 0 16)) else some (s.count (ck 369 24 16)))
  else if i = 15 ∨ i = 18 then
    (match n with
      | 0 => some (total ((List.range 3).map (fun r => s.count (ck 203 r slice))))
      | 2 => some (s.count (ck 203 4 slice)) | 3 => some (s.count (ck 203 5 slice)) | _ => own i)
  else if i = 16 ∨ i = 19 then
    (match n with
      | 0 => some (total ((List.range 8).map (fun r => s.count (ck 203 (13 + r) slice))))
      | 1 => some (s.count (ck 232 0 slice)) | 2 => some (s.count (ck 232 1 slice))
      | _ => some (total ((List.range 5).map (fun r => sumOver s 232 (7 + r) ((List.range 8).map (8 * slice + ·))))))
  else if i = 17 ∨ i = 20 then some (s.count (ck 515 n slice))
  else if i = 21 then (if n = 2 then some (sumOver s 232 1 [0, 1]) else none)
  else if i < 26 then
    (match n with
      | 0 => some (rowTotal s 243 0) | 1 => some (rowTotal s 243 2) | _ => own 22)
  else if i < 34 then
    (match n with
      | 1 => some (sumOver s 305 28 pipes)
      | 2 => some (total (pipes.map (fun p => sumOver s 305 17 ((List.range 11).map (p * 16 + ·)))))
      | _ => own i)
  else if i = 34 then
    (match n with
      | 0 => some (s.count (ck 305 33 0)) | 1 => some (s.count (ck 305 30 0))
      | _ => some (s.count (ck 305 31 0)))
  else if i = 35 then (if n = 1 then some (sumOver s 344 0 [0, 1]) else own i)
  else if i = 37 then (if n = 0 then some (rowTotal s 440 2) else some s.hif.evtSeq.toNat)
  else if i = 38 then own i
  else if i = 42 then (if n = 0 then some s.mnt.recSeq.toNat else own i)
  else none

/-- Entries written so far by an island on one of its bridge ports. -/
def portWritten (s : State) (i n : Nat) : Option Nat :=
  match (portsOf i)[n]? with
  | some l => if (linkAt l).sender ≠ i then some 0 else some (bridgeOf s l).written
  | none => none

/-- Entries read so far by an island on one of its bridge ports. -/
def portRead (s : State) (i n : Nat) : Option Nat :=
  match (portsOf i)[n]? with
  | some l => if (linkAt l).receiver ≠ i then some 0 else some (bridgeOf s l).read
  | none => none

/-- The ps for which a condition has held that began before, or runs now. -/
def heldPs (s : State) (at_ : Option Nat) (ps : Nat) : Nat := ps + (s.now - at_.getD s.now)

/-- The ps for which a bridge port of an island, as its sender or as its receiver, has been full or not empty. -/
def portHeld (s : State) (i n : Nat) (sends full : Bool) : Option Nat :=
  match (portsOf i)[n]? with
  | some l =>
    if (if sends then (linkAt l).sender else (linkAt l).receiver) ≠ i then some 0
    else
      let b := bridgeOf s l
      some (if full then heldPs s b.fullAt b.fullPs else heldPs s b.busyAt b.busyPs)
  | none => none

/-- The ps for which a detector of an island has stretched its clock. -/
def stretchedPs (s : State) (i n : Nat) : Nat :=
  match (List.range 48).find? (fun d => detectorIsland d == i && detectorIndex d == n) with
  | some d =>
    let x := detectOf s d
    x.stretched + (if x.stretching then s.now - x.since else 0)
  | none => 0

/-- The condition of an event code holds for a time, and its clocks are what is counted. -/
def isTimed (i c : Nat) : Bool :=
  match fld c 12 4 with
  | 1 => fld c 8 4 == 0
  | 2 => fld c 8 4 == 1
  | 3 => fld c 8 4 != 0
  | 6 => (decide (4 ≤ i ∧ i < 8) && fld c 0 8 == 1) || (decide (10 ≤ i ∧ i < 14) && fld c 0 8 == 3)
  | _ => false

/-- An event of which the model follows a part, so that a free number is added: the entries that cross a bridge
within a step, the inputs of the Warden without a record of their own, the timestamps of received frames, the rows
and words that take no step. -/
def isOpen (i c : Nat) : Bool :=
  match fld c 12 4 with
  | 2 => fld c 8 4 == 1
  | 3 => fld c 8 4 != 0
  | 6 => i == 38 || i == 35 && fld c 0 8 == 0
  | _ => false

/-- Occurrences so far of an event code, or the ps for which its condition has held. -/
def eventSource (s : State) (i c : Nat) : Option Nat :=
  let n := fld c 0 8
  match fld c 12 4 with
  | 0 => some 0
  | 1 =>
    (match fld c 8 4 with
      | 0 => some (stretchedPs s i n)
      | 1 => some (s.count (ck 514 0xE2 (i * 65536 + c)))
      | _ => some (s.count (ck 514 0xE1 i)))
  | 2 => if fld c 8 4 = 0 then portWritten s i n else portHeld s i n true true
  | 3 => if fld c 8 4 = 0 then portRead s i n else portHeld s i n false (fld c 8 4 == 2)
  | 4 =>
    some (if n = 0 then total (dropReasons.map (fun r => s.count (ck 514 r i))) else s.count (ck 514 n i))
  | 5 =>
    some (s.count (ck 511 (match fld c 8 4 with | 0 => 0 | 1 => 5 | 2 => 18 | _ => 19) n))
  | 6 => if i = 36 ∨ i = 39 ∨ i = 43 then some (s.count (ck 514 0xE2 (i * 65536 + c))) else ownSource s i n
  | _ => none

/-- The clocks in which a counter of an island counts, of so many occurrences or of such a time: where its power
domain is off, a part of that time fell to a stopped clock. -/
def clocksOf (s : State) (i v d : Nat) (c : Nat) : Nat :=
  let e := if isTimed i c then d * (nominalHz s i * clockPercent s i) / 100000000000000 else d
  let f := if isTimed i c && !domainOn s (islandDomain i) then v % (e + 1) else e
  if isOpen i c then f + v else f

/-- A counter brought up to date: in level mode by every occurrence, in edge mode by one for each run of clocks,
which may have begun before the counter was last brought up to date (R516; log entry 27). -/
def settleCounter (s : State) (i v : Nat) (c : ObsCounter) : ObsCounter :=
  match eventSource s i c.code.toNat with
  | some n =>
    let d := clocksOf s i v (if n < c.base then n else n - c.base) c.code.toNat
    let add := if c.level then d else v % (d + 1)
    let t := c.count.toNat + add
    { c with count := BitVec.ofNat 48 t, wrap := c.wrap || decide (t ≥ 2 ^ 48), base := n }
  | none =>
    let t := c.count.toNat + v
    { c with count := BitVec.ofNat 48 t, wrap := c.wrap || decide (t ≥ 2 ^ 48) }

def obsCounter (s : State) (i k : Nat) : ObsCounter := tget {} s.obs.counters (8 * i + k)

def setObsCounter (i k : Nat) (c : ObsCounter) (s : State) : State :=
  { s with obs := { s.obs with counters := tset {} s.obs.counters (8 * i + k) c } }

/-- An island's cycle counter brought up to date: by a free number of clocks, and by none where the clock has stood
still since the group was last latched (R513). -/
def countCycles (i : Nat) (s : State) : State :=
  let on := domainOn s (islandDomain i)
  if !on && s.obs.stopped.contains i then s
  else
    let (v, s1) := takeFree s
    { s1 with obs := { s1.obs with
      stopped := s1.obs.stopped.filter (· != i) ++ (if on then [] else [i])
      cycles := tset 0 s1.obs.cycles i ((tget 0 s1.obs.cycles i + v) % 2 ^ 64) } }

/-- The rate compensation of a lane group's lanes is counted up to now before its group is latched (R515). -/
def settleIdle (i : Nat) (s : State) : State :=
  if 10 ≤ i ∧ i < 14 then forEach (List.range 4) (fun k s => compensateIdle (4 * (i - 10) + k) s) s else s

/-- A group latched at one clock edge (R513, R517). -/
def latchGroup (i : Nat) (s : State) : State :=
  let s2 := countCycles i (settleIdle i s)
  forEach (List.range 8) (fun k s =>
    let (v, t) := takeFree s
    setObsCounter i k (settleCounter t i v (obsCounter t i k)) t) s2

/-- A counter as R517 returns it. -/
def counterWord (c : ObsCounter) : Nat := c.count.toNat + 2 ^ 63 * b2n c.wrap

/-- The 72 bytes of a group (R469, R517). -/
def groupBytes (s : State) (i : Nat) : Bytes :=
  leBytes 8 (tget 0 s.obs.cycles i)
    ++ (List.range 8).flatMap (fun k => leBytes 8 (counterWord (obsCounter s i k)))

/-! ### Commands (R469) -/

def cmdObsSetCounter : CmdSpec where
  opcode := 0x0B01
  lenOk := fixedLen 5
  args := fun a =>
    [boundArg 0 1 0 43, boundArg 1 1 0 7, rangeArg 2 2 (codeOk (byteAt a 0)), flagArg 4 1]
  legal := clsL
  run := fun _ a s =>
    let c : ObsCounter := {
      code := BitVec.ofNat 16 (le a 2 2), level := bit (byteAt a 4) 0
      base := (eventSource s (byteAt a 0) (le a 2 2)).getD 0 }
    done (setObsCounter (byteAt a 0) (byteAt a 1) c s)

/-- OBS_SET_COUNTER (R469, R514, R516): the counter and its flag are zeroed. -/
def execObsSetCounter (n : Fin 16) (s : State) : Answer := .next (takeUp cmdObsSetCounter n s)

def cmdObsReadGroup : CmdSpec where
  opcode := 0x0B03
  lenOk := fixedLen 1
  args := fun _ => [boundArg 0 1 0 43]
  legal := clsQ
  run := fun _ a s =>
    let t := latchGroup (byteAt a 0) s
    doneWith (groupBytes t (byteAt a 0)) t

/-- OBS_READ_GROUP (R469, R517). -/
def execObsReadGroup (n : Fin 16) (s : State) : Answer := .next (takeUp cmdObsReadGroup n s)

/-- The random source seeded anew, and each slice's LFSR from it; Amber records each seed with its source, 1 and 2
for the slices (R528, R554). -/
def seedSlices (s : State) : State :=
  forEach [0, 1] (fun k s =>
    let (v, t) := takeFree s
    amberRecord 0x0005 false (leBytes 1 (k + 1) ++ leBytes 16 (v % 2 ^ 32)) { t with obs := { t.obs with lfsr := tset 0 t.obs.lfsr k (BitVec.ofNat 32 v) } })
    (reseed s)

def cmdObsSetSampling : CmdSpec where
  opcode := 0x0B04
  lenOk := fixedLen 2
  args := fun _ => [boundArg 0 1 0 2, boundArg 1 1 0 31]
  legal := fun s a =>
    s.dev.state != .safe
      && (byteAt a 0 != 2 || s.dev.state == .degraded || s.dev.state == .maintenance)
  run := fun _ a s =>
    done (seedSlices { s with obs := { s.obs with mode := byteAt a 0, rateN := byteAt a 1 } })

/-- OBS_SET_SAMPLING (R469, R528, R530). -/
def execObsSetSampling (n : Fin 16) (s : State) : Answer := .next (takeUp cmdObsSetSampling n s)

def cmdObsSetTrap : CmdSpec where
  opcode := 0x0B07
  lenOk := fixedLen 32
  args := fun _ =>
    [rangeArg 0 32 (fun v => (List.range 256).all (fun r => !bit v r || dropReasons.contains r))]
  legal := clsL
  run := fun _ a s => done { s with cls := { s.cls with trap := BitVec.ofNat 256 (le a 0 32) } }

/-- OBS_SET_TRAP (R202, R469). -/
def execObsSetTrap (n : Fin 16) (s : State) : Answer := .next (takeUp cmdObsSetTrap n s)

/-- The drop counters of a counting port, in code order. -/
def dropBytes (s : State) (p : Nat) : Bytes := dropReasons.flatMap (fun r => leBytes 8 (s.count (ck 201 r p)))

def cmdObsReadDrops : CmdSpec where
  opcode := 0x0B08
  lenOk := fixedLen 1
  args := fun _ => [boundArg 0 1 0 17]
  legal := clsQ
  run := fun _ a s => doneWith (dropBytes s (byteAt a 0)) s

/-- OBS_READ_DROPS (R201, R469). -/
def execObsReadDrops (n : Fin 16) (s : State) : Answer := .next (takeUp cmdObsReadDrops n s)

def cmdObsSetEcc : CmdSpec where
  opcode := 0x0B09
  lenOk := fixedLen 12
  args := fun _ => [boundArg 0 1 0 14, rangeArg 4 4 (fun v => decide (1 ≤ v)), anyArg 8 4]
  legal := clsL
  run := fun _ a s =>
    done (modRegion (byteAt a 0) (fun x => { x with pending := some (le a 4 4, le a 8 4) }) s)

/-- OBS_SET_ECC (R469, R496, R504): the write applies at the next millisecond. -/
def execObsSetEcc (n : Fin 16) (s : State) : Answer := .next (takeUp cmdObsSetEcc n s)

/-- The audit record of a quantity (R539). -/
def auditOf (s : State) (q : Nat) : AuditRec := tget {} s.obs.audit q

def auditBytes (a : AuditRec) : Bytes :=
  leBytes 1 a.state ++ [0] ++ leBytes 2 a.unit ++ leBytes 8 a.time.toNat
    ++ leBytes 4 (uint 32 (max (-(2 ^ 31 - 1)) (min (2 ^ 31 - 1) a.amount)))

def cmdObsReadAudit : CmdSpec where
  opcode := 0x0B05
  lenOk := fixedLen 0
  args := fun _ => []
  legal := clsQ
  run := fun _ _ s => doneWith ((List.range 51).flatMap (fun q => auditBytes (auditOf s q))) s

/-- OBS_READ_AUDIT (R469, R539). -/
def execObsReadAudit (n : Fin 16) (s : State) : Answer := .next (takeUp cmdObsReadAudit n s)

def cmdObsSetDump : CmdSpec where
  opcode := 0x0B02
  lenOk := fixedLen 20
  args := fun a =>
    let host := byteAt a 2 == 1
    [boundArg 0 2 0 1000, boundArg 2 1 0 1,
      rangeArg 8 8 (fun v => !host || decide (v % 4096 = 0)),
      rangeArg 16 4 (fun v => !host
        || (decide (v % 4194304 = 0) && decide (8388608 ≤ v) && decide (v ≤ 1073741824)))]
  legal := clsL
  run := fun _ a s =>
    done { s with obs := { s.obs with
      dumpPeriod := le a 0 2, dumpHost := byteAt a 2 == 1
      dumpAddr := BitVec.ofNat 64 (le a 8 8), dumpBytes := le a 16 4 } }

/-- OBS_SET_DUMP (R469, R523). -/
def execObsSetDump (n : Fin 16) (s : State) : Answer := .next (takeUp cmdObsSetDump n s)

end Sys2Proof.Machine
end

