-- ==== Sys2Proof/Machine/Parse.lean ====
section
/-! DEFINITION. The parser: its instructions and the parse of one pass (R168 to R178), the key it
leaves (R179 to R182), and PARSE_LOAD and PARSE_INSTALL (R173, R457, R458). -/

namespace Sys2Proof.Machine

open Sys2Proof

/-! ### Instruction words (R172) -/

/-- The word DONE, which every address holds after cold reset (R173). -/
def doneWord : Word64 := BitVec.ofNat 64 (0x0D * 2 ^ 58)

def opOf (w : Nat) : Nat := fld w 58 6

/-- The bits of an instruction word that its opcode assigns, opcode included. -/
def assignedBits (op : Nat) : List (Nat × Nat) :=
  (58, 6) :: (match op with
    | 0x01 => [(55, 3), (46, 9), (43, 3), (39, 4)]
    | 0x02 => [(49, 9), (43, 6), (36, 7)]
    | 0x03 => [(55, 3), (36, 7)]
    | 0x04 => [(55, 3), (0, 16)]
    | 0x05 => [(55, 3), (52, 3), (49, 3), (46, 3), (45, 1), (0, 16)]
    | 0x06 => [(55, 3), (47, 8), (45, 2), (35, 10), (34, 1)]
    | 0x07 => [(52, 6), (49, 3)]
    | 0x08 => [(55, 3), (54, 1), (0, 16)]
    | 0x09 => [(55, 3), (52, 3), (40, 12), (0, 16)]
    | 0x0A => [(55, 3), (51, 4), (43, 8)]
    | 0x0B => [(50, 8)]
    | 0x0C => [(0, 16)]
    | 0x0E => [(50, 8)]
    | _ => [])

/-- The assigned bits of a word alone. -/
def keptBits (w : Nat) (l : List (Nat × Nat)) : Nat :=
  l.foldl (fun a f => a + fld w f.1 f.2 * 2 ^ f.1) 0

/-- A case word's VALUE, MASK and NODE. -/
def caseValue (w : Nat) : Nat := fld w 48 16
def caseMask (w : Nat) : Nat := fld w 32 16
def caseNode (w : Nat) : Nat := fld w 24 8

/-! ### The parse of one pass (R168 to R178) -/

/-- What stays the same during a pass. -/
structure Pass where
  frame : Bytes
  len : Nat
  /-- The frame is at its minimum length (R174). -/
  least : Bool

/-- An engine's state (R170). -/
structure Engine where
  c : Nat
  g : List Nat
  lim : Nat
  limHeader : Bool
  hdrs : List HdrInst
  zone : Bytes
  flags : Nat

/-- How a parse ended (R177). -/
inductive ParseEnd where
  | done
  | depth
  | malformed (reason : Nat)
  | fail (reason : Nat)
  | limit
  deriving DecidableEq, Repr

def Engine.reg (x : Engine) (i : Nat) : Nat := x.g.getD i 0

def Engine.put (x : Engine) (i v : Nat) : Engine := { x with g := x.g.set i (v % 65536) }

/-- Extract bytes from kp on replaced. -/
def Engine.store (x : Engine) (kp : Nat) (b : Bytes) : Engine :=
  { x with zone := (x.zone.take kp ++ b ++ x.zone.drop (kp + b.length)).take 72 }

/-- A read whose last byte is `last`, or a move that brings C to `last`: R176. -/
def reach (last len most : Nat) : Option ParseEnd :=
  if last > len then some (.malformed 0x21) else if last > most then some .depth else none

/-- The functions of ALU (R172). -/
def aluOf (fn a b : Nat) : Nat :=
  match fn with
  | 0 => a + b
  | 1 => a + 65536 - b
  | 2 => Nat.land a b
  | 3 => Nat.lor a b
  | 4 => Nat.xor a b
  | 5 => if b < 16 then a * 2 ^ b else 0
  | _ => if b < 16 then a / 2 ^ b else 0

/-- The comparisons of BR (R172). -/
def brOf (cmp a b : Nat) : Bool :=
  match cmp with
  | 0 => a == b
  | 1 => a != b
  | 2 => decide (a < b)
  | _ => decide (a ≥ b)

/-- W bits from bit BIT of byte i (R172 LD). -/
def readBits (f : Bytes) (i b w : Nat) : Nat := be f i 3 / 2 ^ (24 - b - w) % 2 ^ w

/-- LEN (R174). -/
def lenCheck (p : Pass) (x : Engine) (w : Nat) : Except ParseEnd Engine :=
  let e : Int := (x.c : Int) + (x.reg (fld w 55 3) * 2 ^ fld w 45 2 : Nat) + sint 10 (fld w 35 10)
  let bad : Except ParseEnd Engine := .error (.malformed (fld w 47 8))
  if e < x.c then bad
  else
    let n := e.toNat
    if bit w 34 then (if n ≤ x.lim then .ok x else bad)
    else if x.limHeader then (if n = x.lim then .ok x else bad)
    else if n = x.lim then .ok { x with limHeader := true }
    else if n < x.lim ∧ x.lim - n ≤ 63 ∧ p.least then .ok { x with lim := n, limHeader := true }
    else bad

/-- A move of C by n (R176). -/
def moveTo (p : Pass) (x : Engine) (n : Nat) : Except ParseEnd Engine :=
  match reach (x.c + n) p.len 512 with
  | some e => .error e
  | none => .ok { x with c := x.c + n }

/-- HDR (R172, R176). -/
def header (p : Pass) (x : Engine) (w : Nat) : Except ParseEnd Engine :=
  let n := x.reg (fld w 49 3)
  match moveTo p x n with
  | .error e => .error e
  | .ok y =>
    if x.hdrs.length = 12 then .error .depth
    else .ok { y with hdrs := x.hdrs ++ [{ typ := fld w 52 6, off := x.c, len := n }] }

/-- The engine after an instruction that goes on to the next one, or the end it makes. -/
def compute1 (p : Pass) (x : Engine) (w : Nat) : Except ParseEnd Engine :=
  match opOf w with
  | 0x00 => .ok x
  | 0x01 =>
    let i := x.c + fld w 46 9
    let n := fld w 39 4 + 1
    match reach (i + (fld w 43 3 + n - 1) / 8 + 1) p.len 512 with
    | some e => .error e
    | none => .ok (x.put (fld w 55 3) (readBits p.frame i (fld w 43 3) n))
  | 0x02 =>
    let i := x.c + fld w 49 9
    let n := fld w 43 6 + 1
    match reach (i + n) p.len 512 with
    | some e => .error e
    | none => .ok (x.store (fld w 36 7) (slice p.frame i n))
  | 0x03 => .ok (x.store (fld w 36 7) (beBytes 2 (x.reg (fld w 55 3))))
  | 0x04 => .ok (x.put (fld w 55 3) (fld w 0 16))
  | 0x05 =>
    let b := if bit w 45 then fld w 0 16 else x.reg (fld w 49 3)
    .ok (x.put (fld w 55 3) (aluOf (fld w 46 3) (x.reg (fld w 52 3)) b))
  | 0x06 => lenCheck p x w
  | 0x07 => header p x w
  | 0x08 => moveTo p x (if bit w 54 then fld w 0 16 else x.reg (fld w 55 3))
  | 0x0C => .ok { x with flags := Nat.lor x.flags (fld w 0 16) }
  | 0x0D => .error .done
  | 0x0E => .error (.fail (fld w 50 8))
  | _ => .error .limit

def storeWord (s : State) (a : Nat) : Nat := (tget doneWord s.cls.store a).toNat

/-- The instruction address of a node, none where its entry is not valid (R167, R171). -/
def nodeAddr (s : State) (n : Nat) : Option Nat := tget (some 0) s.cls.nodes n

/-- The node that a SW at address a goes to (R172). -/
def switchNode (s : State) (a g w : Nat) : Nat :=
  let cases := (List.range (fld w 51 4)).map (fun i => storeWord s (a + 1 + i))
  match cases.find? (fun c => Nat.land g (caseMask c) == caseValue c) with
  | some c => caseNode c
  | none => fld w 43 8

/-- A case word of a SW instruction is lost (R507). -/
def lostCases (s : State) (a : Nat) (w : Nat) : Bool :=
  opOf w == 0x0A && (List.range (fld w 51 4)).any (fun i => itemLost s 5 (item 0 (a + 1 + i)))

/-- One instruction, or a lost word, which ends the parse as PARSE_PROGRAM (R507): the address and engine that follow,
or the end. -/
def parseStep (s : State) (p : Pass) (a : Nat) (x : Engine) : Except ParseEnd (Option Nat × Engine) :=
  let w := storeWord s a
  if itemLost s 5 (item 0 a) || lostCases s a w then .error .limit
  else match opOf w with
  | 0x09 =>
    .ok (if brOf (fld w 52 3) (x.reg (fld w 55 3)) (fld w 0 16) then some (fld w 40 12)
      else some (a + 1), x)
  | 0x0A => .ok (nodeAddr s (switchNode s a (x.reg (fld w 55 3)) w), x)
  | 0x0B => .ok (nodeAddr s (fld w 50 8), x)
  | _ =>
    match compute1 p x w with
    | .error e => .error e
    | .ok y => .ok (some (a + 1), y)

/-- The outcome of a parse: how it ended, the engine, and the addresses executed in order. -/
structure Parsed where
  ending : ParseEnd
  engine : Engine
  addrs : List Nat

/-- At most n more instructions from address a (R169). -/
def runParse (s : State) (p : Pass) : Nat → Option Nat → Engine → List Nat → Parsed
  | 0, _, x, l => { ending := .limit, engine := x, addrs := l.reverse }
  | _ + 1, none, x, l => { ending := .limit, engine := x, addrs := l.reverse }
  | n + 1, some a, x, l =>
    match parseStep s p a x with
    | .error e => { ending := e, engine := x, addrs := (a :: l).reverse }
    | .ok (b, y) => runParse s p n b y (a :: l)

/-- The engine at the start of a pass (R170, R181). -/
def startEngine (len pass : Nat) (decrypted : Bool) : Engine :=
  { c := 0, g := List.replicate 8 0, lim := if pass = 0 then len - 4 else len, limHeader := false
    hdrs := [], zone := zeros 72, flags := 4 * b2n decrypted }

/-- What R177 and R178 do to the engine when its parse has ended. -/
def endParse (s : State) (r : Parsed) : Parsed :=
  let f0 := if r.ending = .depth then setBit r.engine.flags 0 true else r.engine.flags
  if bit f0 4 then
    let pos := s.cls.pos
    let x := r.engine.store pos.zoneBase (zeros pos.zoneLen)
    { r with engine := { x with flags := setBit f0 1 false } }
  else { r with engine := { r.engine with flags := f0 } }

/-- The parse of a packet's pass from a node (R171); the last byte that a read may reach is the one
before the frame end. -/
def parsePacket (s : State) (p : Pkt) (node : Nat) : Parsed :=
  let len := p.frame.length
  endParse s (runParse s
    { frame := p.frame, len := len, least := len == (if p.pass = 0 then 64 else 60) }
    48 (nodeAddr s node) (startEngine len p.pass p.decrypted) [])

/-! ### The key (R179) -/

/-- Key bits [639:576]. -/
def keyMeta (p : Pkt) (hcount flags : Nat) : Nat :=
  p.inPort * 2 ^ 58 + p.source * 2 ^ 56 + p.pass * 2 ^ 54 + hcount * 2 ^ 50 + flags * 2 ^ 34
    + p.portId.toNat * 2 ^ 18

/-- The 80 bytes of the key, key bits [639:632] first. -/
def keyBytes (p : Pkt) (x : Engine) : Bytes := beBytes 8 (keyMeta p x.hdrs.length x.flags) ++ x.zone

/-! ### PARSE_LOAD and PARSE_INSTALL (R173, R457, R458) -/

/-- The zones of case words, first address and length, of the words loaded, in rising order. -/
def caseZones (l : List (Nat × Nat)) : List (Nat × Nat) :=
  (l.foldl (fun (acc : List (Nat × Nat) × Nat) e =>
    if e.1 ≥ acc.2 ∧ opOf e.2 = 0x0A then
      (acc.1 ++ [(e.1 + 1, fld e.2 51 4)], e.1 + fld e.2 51 4 + 1)
    else acc) ([], 0)).1

def inZone (zones : List (Nat × Nat)) (a : Nat) : Bool :=
  zones.any (fun z => decide (z.1 ≤ a) && decide (a < z.1 + z.2))

/-- An instruction's fields break a rule of R173. -/
def instrFault (zones : List (Nat × Nat)) (nodeOk : Nat → Bool) (a w : Nat) : Bool :=
  let op := opOf w
  decide (op ≥ 0x0F) || keptBits w (assignedBits op) != w
    || (a == 4095 && !([0x0A, 0x0B, 0x0D, 0x0E].contains op))
    || (match op with
      | 0x02 => decide (fld w 36 7 + fld w 43 6 + 1 > 72)
      | 0x03 => decide (fld w 36 7 > 70)
      | 0x05 => fld w 46 3 == 7
      | 0x06 => !(decide (0x21 ≤ fld w 47 8) && decide (fld w 47 8 ≤ 0x29))
      | 0x09 => decide (fld w 52 3 ≥ 4) || inZone zones (fld w 40 12)
      | 0x0A => !nodeOk (fld w 43 8) || decide (a + fld w 51 4 > 4095)
      | 0x0B => !nodeOk (fld w 50 8)
      | 0x0C => bit w 0 || bit w 2 || bit w 3
      | 0x0E =>
        let r := fld w 50 8
        !((decide (0x21 ≤ r) && decide (r ≤ 0x29)) || (decide (0xC0 ≤ r) && decide (r ≤ 0xDF)))
      | _ => false)

/-- A case word breaks a rule of R173. -/
def caseFault (nodeOk : Nat → Bool) (w : Nat) : Bool := fld w 0 24 != 0 || !nodeOk (caseNode w)

/-- The load buffer's words that differ from DONE. -/
def loadedWords (s : State) : List (Nat × Nat) := s.cls.load.map (fun e => (e.1, e.2.toNat))

/-- The lowest address at fault of the load buffer. -/
def loadFault (s : State) (nodeOk : Nat → Bool) : Option Nat :=
  let l := loadedWords s
  let zones := caseZones l
  let words := (l.filter (fun e => !inZone zones e.1 && instrFault zones nodeOk e.1 e.2)).map (·.1)
  let cases := (zones.flatMap (fun z => (List.range z.2).map (z.1 + ·))).filter
    (fun a => decide (a < 4096) && caseFault nodeOk (tget doneWord s.cls.load a).toNat)
  (words ++ cases).foldl (fun o a => match o with
    | none => some a
    | some b => some (min a b)) none

def cmdParseLoad : CmdSpec where
  opcode := 0x0301
  lenOk := countedLen 8 8 (fun a => le a 2 2)
  args := fun a =>
    [rangeArg 0 2 (fun v => decide (v ≤ 4095) && (decide (240 < le a 2 2) || decide (v + le a 2 2 ≤ 4096))),
      boundArg 2 2 1 240,
      anyArg 8 (8 * le a 2 2)]
  legal := clsS
  run := fun _ a s =>
    let put := fun (t : Tab Word64) (i : Nat) =>
      tset doneWord t (le a 0 2 + i) (BitVec.ofNat 64 (le a (8 + 8 * i) 8))
    done { s with cls := { s.cls with load := (List.range (le a 2 2)).foldl put s.cls.load } }

/-- PARSE_LOAD (R457, R458). -/
def execParseLoad (n : Fin 16) (s : State) : Answer := .next (takeUp cmdParseLoad n s)

/-- Node n's entry in the arguments of PARSE_INSTALL. -/
def nodeArg (a : Bytes) (n : Nat) : Nat := le a (2 * n) 2

def nodeArgOk (a : Bytes) (n : Nat) : Bool := bit (nodeArg a n) 15

/-- A valid node entry whose address is a case word. -/
def nodeOnCase (s : State) (a : Bytes) : Option (Nat × Nat) :=
  let zones := caseZones (loadedWords s)
  ((List.range 256).find? (fun n => nodeArgOk a n && inZone zones (fld (nodeArg a n) 0 12))).map
    (fun n => (stFormat, 2 * n))

/-- The checks of R173 beyond the fields themselves; a load-buffer fault is reported as 0x8000_0000
plus its address, and so as an offset above every argument's (R173, R414). -/
def installFault (s : State) (a : Bytes) : Option (Nat × Nat) :=
  match nodeOnCase s a with
  | some f => some f
  | none => (loadFault s (nodeArgOk a)).map (fun w => (stFormat, 0x80000000 - 0x040 + w))

def installNodes (a : Bytes) : Tab (Option Nat) :=
  (List.range 256).foldl (fun t n =>
    tset (some 0) t n (if nodeArgOk a n then some (fld (nodeArg a n) 0 12) else none)) []

def cmdParseInstall : CmdSpec where
  opcode := 0x0302
  lenOk := fixedLen 518
  args := fun a =>
    (List.range 256).map (fun n =>
      { off := 2 * n, len := 2, bad := fun v => if fld v 12 3 = 0 then 0 else stFormat })
    ++ [boundArg 512 1 0 70, boundArg 513 1 0 70, boundArg 514 1 0 70, boundArg 515 1 0 71,
      boundArg 516 1 0 71,
      rangeArg 517 1 (fun v => decide (v ≤ 72) && decide (byteAt a 516 + v ≤ 72))]
  also := installFault
  legal := clsS
  run := fun _ a s =>
    let pos : Positions := {
      l4Src := byteAt a 512, l4Dst := byteAt a 513, vid := byteAt a 514, dscp := byteAt a 515
      zoneBase := byteAt a 516, zoneLen := byteAt a 517 }
    done (recover (fun e => e.region == 5 && e.item % 8 == 0)
      { s with cls := { s.cls with store := s.cls.load, nodes := installNodes a, pos := pos } })

/-- PARSE_INSTALL (R173, R457, R458). -/
def execParseInstall (n : Fin 16) (s : State) : Answer := .next (takeUp cmdParseInstall n s)

end Sys2Proof.Machine
end

