-- ==== Sys2Proof/Machine/TableOps.lean ====
section
/-! DEFINITION. The exact-match table: keys, hashes, lookups, placement and displacement (R204 to R218),
and the port and VLAN tables (R229 to R231). -/

namespace Sys2Proof.Machine

open Sys2Proof

/-! ### Keys and hashes (R205, R206) -/

def polyOf (way : Nat) : Nat :=
  match way with
  | 0 => 0x1EDC6F41 | 1 => 0x04C11DB7 | 2 => 0x741B8CD7 | _ => 0x814141AB

/-- The 32-bit CRC of R205 for a way. -/
def keyCrc (way profile : Nat) (key : Bytes) : Nat :=
  crcMsb 32 (polyOf way) 0xFFFFFFFF (bitsOf (BitVec.ofNat 8 profile :: key))

/-- h_w (R205). -/
def keyHash (way profile : Nat) (key : Bytes) : Nat := keyCrc way profile key % 2 ^ 17

/-- Candidate positions of a key, in way order (R204). -/
def positions (profile : Nat) (key : BitVec 320) : List Nat :=
  (List.range 4).map (fun w => w * 131072 + keyHash w profile (beBytes 40 key.toNat))

def profileAt (s : State) (n : Nat) : KeyProfile := tget {} s.tab.profiles n

/-- A lookup with a lost key profile misses (R507). -/
def profileLost (s : State) (n : Nat) : Bool := itemLost s 5 (item 2 n)

/-- A lookup key built from the parse key by 40 selectors (R206). -/
def buildKey (sel : Tab Byte) (key : Bytes) : BitVec 320 :=
  BitVec.ofNat 320 (be ((List.range 40).map (fun i =>
    let n := (tget 0x7F sel i).toNat
    if n < 80 then BitVec.ofNat 8 (byteAt key n) else 0)) 0 40)

/-! ### Entries and actions (R208, R209) -/

/-- The entry at a position; one lost to an uncorrectable word is invalid (R507). -/
def emAt (s : State) (pos : Nat) : Option EmEntry :=
  if itemLost s 0 (item 0 pos) then none else tget none s.tab.em pos

def setEm (pos : Nat) (e : Option EmEntry) (s : State) : State :=
  rewriteItem 0 (item 0 pos) { s with tab := { s.tab with em := tset none s.tab.em pos e } }

def emKind (a : Nat) : Nat := fld a 61 3
def emVid (a : Nat) : Nat := fld a 13 12
def emSetVlan (a : Nat) : Bool := bit a 12
def emClassQueue (a : Nat) : Bool := bit a 11
def emMirror (a : Nat) : Bool := bit a 10

/-- The entry at a position holds a key under a profile. -/
def holdsKey (s : State) (profile : Nat) (key : BitVec 320) (pos : Nat) : Bool :=
  match emAt s pos with
  | some e => e.profile == profile && e.key == key
  | none => false

/-- Positions that hit, in way order (R211). -/
def emHits (s : State) (profile : Nat) (key : BitVec 320) : List Nat :=
  (positions profile key).filter (holdsKey s profile key)

/-- The position that wins (R211). -/
def emFind (s : State) (profile : Nat) (key : BitVec 320) : Option (Nat × EmEntry) :=
  (emHits s profile key).head?.bind (fun pos => (emAt s pos).map (fun e => (pos, e)))

/-- Final counts added into an entry's (R217). -/
def EmEntry.carry (e old : EmEntry) : EmEntry :=
  { e with pkts := e.pkts + old.pkts, bytes := e.bytes + old.bytes }

/-! ### Placement (R216, R217) -/

/-- A path of displacements grown by one: the other candidate positions of the entry at its head,
without those on the path or the one to avoid. -/
def growPath (s : State) (avoid : Nat) (path : List Nat) : List (List Nat) :=
  match path with
  | [] => []
  | x :: _ =>
    match emAt s x with
    | none => []
    | some e =>
      ((positions e.profile e.key).filter (fun q => q != avoid && !path.contains q)).map (· :: path)

/-- The breadth-first search of R216, over at most so many further displacements. -/
def searchRoom (s : State) (avoid : Nat) : Nat → List (List Nat) → Option (List Nat)
  | 0, _ => none
  | n + 1, paths =>
    let next := paths.flatMap (growPath s avoid)
    match next.find? (fun p => match p with
      | q :: _ => (emAt s q).isNone
      | [] => false) with
    | some p => some p
    | none => searchRoom s avoid n next

/-- The first invalid candidate position of a key, other than one to avoid. -/
def freePosition (s : State) (avoid profile : Nat) (key : BitVec 320) : Option Nat :=
  (positions profile key).find? (fun q => q != avoid && (emAt s q).isNone)

/-- Room for a key: the position freed last leads the path (R216). -/
def findRoom (s : State) (avoid profile : Nat) (key : BitVec 320) : Option (List Nat) :=
  match freePosition s avoid profile key with
  | some q => some [q]
  | none =>
    searchRoom s avoid 4 (((positions profile key).filter (· != avoid)).map (fun q => [q]))

/-- The displacements of a path, the last one first; each is a move (R217). -/
def displace : List Nat → State → State
  | q :: x :: rest, s => displace (x :: rest) (setEm x none (setEm q (emAt s x) s))
  | _, s => s

/-- The position that a path leaves for the new entry. -/
def pathEnd (p : List Nat) : Nat := (p.getLast?).getD 0

/-- A chain's length counted (R232). -/
def countChain (p : List Nat) (s : State) : State :=
  if p.length < 2 then s else bump (ck 232 (15 + p.length) 0) 1 s

/-- No room under R216 or R217 (R232). -/
def countNoRoom (s : State) : State := bump (ck 232 21 0) 1 s

/-- No position to avoid. -/
def nowhere : Nat := 524288

/-- A new entry placed, none where there is no room (R215, R216). -/
def placeEntry (e : EmEntry) (s : State) : Option State :=
  match findRoom s nowhere e.profile e.key with
  | none => none
  | some p => some (setEm (pathEnd p) (some e) (countChain p (displace p s)))

/-- The entry at a position replaced in another candidate position, its final counts carried or not,
none where there is no room (R217). -/
def replaceEntry (pos : Nat) (old e : EmEntry) (carry : Bool) (s : State) : Option State :=
  match findRoom s pos e.profile e.key with
  | none => none
  | some p =>
    let f := if carry then e.carry old else e
    some (setEm pos none (setEm (pathEnd p) (some f) (countChain p (displace p s))))

/-! ### Port and VLAN tables (R229, R230) -/

/-- A port-table entry after cold reset (R229). -/
def portReset : Word64 :=
  BitVec.ofNat 64 (2 ^ 52 + 2 ^ 48 + 2 ^ 36 + 0xF * 2 ^ 28 + 2 * 2 ^ 26 + 2 ^ 14)

/-- A port-table entry; a lost one takes its reset values (R507). -/
def portEntry (s : State) (i : Nat) : Nat :=
  if itemLost s 5 (item 3 i) then portReset.toNat else (tget portReset s.tab.ports i).toNat

def ptNode (d : Nat) : Nat := fld d 56 8
def ptDepth (d : Nat) : Nat := fld d 54 2
def ptMalformed (d : Nat) : Nat := fld d 52 2
def ptPuntRing (d : Nat) : Nat := fld d 50 2
def ptState (d : Nat) : Nat := fld d 48 2
def ptPvid (d : Nat) : Nat := fld d 36 12
def ptClass (d : Nat) : Nat := fld d 33 3
def ptNoMatchDrop (d : Nat) : Bool := bit d 32
def ptProfile (d : Nat) : Nat := fld d 28 4
def ptMiss (d : Nat) : Nat := fld d 26 2
def ptQueue (d : Nat) : Nat := fld d 16 10
def ptLearn (d : Nat) : Bool := bit d 15
def ptFilter (d : Nat) : Bool := bit d 14
def ptHairpin (d : Nat) : Bool := bit d 13

/-- A VLAN-table entry; a lost one is invalid (R507). -/
def vlanEntry (s : State) (v : Nat) : Nat :=
  if itemLost s 5 (item 4 v) then 0 else (tget 0 s.tab.vlans v).toNat

def vlValid (d : Nat) : Bool := bit d 63
def vlFibre (d : Nat) : Bool := bit d 62
def vlHost (d : Nat) : Bool := bit d 61
def vlUpFlood (d : Nat) : Bool := bit d 60
def vlUpQueue (d : Nat) : Nat := fld d 51 9
def vlUntag (d p : Nat) : Bool := bit d (35 + p)
def vlMember (d p : Nat) : Bool := bit d (19 + p)

/-! ### Learning (R222 to R224) -/

/-- The client port whose egress queue an action forwards to. -/
def forwardPort (a : Nat) : Option Nat :=
  if emKind a = 0 ∧ fld a 51 10 < 128 then some (fld a 51 10 / 8) else none

/-- Learned entries that a client port holds. -/
def learnedCount (s : State) (port : Nat) : Nat :=
  s.tab.em.countP (fun e => match e.2 with
    | some x => x.learned && forwardPort x.action.toNat == some port
    | none => false)

/-- The learn engine's token bucket at this moment: tokens and the instant up to which it is full
grown (R223). -/
def learnTokens (s : State) : Nat × Nat :=
  let n := (s.now - s.tab.tokensAt) / 1000000
  (min 1024 (s.tab.tokens + n), s.tab.tokensAt + n * 1000000)

def learnLimit (s : State) (port : Nat) : Nat := tget 524288 s.tab.limits port

/-- A candidate arrives at the learn engine (R223). -/
def admitCandidate (c : Candidate) (s : State) : State :=
  if s.tab.pending.any (fun d => d.key == c.key && d.profile == c.profile) then
    bump (ck 232 8 c.port) 1 s
  else if s.tab.pending.length ≥ 512 then bump (ck 232 9 c.port) 1 s
  else
    let t := learnTokens s
    let s1 := { s with tab := { s.tab with tokens := t.1, tokensAt := t.2 } }
    if t.1 = 0 then bump (ck 232 10 c.port) 1 s1
    else
      let s2 := { s1 with tab := { s1.tab with tokens := t.1 - 1 } }
      if !c.move && decide (learnedCount s c.port ≥ learnLimit s c.port) then
        bump (ck 232 11 c.port) 1 s2
      else
        bump (ck 232 7 c.port) 1
          { s2 with tab := { s2.tab with pending := s2.tab.pending ++ [c] } }

/-- The entry that learning builds (R224). -/
def learnedEntry (c : Candidate) : EmEntry :=
  { age := 3, static := false, learned := true, profile := c.profile, pkts := 0, bytes := 0
    action := BitVec.ofNat 64 (8 * c.port * 2 ^ 51 + 2 ^ 11), key := c.key }

/-- What the repeated source lookup makes of a candidate: its key's entry (R224). -/
def candidateEntry (s : State) (c : Candidate) : Option (Nat × EmEntry) := emFind s c.profile c.key

/-- The entry already forwards to a queue of the candidate's port (R222, R224). One whose action forwards to no client
egress queue is taken as another port's, of which R222's table has no row (DESIGN CHOICE, log entry 52). -/
def wantedTarget (c : Candidate) (e : EmEntry) : Bool := forwardPort e.action.toNat == some c.port

/-- The learned entry written, by displacement where that is allowed; none where there is no room. -/
def writeLearned (c : Candidate) (shift : Bool) (s : State) : Option State :=
  let e := learnedEntry c
  match candidateEntry s c with
  | none =>
    let room := if shift then findRoom s nowhere c.profile c.key
      else (freePosition s nowhere c.profile c.key).map (fun q => [q])
    room.map (fun p => beginStream (emStream c.profile c.key)
      (bump (ck 232 14 c.port) 1 (setEm (pathEnd p) (some e) (countChain p (displace p s)))))
  | some (pos, old) =>
    let room := if shift then findRoom s pos c.profile c.key
      else (freePosition s pos c.profile c.key).map (fun q => [q])
    room.map (fun p => bump (ck 232 15 c.port) 1
      (setEm pos none (setEm (pathEnd p) (some (e.carry old)) (countChain p (displace p s)))))

end Sys2Proof.Machine
end

