-- ==== Sys2Proof/Machine/Audit.lean ====
section
/-! DEFINITION. The conservation audit (R518, R519, R533 to R539) and the counter dumps that its points
start (R520, R523 to R526). -/

namespace Sys2Proof.Machine

open Sys2Proof

/-! ### Copies in flight (R535) -/

/-- A counting port and a stored length. -/
abbrev Flying := Nat × Nat

def flyPkt (p : Pkt) : Flying := (p.cport, p.booked)

/-- What a cipher request carries of the books: upstream and egress frames are counted where they wait. -/
def flyRequest (r : CipherReq) : List Flying :=
  match r.ref with
  | .fibreDown x => [(16, clearLength x)]
  | .macsecIn _ p _ _ _ => [flyPkt p]
  | _ => []

def cipherFlight (s : State) : List Flying :=
  let reqs := s.cip.waiting.flatMap (·.2) ++ s.cip.pipes.flatMap (fun e =>
      e.2.queue ++ (e.2.running.map (·.req)).toList ++ (e.2.suspended.map (·.req)).toList)
    ++ s.cip.results.flatMap (fun e => e.2.map (·.req))
  reqs.flatMap flyRequest

/-- Frames in staging, and frames sent whole in sections whose burst has not ended. -/
def upFlight (s : State) : List Flying :=
  s.up.allocs.flatMap (fun a => a.staging.map (fun f => flyPkt f.pkt))
    ++ s.up.tx.flatMap (fun e => e.2.bursts.flatMap (fun b =>
      b.sections.flatMap (fun x => x.frames.map flyPkt)))

def queueFlight (s : State) : List Flying :=
  s.tm.queues.flatMap (fun e => e.2.pkts.map (fun c => flyPkt c.pkt))
    ++ s.tm.leaving.flatMap (fun e => (e.2.map (fun l => flyPkt l.copy.pkt)).toList)

/-- Every copy that the device holds outside its bridges: a packet before a slice, or decided and not yet taken by the
traffic manager, is on one. -/
def flight (s : State) : List Flying := cipherFlight s ++ upFlight s ++ queueFlight s

/-- Copies of a counting port on a list, in packets or in stored bytes. -/
def flightOf (l : List Flying) (cport : Nat) (bytes : Bool) : Nat :=
  total ((l.filter (fun e => e.1 == cport)).map (fun e => if bytes then e.2 else 1))

/-- The books of R535: each counting port, in packets and in stored bytes. -/
def allBooks : List (Nat × Bool) := (List.range 18).flatMap (fun p => [(p, false), (p, true)])

/-- What the islands latch at a point: the counts of the bridges, and FLIGHT of each book, copies on bridges included
(R518, R519, R535). -/
def latchFlight (s : State) : State :=
  let l := flight s
  { s with obs := { s.obs with
    bridges := s.brg
    flight := allBooks.foldl (fun t e =>
      tset 0 t (2 * e.1 + b2n e.2) (flightOf l e.1 e.2 + packetsInFlight s.brg e.1 e.2)) [] } }

/-- The bridges that carry spilled cells, both ways. -/
def spillLinks : List Nat := [linkNo 15 0, linkNo 15 1]

/-! ### Balances (R533 to R537) -/

/-- A term of a book: DROP in packets is the sum of the port's drop-reason counters (R201); RESET_LOSS is signed. -/
def bookTerm (s : State) (t : Term) (cport : Nat) (bytes : Bool) : Int :=
  match t, bytes with
  | .dropped, false => (total (dropReasons.map (fun r => s.count (ck 201 r cport))) : Nat)
  | .resetLoss, _ => sint 64 (s.count (ck 535 (t.row + b2n bytes) cport))
  | _, _ => (s.count (ck 535 (t.row + b2n bytes) cport) : Nat)

/-- FLIGHT of a book as latched. -/
def latchedFlight (s : State) (cport : Nat) (bytes : Bool) : Nat := tget 0 s.obs.flight (2 * cport + b2n bytes)

/-- IN + REPL − OUT − DROP − DIVERT − FLIGHT − RESET_LOSS, less the offset of a rebased book. -/
def residue (s : State) (cport : Nat) (bytes : Bool) : Int :=
  let t := fun x => bookTerm s x cport bytes
  t .input + t .repl - t .output - t .dropped - t .divert - (latchedFlight s cport bytes : Nat) - t .resetLoss
    - tget 0 s.obs.offsets (2 * cport + b2n bytes)

/-- Cells that frames on die hold (R534). -/
def heldCells (s : State) : Nat := total (s.tm.refs.map (fun e => e.2.cells))

/-- Cells that spilled copies hold. -/
def spilledCells (s : State) : Nat :=
  total (s.tm.queues.map (fun e => cellsIn (e.2.pkts.filter (·.spilled))))

def reservedCells (s : State) : Nat :=
  total ((List.range 4).map (fun c => (rxOf s c).reserved))

/-- Granted bytes of an allocation on a channel whose burst has not ended (R536). -/
def pendingGrants (s : State) (id ch : Nat) : Nat :=
  total ((txOf s ch).bursts.flatMap (fun b => (b.grants.filter (fun g =>
    g.alloc == id && g.window.isNone)).map (fun g => 4 * g.size)))

/-- Quantity 38 for one allocation and channel: the first of its two balances that fails (R533, R536). -/
def grantAmount (s : State) (id ch : Nat) : Int :=
  let u := allocUnit id ch
  let n := fun r => ((s.count (ck 130 r u) : Nat) : Int)
  let a := n 33 - n 22 - n 34 - (pendingGrants s id ch : Nat)
  if a ≠ 0 then a else n 22 - n 23 - n 24

/-- The excess of a value beyond two bounds (R538). -/
def excess (lo hi v : Int) : Int := if v > hi then v - hi else if v < lo then v - lo else 0

/-- Units of 2^-32 byte in bytes, away from zero, so that no excess reads as none. -/
def wholeBytes (v : Int) : Int := if v < 0 then -((-v + (2 ^ 32 - 1)) / 2 ^ 32) else (v + (2 ^ 32 - 1)) / 2 ^ 32

/-- The excess of a shaper's credit, in bytes, under the descriptor last written (R258); a write that lowers BURST and
waits for its edge is a window (R533). -/
def shaperAmount (x : Shaper) : Int :=
  let d := (x.pending.getD x.desc).toNat
  if !shapeOn d || decide (shapeBurst d < shapeBurst x.desc.toNat) then 0
  else wholeBytes (excess (-(16384 * 2 ^ 32)) (shapeBurst d * 2 ^ 32) x.credit)

/-- The excess of a policer's buckets, in their units of 2^-32 byte (R533). -/
def policerAmount (x : Policer) : Int :=
  let d := x.desc.toNat
  let a := excess 0 (polCbs d * 2 ^ 32) x.tc
  if a ≠ 0 then a else excess 0 (polPbs d * 2 ^ 32) x.tp

/-- The first unit of a list whose amount is not 0. -/
def firstFailing (l : List (Nat × Int)) : Nat × Int := (l.find? (fun e => e.2 != 0)).getD (0, 0)

/-- Failing unit and amount of quantity 38: 64 × channel + allocation index. -/
def grantUnits (s : State) : Nat × Int :=
  firstFailing ((List.range 4).flatMap (fun ch =>
    s.up.allocs.zipIdx.map (fun e => (64 * ch + e.2, grantAmount s e.1.id ch))))

def shaperUnits (s : State) : Nat × Int :=
  firstFailing (s.tm.shapers.map (fun e =>
    (if e.1 < 1024 then e.1 else 0x8000 + (e.1 - 1024), shaperAmount e.2)))

def policerUnits (s : State) : Nat × Int := firstFailing (s.tm.policers.map (fun e => (e.1, policerAmount e.2)))

/-- Mailboxes PENDING less the commands that wait or run (R533). -/
def mailboxAmount (s : State) : Int :=
  (((List.range 16).filter (isPending s)).length : Nat)
    - ((s.hif.bells.length + s.hif.running.length : Nat) : Int)

/-- Events raised less those written, waiting and lost (R533). -/
def eventAmount (s : State) : Int :=
  sint 32 (subMod 32 s.hif.evtSeq.toNat (s.hif.evtWritten + s.hif.backlog.length + s.hif.evtLost))

/-- Descriptors of an engine: free, queued and in service, less 4,096 (R280). -/
def descriptorAmount (s : State) (e : Nat) : Int :=
  let queued := (pipeOf s (2 * e)).queue.length + (pipeOf s (2 * e + 1)).queue.length
  let inPipe := fun p => ((pipeOf s p).running.toList ++ (pipeOf s p).suspended.toList).length
  let ended := (s.cip.results.flatMap (·.2)).countP (fun r => r.taken && r.pipe / 2 == e)
  ((freeDescriptors s e + queued + inPipe (2 * e) + inPipe (2 * e + 1) + ended : Nat) : Int) - 4096

/-- Failing unit and amount of a quantity. -/
def quantity (s : State) (q : Nat) : Nat × Int :=
  if q = 0 then
    (0, ((s.tm.free + reservedCells s + heldCells s + s.tm.quarantine
      + cellsInFlight s.obs.bridges ((List.range links.length).filter (!spillLinks.contains ·)) : Nat) : Int) - 262144)
  else if q = 1 then
    (0, ((s.tm.spillFree + spilledCells s + cellsInFlight s.obs.bridges spillLinks : Nat) : Int) - 31457280)
  else if q < 20 then (0, residue s (q - 2) false)
  else if q < 38 then (0, residue s (q - 20) true)
  else if q = 38 then grantUnits s
  else if q = 39 then shaperUnits s
  else if q = 40 then policerUnits s
  else if q < 49 then (0, descriptorAmount s (q - 41))
  else if q = 49 then (0, mailboxAmount s)
  else (0, eventAmount s)

/-- The counting port of a packet book's quantity. -/
def bookPort (q : Nat) : Nat := if q < 20 then q - 2 else q - 20

/-- A point at which a quantity may be out of balance (R533). -/
def inWindow (s : State) (q : Nat) : Bool :=
  if q = 0 then s.pow.state == .d0 && decide (s.pow.changed > 0) && decide (s.now ≤ s.pow.changed + us 20)
  else if 2 ≤ q ∧ q < 38 then s.obs.resetLossDue || s.obs.rebase.contains (bookPort q)
  else if 41 ≤ q ∧ q < 49 then s.dev.erasing
  else if q = 49 then !s.dev.ready
  else false

/-- The state of a quantity at a point, with its unit and amount. -/
def judgeQuantity (s : State) (q : Nat) : Nat × Nat × Int :=
  if q = 1 ∧ s.dev.inForce ≠ .depth then (3, 0, 0)
  else if inWindow s q then (1, 0, 0)
  else
    let x := quantity s q
    if x.2 = 0 then (0, 0, 0) else (2, x.1, x.2)

/-- The record of a quantity after a point, with the event at its first imbalance (R538, R539); a WINDOW or a
SUSPENDED point is not evaluated (R533, R545). -/
def recordQuantity (q : Nat) (x : Nat × Nat × Int) (s : State) : State :=
  let old := auditOf s q
  let new : AuditRec :=
    if x.1 = 2 then
      { state := 2, unit := x.2.1, time := BitVec.ofNat 64 (nowNs s), amount := x.2.2, raised := true }
    else { old with state := x.1, raised := old.raised && x.1 != 0 }
  let s1 := { s with obs := { s.obs with audit := tset {} s.obs.audit q new } }
  if x.1 = 1 then bump (ck 545 1 q) 1 s1
  else if x.1 = 3 then s1
  else
    let s2 := bump (ck 545 0 q) 1 s1
    if x.1 = 2 && !old.raised then raise 0x0B01 false q (leBytes 8 (uint 64 x.2.2)) (bump (ck 545 2 q) 1 s2)
    else s2

/-- What Knarrasar sets at a point: RESET_LOSS at the first one after READY, and the offsets of books
that lost a term (R537). -/
def settleBooks (s : State) : State :=
  let left := fun (s : State) (e : Nat × Bool) => residue s e.1 e.2
  let s1 := if s.obs.resetLossDue && s.dev.ready then
      allBooks.foldl (fun s e =>
          setCount (ck 535 (10 + b2n e.2) e.1) (uint 64 (bookTerm s .resetLoss e.1 e.2 + left s e)) s)
        { s with obs := { s.obs with resetLossDue := false } }
    else s
  let due := allBooks.filter (fun e => s1.obs.rebase.contains e.1)
  let s2 := due.foldl (fun s e =>
    let k := 2 * e.1 + b2n e.2
    { s with obs := { s.obs with offsets := tset 0 s.obs.offsets k (tget 0 s.obs.offsets k + left s e) } }) s1
  { s2 with obs := { s2.obs with rebase := [] } }

/-! ### Dumps (R520, R523 to R526) -/

/-- Counters of rows of a rule for units, row by row, units ascending (R526). -/
def rowsOf (s : State) (rule : Nat) (rows units : List Nat) : Bytes :=
  rows.flatMap (fun r => units.flatMap (fun u => leBytes 8 (s.count (ck rule r u))))

/-- A section: its header and contents. -/
def dumpSection (id : Nat) (b : Bytes) : Bytes := leBytes 2 id ++ [0, 0] ++ leBytes 4 (b.length + 8) ++ b

/-- Entries of the exact-match table in a way, as a level (R232). -/
def validInWay (s : State) (w : Nat) : Nat :=
  s.tab.em.countP (fun e => e.2.isSome && e.1 / 131072 == w)

/-- R232 in row order: per slice, the table, the levels, per port, and the chains. -/
def tableSection (s : State) : Bytes :=
  rowsOf s 232 [0, 1, 2, 3, 4, 5] [0, 1] ++ rowsOf s 232 [6] [0]
    ++ (List.range 4).flatMap (fun w => leBytes 8 (validInWay s w))
    ++ (List.range 16).flatMap (fun p => leBytes 8 (learnedCount s p))
    ++ rowsOf s 232 ((List.range 10).map (7 + ·)) (List.range 16) ++ rowsOf s 232 [17, 18, 19, 20, 21] [0]

/-- The counters that an allocation keeps (R130). -/
def allocSection (s : State) (a : Alloc) : Bytes :=
  rowsOf s 130 [22, 23, 24, 25] ((List.range 4).map (allocUnit a.id)) ++ rowsOf s 130 [26, 27, 30, 31] [a.id]

/-- R305: pipelines, results, and the counters of the complex and of Propolis. -/
def cipherSection (s : State) : Bytes :=
  rowsOf s 305 (List.range 16) (List.range 16)
    ++ rowsOf s 305 ((List.range 6).map (16 + ·)) ((List.range 256).filter (fun u => decide (u % 16 < 11)))
    ++ rowsOf s 305 [28, 29] (List.range 16) ++ rowsOf s 305 [30, 31, 32, 33] [0]
    ++ rowsOf s 305 [34] (List.range 16) ++ rowsOf s 305 [35, 36] [0] ++ rowsOf s 305 [37] (List.range 5)
    ++ rowsOf s 305 [38] [0]

/-- R344. -/
def timeSection (s : State) : Bytes :=
  rowsOf s 344 [0, 1, 2] [0, 1] ++ rowsOf s 344 [3] (List.range 14) ++ rowsOf s 344 [7, 8, 9, 10, 14] [2]
    ++ rowsOf s 344 [15] (List.range 4) ++ rowsOf s 344 [16, 17] [0] ++ rowsOf s 344 [18, 19, 20, 21] [0]
    ++ rowsOf s 344 [22, 23] [0] ++ rowsOf s 344 [11, 12, 13] (List.range 16) ++ rowsOf s 344 [24] [0, 1]

/-- µs in a power state or at a power-cap level, with the time that runs (R495). -/
def powerTime (s : State) (row unit : Nat) (runs : Bool) (since : Nat) : Nat :=
  s.count (ck 495 row unit) + (if runs then (s.now - since) / 1000000 else 0)

/-- R440, R495 and R511: ignored doorbells by mailbox and cause, discarded writes by mailbox and kind, and those that
R613 discards after the event ring's; wakes by power state. -/
def hostSection (s : State) : Bytes :=
  rowsOf s 440 [0] (List.range 16) ++ rowsOf s 440 [1] (List.range 64) ++ rowsOf s 440 [4] (List.range 32)
    ++ rowsOf s 440 [2] (List.range 256) ++ rowsOf s 440 [3] (List.range 16)
    ++ rowsOf s 440 [7] [0, 1, 2] ++ rowsOf s 440 [6, 5, 11] [0] ++ rowsOf s 440 [8, 9, 10] (List.range 8)
    ++ rowsOf s 495 [0, 1] (List.range 4)
    ++ (List.range 4).flatMap (fun p => leBytes 8 (powerTime s 2 p (decide (p = s.pow.state.code)) s.pow.changed))
    ++ rowsOf s 495 ((List.range 8).map (3 + ·)) (List.range 4)
    ++ rowsOf s 495 [11, 12] (List.range 96) ++ rowsOf s 495 [13, 14, 15] (List.range 24)
    ++ rowsOf s 495 [16, 17] (List.range 48)
    ++ (List.range 5).flatMap (fun l => leBytes 8 (powerTime s 18 l (decide (l = s.pow.level)) s.pow.levelAt))
    ++ rowsOf s 511 (List.range 18) (List.range 15)

/-- The fabric counters of R545. -/
def fabricSection (s : State) : Bytes :=
  rowsOf s 545 [0, 1, 2] (List.range 51) ++ rowsOf s 545 [3, 4, 5, 6] [0, 1]
    ++ rowsOf s 545 [9, 10, 11] [0, 1] ++ rowsOf s 545 [7, 8] [0, 1] ++ rowsOf s 545 [12, 13, 14, 15] [0]

/-- The terms of the books in the order of R535, each in packets and then in stored bytes, FLIGHT as latched. -/
def bookWords (s : State) : Bytes :=
  let rows := fun (f : Nat → Bool → Nat) =>
    [false, true].flatMap (fun b => (List.range 18).flatMap (fun p => leBytes 8 (f p b)))
  let term := fun (t : Term) => rows (fun p b => uint 64 (bookTerm s t p b))
  [Term.input, .repl, .output, .dropped, .divert].flatMap term ++ rows (latchedFlight s) ++ term .resetLoss

/-- The histograms as TRAFFIC_READ_HISTOGRAM returns them. -/
def histSection (s : State) : Bytes :=
  (List.range 64).flatMap (fun h => (List.range 32).flatMap (fun i =>
    leBytes 8 (tget 0 (tget ({} : Hist) s.tm.hists h).bins i)))

/-- The 128 bytes of a trace record (R532). -/
def traceBytes (t : Trace) : Bytes :=
  fit 128 (leBytes 4 t.packet ++ leBytes 1 t.stamps.length ++ leBytes 1 t.copies ++ leBytes 1 t.reason ++ [0]
    ++ t.stamps.flatMap (fun x => leBytes 1 x.code ++ leBytes 1 x.island ++ leBytes 2 x.datum
      ++ leBytes 4 x.ts32.toNat))

/-- The sections, in ID order, each with its ID (R526). -/
def dumpParts (s : State) : List (Nat × Bytes) :=
  [(1, (List.range 44).flatMap (groupBytes s)),
   (2, counterBytes s ((List.range 4).flatMap channelKeys ++ groupKeys) ++ s.up.allocs.flatMap (allocSection s)),
   (3, (List.range 18).flatMap (dropBytes s)),
   (4, rowsOf s 203 (List.range 21) [0, 1] ++ tableSection s),
   (5, (List.range 1024).flatMap (fun q => counterBytes s (queueKeys q))),
   (6, (List.range 8192).flatMap (fun n => counterBytes s (trafficKeys 1 n))),
   (7, (List.range 16).flatMap (fun p =>
        (portRows p).flatMap (fun r => leBytes 8 (portCount s p r)) ++ counterBytes s (trafficKeys 2 p))
      ++ (portRows 16).flatMap (fun r => leBytes 8 (portCount s 16 r))),
   (8, (List.range 21).flatMap (fun l => (List.range 26).flatMap (fun i => leBytes 8 (laneCount s l i)))),
   (9, cipherSection s), (10, timeSection s), (11, hostSection s), (12, histSection s),
   (13, (List.range 51).flatMap (fun q => auditBytes (auditOf s q)) ++ bookWords s),
   (14, (s.obs.samples.flatMap (fun e => e.2.reverse)).flatMap (·.record)),
   (15, s.obs.traces.reverse.flatMap traceBytes),
   (16, fabricSection s)]

/-- The 64 bytes of a dump's header (R525). -/
def dumpHeader (s : State) (gen len crc : Nat) : Bytes :=
  let suspended := (auditOf s 1).state == 3
  fit 64 (leBytes 4 0x7440DD01 ++ leBytes 4 gen ++ leBytes 12 (timeWord s) ++ leBytes 4 len ++ leBytes 2 16
    ++ leBytes 1 (b2n s.obs.dumpZeroed + 2 * b2n suspended + 4 * b2n s.obs.dumpLost)
    ++ leBytes 1 (s.pow.state.code + 16 * s.dev.inForce.code) ++ leBytes 4 s.obs.dumpSkipped ++ leBytes 4 crc)

/-- A dump: header, sections and trailer (R524 to R526). -/
def dumpImage (s : State) (gen : Nat) : Bytes :=
  let body := (dumpParts s).flatMap (fun e => dumpSection e.1 e.2)
  dumpHeader s gen (64 + body.length + 8) (crc32c body).toNat ++ body ++ leBytes 4 gen
    ++ leBytes 4 0x7440DD02

/-- Every counter latched: samples and traces are taken into the dump (R520, R528, R532). -/
def latchDump (gen : Nat) (s : State) : State :=
  let s0 := forEach (List.range 128) (fun i s => countPaused (i / 8) (i % 8) s) s
  let s1 := forEach (List.range 44) latchGroup
    (forEach (List.range 16) countCoding (forEach (List.range 21) (fun l s => compensateIdle l (settleChecker l s)) s0))
  let host := s1.obs.dumpHost && dmaOk s1
  let s2 := if s1.obs.dumpHost && !dmaOk s1 then bump (ck 545 5 1) 1 s1 else s1
  let job : DumpJob := {
    gen := gen, bytes := dumpImage s2 gen, host := host, cnt := s2.cnt
    samples := s2.obs.samples.flatMap (fun e => e.2.reverse), audit := s2.obs.audit
    at_ := nowNs s2, addr := s2.obs.dumpAddr.toNat, slots := s2.obs.dumpBytes / 4194304 }
  { s2 with obs := { s2.obs with
    dumpWriting := some job, dumpSkipped := 0, dumpLost := false, dumpZeroed := false, samples := [], traces := [] } }

/-- A dump instant: a generation begins, or is skipped while the previous dump is being written
(R523, R527). -/
def dumpInstant (s : State) : State :=
  let gen := s.obs.dumpGenNext
  let s1 := { s with obs := { s.obs with dumpGenNext := (gen + 1) % 2 ^ 32 } }
  match s.obs.dumpWriting with
  | some _ =>
    bump (ck 545 4 0) 1 (bump (ck 545 4 1) (b2n s.obs.dumpHost)
      { s1 with obs := { s1.obs with dumpSkipped := s1.obs.dumpSkipped + 1 } })
  | none => latchDump gen s1

/-! ### The point (R518, R522, R533) -/

/-- Audit points fall: power domains 92 and 93 are on, and the main counter runs (R518). -/
def auditRuns (s : State) : Bool :=
  domainOn s 92 && domainOn s 93 && s.pow.state != .d3

/-- Units of Beryl time in 1 ms. -/
def msUnits : Nat := 1000000 * fracNs

/-- The next audit point, in ms of Beryl time. -/
def nextPoint (s : State) : Nat :=
  let t := (s.time.main.total + msUnits - 1) / msUnits
  if s.obs.auditAt = some t then t + 1 else t

/-- AUDIT_POINT (R518 to R523, R533, R537, R538): the clock reaches the next whole millisecond. -/
def execAuditPoint (_ : Unit) (s : State) : Answer :=
  if !auditRuns s then .next s
  else
    let t := nextPoint s
    let s1 := passMain (t * msUnits) s
    let s2 := latchFlight { s1 with obs := { s1.obs with auditAt := some t } }
    let verdicts := (List.range 51).map (fun q => (q, judgeQuantity s2 q))
    let s3 := settleBooks s2
    let s4 := verdicts.foldl (fun s e => recordQuantity e.1 e.2 s) s3
    .next (if s4.obs.dumpPeriod ≠ 0 ∧ t % s4.obs.dumpPeriod = 0 then dumpInstant s4 else s4)

end Sys2Proof.Machine
end

