-- ==== Sys2Proof/Machine/Rules.lean ====
section
/-! DEFINITION. Range comparators, the rule store, rule-set versions and their commands (R183 to R195,
R457, R458). -/

namespace Sys2Proof.Machine

open Sys2Proof

/-! ### Comparators (R183 to R186) -/

inductive Compared where
  | inside | outside | absent
  deriving DecidableEq, Repr

def cmpSelect (d : Nat) : Nat := fld d 61 3
def cmpPosition (d : Nat) : Nat := fld d 54 7
def cmpHigh (d : Nat) : Nat := fld d 16 16
def cmpLow (d : Nat) : Nat := fld d 0 16

/-- The field that a comparator selects, none when it is absent (R184). -/
def cmpField (s : State) (p : Pkt) (zone : Bytes) (flags d : Nat) : Option Nat :=
  let l4 := bit flags 1 && !bit flags 4
  match cmpSelect d with
  | 0 => if l4 then some (be zone s.cls.pos.l4Src 2) else none
  | 1 => if l4 then some (be zone s.cls.pos.l4Dst 2) else none
  | 2 => some (be zone s.cls.pos.vid 2 % 4096)
  | 3 => some (byteAt zone s.cls.pos.dscp / 4)
  | 4 => some p.frame.length
  | 5 => some p.portId.toNat
  | _ => some (be zone (cmpPosition d) 2)

/-- R185; a lost comparator yields ABSENT (R507). -/
def compareField (s : State) (p : Pkt) (zone : Bytes) (flags n : Nat) : Compared :=
  let d := (tget 0 s.cls.comparators n).toNat
  match (if itemLost s 5 (item 1 n) then none else cmpField s p zone flags d) with
  | none => .absent
  | some v => if cmpLow d ≤ v ∧ v ≤ cmpHigh d then .inside else .outside

/-! ### Rules (R187 to R190) -/

/-- Comparator reference i of a control word: index and SENSE (R188). -/
def ruleRef (c i : Nat) : Nat × Nat := (fld c (26 + 10 * i) 8, fld c (24 + 10 * i) 2)

def rulePriority (r : Rule) : Nat := fld r.control.toNat 10 14

/-- A SENSE holds (R188). -/
def senseHolds (c : Compared) (sense : Nat) : Bool :=
  match sense with
  | 0 => true
  | 1 => c == .inside
  | 2 => c == .outside
  | _ => c == .absent

/-- A rule matches a pass (R189). -/
def ruleMatches (s : State) (p : Pkt) (key : BitVec 640) (zone : Bytes) (flags : Nat) (r : Rule) :
    Bool :=
  r.versions.getLsbD p.tag && key &&& r.mask == r.value
    && (List.range 4).all (fun i =>
      let e := ruleRef r.control.toNat i
      senseHolds (compareField s p zone flags e.1) e.2)

/-- The region that holds a rule entry (R496). -/
def ruleRegion (i : Nat) : Nat := if i < 8192 then 6 else 7

/-- The matching rule with the lowest PRIORITY, and its entry; a lost entry matches nothing
(R189, R507). -/
def findRule (s : State) (p : Pkt) (key : BitVec 640) (zone : Bytes) (flags : Nat) :
    Option (Nat × Rule) :=
  (s.cls.rules.filterMap (fun e => e.2.map (fun r => (e.1, r)))).foldl (fun best e =>
    if ruleMatches s p key zone flags e.2 && !itemLost s (ruleRegion e.1) (item 0 e.1) then
      match best with
      | none => some e
      | some b => if rulePriority e.2 < rulePriority b.2 then some e else best
    else best) none

def setRule (i : Nat) (r : Option Rule) (s : State) : State :=
  rewriteItem (ruleRegion i) (item 0 i) { s with cls := { s.cls with rules := tset none s.cls.rules i r } }

/-- The winning rule's counters add a packet (R189). -/
def countRule (i : Nat) (r : Rule) (len : Nat) (s : State) : State :=
  setRule i (some { r with
    pkts := BitVec.ofNat 40 (r.pkts.toNat + 1), bytes := BitVec.ofNat 48 (r.bytes.toNat + len) }) s

def ruleKind (a : Nat) : Nat := fld a 61 3
def actTarget (a : Nat) : Nat := fld a 51 10
def actReason (a : Nat) : Nat := fld a 43 8
def actPolicer (a : Nat) : Nat := fld a 30 13
def actPolice (a : Nat) : Bool := bit a 29
def actClass (a : Nat) : Nat := fld a 26 3
def actSetClass (a : Nat) : Bool := bit a 25
def ruleDecap (a : Nat) : Nat := fld a 16 9
def ruleNode (a : Nat) : Nat := fld a 8 8
def ruleMirror (a : Nat) : Bool := bit a 7

/-! ### Version tags (R191 to R195) -/

def tagState (s : State) (k : Nat) : TagState := tget .free s.cls.tags k

def setTag (k : Nat) (t : TagState) (s : State) : State :=
  { s with cls := { s.cls with tags := tset .free s.cls.tags k t } }

/-- The tag in a state, none where no tag is. -/
def tagIn (s : State) (t : TagState) : Option Nat :=
  (List.range 8).find? (fun k => tagState s k == t)

/-- Every entry's version mask changed; an entry whose mask is empty is free, its counters zeroed. -/
def mapVersions (f : Rule → Byte) (s : State) : State :=
  { s with cls := { s.cls with rules := s.cls.rules.filterMap (fun e =>
      match e.2 with
      | none => none
      | some r => if f r = 0 then none else some (e.1, some { r with versions := f r })) } }

/-- A version mask with tag k's bit set to b. -/
def withTag (k : Nat) (b : Bool) (r : Rule) : Byte := BitVec.ofNat 8 (setBit r.versions.toNat k b)

/-- The rule of a version that has a PRIORITY, with its entry. -/
def ruleOf (s : State) (k prio : Nat) : Option (Nat × Rule) :=
  s.cls.rules.findSome? (fun e => match e.2 with
    | some r => if r.versions.getLsbD k && rulePriority r == prio then some (e.1, r) else none
    | none => none)

/-- The next FREE tag after the current one, modulo 8 (R191). -/
def nextTag (s : State) : Nat :=
  let c := currentTag s
  (((List.range 8).map (fun i => (c + 1 + i) % 8)).find? (fun k => tagState s k == .free)).getD 0

/-- The lowest `left` numbers from i on that a rising list leaves free. -/
def freeFrom : Nat → Nat → List Nat → Nat → List Nat
  | 0, _, _, _ => []
  | fuel + 1, i, u, left =>
    if left = 0 ∨ i ≥ 16384 then []
    else
      match u with
      | [] => i :: freeFrom fuel (i + 1) [] (left - 1)
      | x :: rest =>
        if x = i then freeFrom fuel (i + 1) rest left else i :: freeFrom fuel (i + 1) u (left - 1)

/-- The lowest free entries of the store, n of them: which free entries rules enter, R191 leaves open (DESIGN CHOICE,
log entry 52). -/
def freeRules (s : State) (n : Nat) : List Nat :=
  let used := (s.cls.rules.filter (fun e => e.2.isSome)).map (·.1)
  freeFrom (used.length + n) 0 used n

/-! ### Commands (R457) -/

/-- A comparator that a rule in use references (R186). -/
def comparatorUsed (s : State) (n : Nat) : Bool :=
  s.cls.rules.any (fun e => match e.2 with
    | some r => (List.range 4).any (fun i =>
        (ruleRef r.control.toNat i).1 == n && (ruleRef r.control.toNat i).2 != 0)
    | none => false)

def cmdRulesSetComparator : CmdSpec where
  opcode := 0x0303
  lenOk := fixedLen 16
  args := fun a =>
    let d := le a 8 8
    [anyArg 0 1, anyArg 8 8, zeroArg d 8 32 22, bitArg d 8 61 3 stRange (fun v => decide (v ≤ 6)),
      ruleArg 8 54 (cmpSelect d != 6 || decide (cmpPosition d ≤ 70)),
      ruleArg 8 0 (decide (cmpLow d ≤ cmpHigh d))]
  legal := clsL
  run := fun _ a s =>
    let n := byteAt a 0
    if comparatorUsed s n then refuseFree stBusy s
    else done (rewriteItem 5 (item 1 n) { s with cls := { s.cls with
      comparators := tset 0 s.cls.comparators n (BitVec.ofNat 64 (le a 8 8)) } })

/-- RULES_SET_COMPARATOR (R183, R186). -/
def execRulesSetComparator (n : Fin 16) (s : State) : Answer :=
  .next (takeUp cmdRulesSetComparator n s)

def cmdRulesBegin : CmdSpec where
  opcode := 0x0304
  lenOk := fixedLen 0
  args := fun _ => []
  legal := clsL
  run := fun _ _ s =>
    if (tagIn s .staged).isSome then refuseFree stBusy s
    else
      let k := nextTag s
      let c := currentTag s
      doneWith (leBytes 1 k) (mapVersions (fun r =>
        if r.versions.getLsbD c then withTag k true r else r.versions) (setTag k .staged s))

/-- RULES_BEGIN (R191). -/
def execRulesBegin (n : Fin 16) (s : State) : Answer := .next (takeUp cmdRulesBegin n s)

/-- A value byte is 0 wherever its mask is 0 (R187). -/
def valueArg (a : Bytes) (o i : Nat) : Arg :=
  { off := o + i, len := 1, bad := fun v =>
      if Nat.land v (255 - byteAt a (o + 80 + i)) = 0 then 0 else stFormat }

/-- The field checks of one rule descriptor at argument offset o (R187, R188, R190). -/
def ruleDescArgs (a : Bytes) (o : Nat) : List Arg :=
  let w := le a (o + 168) 8
  let k := ruleKind w
  let t := actTarget w
  let r := actReason w
  (List.range 80).map (valueArg a o) ++ [anyArg (o + 80) 96, zeroArg (le a (o + 160) 8) (o + 160) 0 10,
    bitArg w (o + 168) 61 3 stFormat (fun v => decide (v ≤ 4)), zeroArg w (o + 168) 0 7,
    ruleArg (o + 168) 51 (match k with
      | 1 => true
      | 3 => decide (t ≤ 3)
      | 4 => decide (t ≤ 7)
      | _ => t == 0),
    ruleArg (o + 168) 43 (match k with
      | 2 => r == 0x30 || (decide (0xC0 ≤ r) && decide (r ≤ 0xDF))
      | 3 => true
      | _ => r == 0)]

/-- The rule that a descriptor states, for a version. -/
def ruleFrom (a : Bytes) (o k : Nat) : Rule :=
  { value := BitVec.ofNat 640 (be a o 80), mask := BitVec.ofNat 640 (be a (o + 80) 80)
    control := BitVec.ofNat 64 (le a (o + 160) 8), action := BitVec.ofNat 64 (le a (o + 168) 8)
    versions := BitVec.ofNat 8 (2 ^ k), pkts := 0, bytes := 0 }

/-- The first descriptor whose PRIORITY is used already in the staged version (R191). -/
def usedPriority (s : State) (k : Nat) : List Nat → List Rule → Nat → Option Nat
  | _, [], _ => none
  | seen, r :: l, i =>
    if (ruleOf s k (rulePriority r)).isSome || seen.contains (rulePriority r) then some i
    else usedPriority s k (rulePriority r :: seen) l (i + 1)

def cmdRulesAdd : CmdSpec where
  opcode := 0x0305
  lenOk := countedLen 8 176 (fun a => byteAt a 0)
  args := fun a => boundArg 0 1 1 11
    :: (List.range (byteAt a 0)).flatMap (fun i => ruleDescArgs a (8 + 176 * i))
  legal := clsL
  run := fun _ a s =>
    match tagIn s .staged with
    | none => refuse stNotFound s
    | some k =>
      let l := (List.range (byteAt a 0)).map (fun i => ruleFrom a (8 + 176 * i) k)
      match usedPriority s k [] l 0 with
      | some i => refuseWord stRange (0x040 + 8 + 176 * i + 160) s
      | none =>
        let free := freeRules s l.length
        if free.length < l.length then refuseFree stResource s
        else done ((free.zip l).foldl (fun s e => setRule e.1 (some e.2) (beginStream (ruleStream e.1) s)) s)

/-- RULES_ADD (R187, R188, R190, R191). -/
def execRulesAdd (n : Fin 16) (s : State) : Answer := .next (takeUp cmdRulesAdd n s)

def cmdRulesRemove : CmdSpec where
  opcode := 0x0306
  lenOk := fixedLen 2
  args := fun _ => [boundArg 0 2 0 16383]
  legal := clsL
  run := fun _ a s =>
    match (tagIn s .staged).bind (fun k => (ruleOf s k (le a 0 2)).map (fun e => (k, e.1))) with
    | none => refuse stNotFound s
    | some (k, i) =>
      done (mapVersions (fun r => r.versions) (setRule i
        ((tget none s.cls.rules i).map (fun r => { r with versions := withTag k false r })) s))

/-- RULES_REMOVE (R191). -/
def execRulesRemove (n : Fin 16) (s : State) : Answer := .next (takeUp cmdRulesRemove n s)

def cmdRulesAbort : CmdSpec where
  opcode := 0x0307
  lenOk := fixedLen 0
  args := fun _ => []
  legal := clsL
  run := fun _ _ s =>
    match tagIn s .staged with
    | none => refuse stNotFound s
    | some k => done (mapVersions (withTag k false) (setTag k .free s))

/-- RULES_ABORT (R191). -/
def execRulesAbort (n : Fin 16) (s : State) : Answer := .next (takeUp cmdRulesAbort n s)

def cmdRulesCommit : CmdSpec where
  opcode := 0x0308
  lenOk := fixedLen 0
  args := fun _ => []
  legal := clsL
  run := fun _ _ s =>
    match tagIn s .staged with
    | none => refuse stNotFound s
    | some k =>
      if (tagIn s .draining).isSome then refuseFree stBusy s
      else
        let c := currentTag s
        doneWith (leBytes 1 k ++ leBytes 1 c) (setTag c .draining (setTag k .current s))

/-- RULES_COMMIT (R191, R192): both slices have switched when the response is final. -/
def execRulesCommit (n : Fin 16) (s : State) : Answer := .next (takeUp cmdRulesCommit n s)

def TagState.code : TagState → Nat
  | .free => 0 | .staged => 1 | .current => 2 | .draining => 3

def cmdRulesRead : CmdSpec where
  opcode := 0x0309
  lenOk := fixedLen 3
  args := fun _ => [boundArg 0 2 0 16383, boundArg 2 1 0 7]
  legal := clsQ
  run := fun _ a s =>
    match ruleOf s (byteAt a 2) (le a 0 2) with
    | none => refuse stNotFound s
    | some (_, r) =>
      doneWith (leBytes 8 r.control.toNat ++ leBytes 8 r.action.toNat ++ leBytes 8 r.pkts.toNat
        ++ leBytes 8 r.bytes.toNat
        ++ (List.range 8).map (fun k => BitVec.ofNat 8 (tagState s k).code)) s

/-- RULES_READ (R457, R458). -/
def execRulesRead (n : Fin 16) (s : State) : Answer := .next (takeUp cmdRulesRead n s)

/-! ### Retirement (R194) -/

/-- A rule entry's record: slice, tag, PRIORITY, deltas and end. The store is one for both slices, so the
slice is a free value (log entry 5). -/
def ruleFields (i slice : Nat) (r : Rule) (s : State) : List Nat :=
  let x := streamOf s (ruleStream i)
  let tag := ((setBits 8 r.versions.toNat).head?).getD 0
  [slice, tag, rulePriority r, x.pkts - x.sentPkts, x.bytes - x.sentBytes, nowNs s]

def exportRule (i reason : Nat) (r : Rule) (s : State) : State :=
  let (v, s1) := takeFree s
  markSent (ruleStream i) reason (sendExport 257 (ruleFields i (v % 2) r s) true s1)

/-- The last records of the entries that leave with a tag; their streams end (R542). -/
def endRules (k : Nat) (s : State) : State :=
  s.cls.rules.foldl (fun s e => match e.2 with
    | some r =>
      if withTag k false r = 0 then
        let s1 := accumulate (ruleStream e.1) r.pkts.toNat r.bytes.toNat s
        let (v, s2) := takeFree s1
        setStream (ruleStream e.1) {} (if wanted s 257 then orHold 257 (ruleFields e.1 (v % 2) r s1) s2 else s1)
      else s
    | none => s) s

/-- RULES_RETIRE (R194): RULES_RETIRED carries the entries that become free. -/
def execRulesRetire (s : State) : Answer :=
  match tagIn s .draining with
  | none => .next s
  | some k =>
    if tget 0 s.cls.refs k = 0 ∧ tget 0 s.cls.refs (8 + k) = 0 then
      let freed := s.cls.rules.countP (fun e => match e.2 with
        | some r => withTag k false r == 0
        | none => false)
      .next (raise 0x0301 false k (leBytes 4 freed)
        (mapVersions (withTag k false) (setTag k .free (endRules k s))))
    else .next s

end Sys2Proof.Machine
end

