-- ==== Sys2Proof/Machine/Export.lean ====
section
/-! DEFINITION. The end of a dump (R527), and flow export: OBS_SET_IPFIX, templates, address resolution,
records of entries and records drawn from dumps (R540 to R544). -/

namespace Sys2Proof.Machine

open Sys2Proof

/-! ### Set-up, templates and resolution (R540, R541, R544) -/

/-- Resolution of the collector begins anew (R540); the request waits until the management lane carries it (R543). -/
def startResolve (s : State) : State :=
  let c := s.obs.ipfix.collector.toNat
  let begin_ := fun (on : Bool) (t : State) => modIpfix (fun x => { x with
    asked := on, resolved := false, failed := false, resolveAt := s.now }) t
  if exportRuns s then
    let n := if mapped c then 64 else 90
    onWire 16 (.resolve (sourceAddress s 16) (mapped c) c)
      (begin_ true (bump (ck 369 25 16) n (bump (ck 369 24 16) 1 s)))
  else begin_ false s

def cmdObsSetIpfix : CmdSpec where
  opcode := 0x0B06
  lenOk := fixedLen 32
  args := fun _ =>
    [flagArg 0 1, flagArg 1 6, anyArg 4 16, anyArg 20 2, anyArg 24 4, boundArg 28 2 1 3600,
      boundArg 30 2 1 3600]
  legal := clsL
  run := fun _ a s =>
    let old := s.obs.ipfix
    let on := bit (byteAt a 0) 0
    let s1 := modIpfix (fun x => { x with
      enable := on, mask := BitVec.ofNat 8 (byteAt a 1), collector := BitVec.ofNat 128 (be a 4 16)
      port := BitVec.ofNat 16 (le a 20 2), domain := BitVec.ofNat 32 (le a 24 4)
      active := le a 28 2, idle := le a 30 2
      templateAt := if on then x.templateAt else none
      sequence := if x.domain.toNat = le a 24 4 then x.sequence else 0 }) s
    let moved := s1.obs.ipfix.collector != old.collector || !old.enable
    let s2 := if on && moved then startResolve (discardHeld s1) else if on then s1 else discardHeld s1
    done (if on && (!old.enable || s1.obs.ipfix.mask != old.mask) then
        sendTemplates (modIpfix (fun x => { x with templateAt := none }) s2)
      else s2)

/-- OBS_SET_IPFIX (R469, R540, R541, R544). -/
def execObsSetIpfix (n : Fin 16) (s : State) : Answer := .next (takeUp cmdObsSetIpfix n s)

/-- IPFIX_TEMPLATE (R544): 600 s after the template sets were sent last, or at once where they have not been sent. -/
def execIpfixTemplate (s : State) : Answer :=
  match s.obs.ipfix.templateAt with
  | none => .next (sendTemplates s)
  | some t => if exportRuns s then .next (sendTemplates (passTo (t + us 600000000) s)) else .next s

/-- The collector is resolved within 3 s of the attempt's start, or the attempt fails (R540). -/
def endResolve (resolved : Bool) (s : State) : State :=
  if resolved && decide (s.now ≤ s.obs.ipfix.resolveAt + us 3000000) then
    sendHeld (modIpfix (fun x => { x with resolved := true }) s)
  else
    discardHeld (modIpfix (fun x => { x with failed := true }) (passTo (s.obs.ipfix.resolveAt + us 3000000) s))

/-- COLLECTOR_RESOLVE (R540): the attempt that runs ends; one that failed is repeated 10 s after its start. Once
the collector is known, what waited while the lane carried nothing is sent (R543). -/
def execCollectorResolve (resolved : Bool) (s : State) : Answer :=
  if !exportRuns s then .next s
  else if s.obs.ipfix.resolved then .next (sendHeld s)
  else if !s.obs.ipfix.asked then .next (startResolve s)
  else if s.obs.ipfix.failed then .next (startResolve (passTo (s.obs.ipfix.resolveAt + us 10000000) s))
  else .next (endResolve resolved s)

/-! ### Records of entries (R541, R542) -/

/-- The timeout that a reason names has passed for a stream: the counts changed since the last record, or
they have not changed and no idle record has been sent since. -/
def recordDue (s : State) (x : Stream) (reason : Nat) : Bool :=
  if reason = 2 then
    (x.pkts != x.sentPkts || x.bytes != x.sentBytes)
      && decide (s.now ≥ x.at_ + us (s.obs.ipfix.active * 1000000))
  else if reason = 1 then !x.idle && decide (s.now ≥ x.changedAt + us (s.obs.ipfix.idle * 1000000))
  else false

/-- The clock reaches the timeout that a reason names. -/
def passTimeout (k reason : Nat) (s : State) : State :=
  let x := streamOf s k
  if reason = 2 then passTo (x.at_ + us (s.obs.ipfix.active * 1000000)) s
  else if reason = 1 then passTo (x.changedAt + us (s.obs.ipfix.idle * 1000000)) s
  else s

/-- IPFIX_RECORD (R542): an entry's active or idle timeout has passed. -/
def execIpfixRecord (e : IpfixEntry) (reason : Byte) (s : State) : Answer :=
  match e with
  | .exactMatch way index =>
    match (if index < 131072 then emAt s (way.val * 131072 + index) else none) with
    | none => .next s
    | some x =>
      let k := emStream x.profile x.key
      let read := fun (t : State) => accumulate k x.pkts.toNat x.bytes.toNat t
      let s1 := read (passTimeout k reason.toNat (read s))
      if exports s1 256 && recordDue s1 (streamOf s1 k) reason.toNat then
        .next (exportEntry way.val index reason.toNat x s1)
      else .next s
  | .rule i =>
    match tget none s.cls.rules i with
    | none => .next s
    | some r =>
      let k := ruleStream i
      let read := fun (t : State) => accumulate k r.pkts.toNat r.bytes.toNat t
      let s1 := read (passTimeout k reason.toNat (read s))
      if exports s1 257 && recordDue s1 (streamOf s1 k) reason.toNat then
        .next (orDefer (exportRule i reason.toNat r) s1)
      else .next s

/-- COUNTER_ACCUMULATION (R542): every valid exact-match entry's counters are added into the totals. -/
def execCounterAccumulation (s : State) : Answer :=
  if servicesRun s || s.dev.state == .safe then
    .next (s.tab.em.foldl (fun s e => match e.2 with
      | some x => accumulate (emStream x.profile x.key) x.pkts.toNat x.bytes.toNat s
      | none => s) s)
  else .next s

/-! ### Records drawn from dumps (R541) -/

/-- What a counter gained since the previous generation's record, and the value noted. -/
def dumpDelta (cnt : Tab Nat) (key : Nat) (s : State) : Nat :=
  let v := tget 0 cnt key
  let old := tget 0 s.obs.ipfix.sent key
  if v < old then v else v - old

def noteSent (cnt : Tab Nat) (keys : List Nat) (s : State) : State :=
  modIpfix (fun x => { x with sent := keys.foldl (fun t k => tset 0 t k (tget 0 cnt k)) x.sent }) s

/-- A record of some counters, sent where one of them has grown (log entry 28). -/
def deltaRecord (template : Nat) (head : List Nat) (cnt : Tab Nat) (keys : List Nat) (s : State) : State :=
  let d := keys.map (fun k => dumpDelta cnt k s)
  if d.all (· == 0) then s
  else orDefer (fun t => noteSent cnt keys (sendExport template (head ++ d) true t)) s

/-- Enqueued, dequeued and dropped packets and bytes of a queue; refusals and resident drops together. -/
def queueRecordKeys (q : Nat) : List Nat := (List.range 60).map (fun r => ck 243 r q)

def queueRecord (cnt : Tab Nat) (q : Nat) (s : State) : State :=
  let d := (queueRecordKeys q).map (fun k => dumpDelta cnt k s)
  let drops := fun (b : Nat) => total ((List.range 28).map (fun i => d.getD (4 + 2 * i + b) 0))
  if d.all (· == 0) then s
  else
    orDefer (fun t => noteSent cnt (queueRecordKeys q) (sendExport 259
      [q, d.getD 0 0, d.getD 2 0, drops 0, d.getD 1 0, d.getD 3 0, drops 1] true t)) s

/-- The records of templates 258 to 261 that one generation yields; the selector ID of samples is not stated, a
free value (log entry 5). -/
def exportDump (j : DumpJob) (s : State) : State :=
  let s1 := if exports s 258 then
      forEach (List.range 18) (fun p s =>
        forEach dropReasons (fun r s => deltaRecord 258 [p, r] j.cnt [ck 201 r p] s) s) s
    else s
  let s2 := if exports s1 259 then forEach (List.range 1024) (queueRecord j.cnt) s1 else s1
  let s3 := if exports s2 260 then
      j.samples.foldl (fun s x =>
        let (v, t) := takeFree s
        orHold 260 [v, x.time, x.cport, x.length, be x.record 0 128] t) s2
    else s2
  if exports s3 261 then
    forEach (List.range 51) (fun q s =>
      let a := tget ({} : AuditRec) j.audit q
      orHold 261 [j.at_, q, a.state, uint 64 a.amount] s) s3
  else s3

/-! ### The end of a dump (R523, R524, R527) -/

/-- The host's copy: sections and trailer first, the header last. -/
def writeCopy (j : DumpJob) (s : State) : State :=
  let addr := j.addr + 4194304 * (j.gen % max 1 j.slots)
  emit (.hostWrite addr (j.bytes.take 64)) (emit (.hostWrite (addr + 64) (j.bytes.drop 64)) s)

/-- DUMP_DONE (R523, R524, R527): the dump is complete in every target. -/
def execDumpDone (s : State) : Answer :=
  match s.obs.dumpWriting with
  | none => .next s
  | some j =>
    let s1 := { s with obs := { s.obs with
      dumpWriting := none, dumps := tset [] s.obs.dumps (j.gen % 16) j.bytes
      damaged := s.obs.damaged.filter (· != j.gen % 16) } }
    let s2 := if j.host && dmaOk s1 then bump (ck 545 3 1) 1 (writeCopy j s1)
      else if j.host then bump (ck 545 5 1) 1 s1 else s1
    let s3 := ownEvent 42 1 (j.bytes.length / 8) { s2 with hif := { s2.hif with dumpGen := BitVec.ofNat 32 j.gen } }
    .next (exportDump j (raise 0x0B02 false 0xFF (leBytes 4 j.gen) (bump (ck 545 3 0) 1 s3)))

end Sys2Proof.Machine
end

