-- ==== Sys2Proof/Machine/Tables.lean ====
section
/-! DEFINITION. The table commands (R206, R207, R219, R229, R230, R459, R460), the learn engine (R223,
R224) and aging (R221). -/

namespace Sys2Proof.Machine

open Sys2Proof

/-! ### Profiles (R206, R207) -/

def selectorArgs (off : Nat) : List Arg :=
  (List.range 40).map (fun i => rangeArg (off + i) 1 (fun v => decide (v ≤ 79) || v == 0x7F))

def selectors (a : Bytes) (off : Nat) : Tab Byte :=
  (List.range 40).foldl (fun t i => tset 0x7F t i (BitVec.ofNat 8 (byteAt a (off + i)))) []

/-- A valid entry holds the profile, or a port-table entry names it (R207). -/
def profileUsed (s : State) (n : Nat) : Bool :=
  s.tab.em.any (fun e => match e.2 with
    | some x => x.profile == n
    | none => false)
    || (List.range 64).any (fun i => ptProfile (portEntry s i) == n)

def cmdTableSetProfile : CmdSpec where
  opcode := 0x0401
  lenOk := fixedLen 88
  args := fun _ => boundArg 0 1 0 14 :: (selectorArgs 8 ++ selectorArgs 48)
  legal := clsL
  run := fun _ a s =>
    let n := byteAt a 0
    if profileUsed s n then refuseFree stBusy s
    else done (rewriteItem 5 (item 2 n) { s with tab := { s.tab with
      profiles := tset {} s.tab.profiles n { dst := selectors a 8, src := selectors a 48 } } })

/-- TABLE_SET_PROFILE (R206, R207). -/
def execTableSetProfile (n : Fin 16) (s : State) : Answer := .next (takeUp cmdTableSetProfile n s)

/-! ### Entry descriptors (R219) -/

/-- What a descriptor is for. -/
inductive EntryUse where
  | add | modify | delete | read
  deriving DecidableEq, Repr

def descCount (a : Bytes) : Nat := le a 0 2

def descKey (a : Bytes) (o : Nat) : BitVec 320 := BitVec.ofNat 320 (be a o 40)
def descProfile (a : Bytes) (o : Nat) : Nat := byteAt a (o + 40)
def descStatic (a : Bytes) (o : Nat) : Bool := bit (byteAt a (o + 41)) 0
def descReplace (a : Bytes) (o : Nat) : Bool := bit (byteAt a (o + 41)) 1
def descCarry (a : Bytes) (o : Nat) : Bool := bit (byteAt a (o + 41)) 2
def descAction (a : Bytes) (o : Nat) : Nat := le a (o + 48) 8

/-- Flag bits that a command lets a descriptor set. -/
def flagMask (u : EntryUse) : Nat :=
  match u with
  | .add => 3
  | .modify => 5
  | _ => 1

/-- The action word of an entry (R209). -/
def actionArgs (w o : Nat) : List Arg :=
  let k := emKind w
  let t := actTarget w
  let r := actReason w
  [bitArg w o 61 3 stFormat (fun v => decide (v ≤ 3)), zeroArg w o 0 10,
    ruleArg o 51 (match k with
      | 0 => true
      | 2 => decide (t ≤ 3)
      | _ => t == 0),
    ruleArg o 43 (match k with
      | 1 => r == 0x30 || (decide (0xC0 ≤ r) && decide (r ≤ 0xDF))
      | 2 => true
      | _ => r == 0),
    ruleArg o 13 (!emSetVlan w || (decide (1 ≤ emVid w) && decide (emVid w ≤ 4094)))]

def descArgs (u : EntryUse) (a : Bytes) (i : Nat) : List Arg :=
  let o := 8 + 56 * i
  [anyArg o 40, boundArg (o + 40) 1 0 14,
    { off := o + 41, len := 1, bad := fun v => if Nat.land v (255 - flagMask u) = 0 then 0 else stFormat },
    anyArg (o + 48) 8]
    ++ (match u with
      | .add | .modify => actionArgs (descAction a o) (o + 48)
      | _ => [])

def entryArgs (u : EntryUse) (a : Bytes) : List Arg :=
  boundArg 0 2 1 35 :: (List.range (descCount a)).flatMap (descArgs u a)

/-- The first key byte that is not zero where the profile's DST list holds 0x7F (R219). -/
def keyFault (s : State) (a : Bytes) : Option (Nat × Nat) :=
  (List.range (descCount a)).findSome? (fun i =>
    let o := 8 + 56 * i
    let sel := (profileAt s (descProfile a o)).dst
    if descProfile a o > 14 then none
    else ((List.range 40).find? (fun j => byteAt a (o + j) != 0 && tget 0x7F sel j == 0x7F)).map
      (fun j => (stFormat, o + j)))

/-! ### What each command does with one descriptor -/

/-- A result byte, the record of the response, and the state after one descriptor. -/
structure ItemDone where
  code : Nat
  record : Bytes
  state : State

/-- The entry a descriptor states; the manual gives no AGE for it (log entry 5). -/
def entryFrom (a : Bytes) (o : Nat) (learned : Bool) (age : Nat) : EmEntry :=
  { age := BitVec.ofNat 2 age, static := descStatic a o, learned := learned
    profile := descProfile a o, pkts := 0, bytes := 0
    action := BitVec.ofNat 64 (descAction a o), key := descKey a o }

/-- A key that is present replaced under R217, or no room. -/
def modifyItem (a : Bytes) (o pos : Nat) (old : EmEntry) (learned carry : Bool) (s : State) : ItemDone :=
  let (v, s0) := takeFree s
  let s1 := if carry then s0 else endEntry (pos / 131072) (pos % 131072) 4 old s0
  match replaceEntry pos old (entryFrom a o learned v) carry s1 with
  | none => { code := 3, record := [], state := countNoRoom s }
  | some t =>
    { code := 0, record := []
      state := if carry then t else beginStream (emStream old.profile old.key) t }

def addItem (a : Bytes) (o : Nat) (s : State) : ItemDone :=
  match emFind s (descProfile a o) (descKey a o) with
  | some (pos, old) =>
    if descReplace a o then modifyItem a o pos old false true s
    else { code := 1, record := [], state := s }
  | none =>
    let (v, s0) := takeFree s
    match placeEntry (entryFrom a o false v) s0 with
    | none => { code := 3, record := [], state := countNoRoom s }
    | some t =>
      { code := 0, record := [], state := beginStream (emStream (descProfile a o) (descKey a o)) t }

def changeItem (a : Bytes) (o : Nat) (s : State) : ItemDone :=
  match emFind s (descProfile a o) (descKey a o) with
  | some (pos, old) => modifyItem a o pos old old.learned (descCarry a o) s
  | none => { code := 2, record := [], state := s }

def deleteItem (a : Bytes) (o : Nat) (s : State) : ItemDone :=
  match emFind s (descProfile a o) (descKey a o) with
  | some (pos, old) =>
    { code := 0, record := leBytes 8 old.pkts.toNat ++ leBytes 8 old.bytes.toNat
      state := setEm pos none (endEntry (pos / 131072) (pos % 131072) 4 old s) }
  | none => { code := 2, record := [], state := s }

def readItem (a : Bytes) (o : Nat) (s : State) : ItemDone :=
  match emFind s (descProfile a o) (descKey a o) with
  | some (pos, e) =>
    let flags := b2n e.static + 2 * b2n e.learned + 4 * e.age.toNat
    { code := 0
      record := leBytes 8 e.action.toNat ++ leBytes 8 e.pkts.toNat ++ leBytes 8 e.bytes.toNat
        ++ leBytes 1 flags ++ leBytes 1 (pos / 131072) ++ leBytes 3 (pos % 131072)
      state := s }
  | none => { code := 2, record := [], state := s }

def doItem (u : EntryUse) (a : Bytes) (o : Nat) (s : State) : ItemDone :=
  match u with
  | .add => addItem a o s
  | .modify => changeItem a o s
  | .delete => deleteItem a o s
  | .read => readItem a o s

/-- Record size of the response (R459). -/
def recordLen (u : EntryUse) : Nat :=
  match u with
  | .delete => 16
  | .read => 32
  | _ => 0

/-- The first k of n descriptors processed in order; the others are marked as not attempted. -/
def runItems (u : EntryUse) (a : Bytes) (k n : Nat) (s : State) : Bytes × Bytes × State :=
  (List.range n).foldl (fun acc i =>
    if i < k then
      let d := doItem u a (8 + 56 * i) acc.2.2
      (acc.1 ++ leBytes 1 d.code, acc.2.1 ++ fit (recordLen u) d.record, d.state)
    else (acc.1 ++ leBytes 1 0xFF, acc.2.1 ++ zeros (recordLen u), acc.2.2)) ([], [], s)

/-- The response of R459. -/
def runEntries (u : EntryUse) (k : Nat) (_ : Nat) (a : Bytes) (s : State) : Ran :=
  let (codes, records, t) := runItems u a k (descCount a) s
  doneWith (if recordLen u = 0 then codes else fit 40 codes ++ records) t

def entryCmd (opcode : Nat) (u : EntryUse) (legal : State → Bytes → Bool) : CmdSpec :=
  { opcode := opcode
    lenOk := countedLen 8 56 descCount
    args := entryArgs u
    also := keyFault
    legal := legal
    run := fun n a s => runEntries u (descCount a) n a s
    items := some (fun k n a s => runEntries u k n a s)
    count := descCount }

def cmdTableAdd : CmdSpec := entryCmd 0x0402 .add clsL
def cmdTableModify : CmdSpec := entryCmd 0x0403 .modify clsL
def cmdTableDelete : CmdSpec := entryCmd 0x0404 .delete clsL
def cmdTableRead : CmdSpec := entryCmd 0x0405 .read clsQ

/-- TABLE_ADD (R215, R216, R219). -/
def execTableAdd (n : Fin 16) (s : State) : Answer := .next (takeUp cmdTableAdd n s)

/-- TABLE_MODIFY (R217, R219). -/
def execTableModify (n : Fin 16) (s : State) : Answer := .next (takeUp cmdTableModify n s)

/-- TABLE_DELETE (R218, R219). -/
def execTableDelete (n : Fin 16) (s : State) : Answer := .next (takeUp cmdTableDelete n s)

/-- TABLE_READ (R219, R459). -/
def execTableRead (n : Fin 16) (s : State) : Answer := .next (takeUp cmdTableRead n s)

/-! ### Port and VLAN tables, aging settings (R229 to R231, R459, R460) -/

def portEntryArgs (a : Bytes) : List Arg :=
  let d := le a 8 8
  [boundArg 0 1 0 63, anyArg 8 8, zeroArg d 8 0 13, bitArg d 8 54 2 stRange (· ≤ 2),
    bitArg d 8 52 2 stRange (· ≤ 2), bitArg d 8 48 2 stRange (· ≤ 2),
    bitArg d 8 36 12 stRange (fun v => decide (1 ≤ v) && decide (v ≤ 4094)),
    ruleArg 8 15 (!ptLearn d || decide (byteAt a 0 < 16))]

def cmdTableSetPort : CmdSpec where
  opcode := 0x0406
  lenOk := fixedLen 16
  args := portEntryArgs
  legal := clsL
  run := fun _ a s => done (rewriteItem 5 (item 3 (byteAt a 0)) { s with tab := { s.tab with
    ports := tset portReset s.tab.ports (byteAt a 0) (BitVec.ofNat 64 (le a 8 8)) } })

/-- TABLE_SET_PORT (R222, R229, R231). -/
def execTableSetPort (n : Fin 16) (s : State) : Answer := .next (takeUp cmdTableSetPort n s)

def cmdTableSetVlan : CmdSpec where
  opcode := 0x0407
  lenOk := fixedLen 16
  args := fun a =>
    let d := le a 8 8
    let v := le a 0 2
    [boundArg 0 2 0 4095, anyArg 8 8, zeroArg d 8 0 19,
      ruleArg 8 63 (!vlValid d || (v != 0 && v != 4095))]
  legal := clsL
  run := fun _ a s => done (rewriteItem 5 (item 4 (le a 0 2)) { s with tab := { s.tab with
    vlans := tset 0 s.tab.vlans (le a 0 2) (BitVec.ofNat 64 (le a 8 8)) } })

/-- TABLE_SET_VLAN (R230, R231). -/
def execTableSetVlan (n : Fin 16) (s : State) : Answer := .next (takeUp cmdTableSetVlan n s)

def cmdTableSetAging : CmdSpec where
  opcode := 0x0408
  lenOk := fixedLen 8
  args := fun _ => [boundArg 0 2 0 3600, rangeArg 2 1 (fun v => decide (v ≤ 15) || v == 0xFF),
    boundArg 4 4 0 524288]
  legal := clsL
  run := fun _ a s =>
    let t := { s.tab with agingS := if le a 0 2 = 0 then s.tab.agingS else le a 0 2 }
    done { s with tab := if byteAt a 2 = 0xFF then t
      else { t with limits := tset 524288 t.limits (byteAt a 2) (le a 4 4) } }

/-- TABLE_SET_AGING (R221, R223, R459). -/
def execTableSetAging (n : Fin 16) (s : State) : Answer := .next (takeUp cmdTableSetAging n s)

/-- A record of the aged log, zeros where the log does not hold it (R460). -/
def agedBytes (s : State) (number : Nat) : Bytes :=
  match s.tab.aged.find? (fun r => r.number == number) with
  | none => zeros 64
  | some r =>
    leBytes 4 r.number ++ beBytes 40 r.key.toNat ++ leBytes 1 r.profile ++ zeros 3
      ++ leBytes 8 r.pkts.toNat ++ leBytes 8 r.bytes.toNat

def cmdTableReadAged : CmdSpec where
  opcode := 0x0409
  lenOk := fixedLen 5
  args := fun _ => [anyArg 0 4, boundArg 4 1 1 30]
  legal := clsQ
  run := fun _ a s =>
    doneWith ((List.range (byteAt a 4)).flatMap (fun i => agedBytes s (le a 0 4 + i))) s

/-- TABLE_READ_AGED (R459, R460). -/
def execTableReadAged (n : Fin 16) (s : State) : Answer := .next (takeUp cmdTableReadAged n s)

/-! ### Aging (R221) -/

/-- An entry ages out: it is invalidated, logged and reported (R218, R221, R460). -/
def ageOut (pos : Nat) (e : EmEntry) (s : State) : State :=
  let n := s.tab.nextAged
  let r : AgedRec := { number := n, key := e.key, profile := e.profile, pkts := e.pkts, bytes := e.bytes }
  let s1 := setEm pos none (endEntry (pos / 131072) (pos % 131072) 1 e s)
  let s2 := { s1 with tab := { s1.tab with aged := (r :: s1.tab.aged).take 4096, nextAged := n + 1 } }
  let s3 := match forwardPort e.action.toNat with
    | some p => bump (ck 232 16 p) 1 s2
    | none => s2
  raise 0x0401 false e.profile
    (leBytes 1 (pos / 131072) ++ leBytes 3 (pos % 131072) ++ leBytes 4 n) s3

/-- AGING_VISIT (R221, R473): the engine visits one position. -/
def execAgingVisit (way : Fin 4) (index : Nat) (s : State) : Answer :=
  let pos := way.val * 131072 + index
  if !servicesRun s || decide (index ≥ 131072) then .next s
  else
    match emAt s pos with
    | none => .next s
    | some e =>
      let s1 := passSince e.visited (ms (1000 * s.tab.agingS)) s
      if e.static then .next s1
      else if e.age = 0 then .next (ageOut pos e s1)
      else .next (setEm pos (some { e with age := e.age - 1, visited := some s1.now }) s1)

/-! ### The learn engine (R223, R224) -/

/-- A candidate whose key has meanwhile arrived: with the wanted target it is discarded uncounted, in an
entry that was not learned its move is blocked; none where the engine goes on (R222, R224). -/
def settleCandidate (c : Candidate) (s : State) : Option State :=
  match candidateEntry s c with
  | none => none
  | some (_, e) =>
    if wantedTarget c e then some s
    else if !e.learned then some (bump (ck 232 13 c.port) 1 s)
    else none

/-- A candidate passed to Knarrasar's queue of 1,024, or learn full (R224). -/
def passCandidate (c : Candidate) (s : State) : State :=
  if s.tab.learnQueue.length < 1024 then
    { s with tab := { s.tab with learnQueue := s.tab.learnQueue ++ [c] } }
  else bump (ck 232 12 c.port) 1 s

/-- LEARN_CANDIDATE (R223, R224): the oldest admitted candidate is looked up again, written, or passed to
Knarrasar. -/
def execLearnCandidate (s : State) : Answer :=
  match s.tab.pending with
  | [] => .next s
  | c :: rest =>
    let s1 := { s with tab := { s.tab with pending := rest } }
    match settleCandidate c s1 with
    | some t => .next t
    | none =>
      match writeLearned c false s1 with
      | some t => .next t
      | none => .next (passCandidate c s1)

/-- LEARN_COMPLETION (R216, R224, R473): Knarrasar completes the oldest queued candidate by
displacement. -/
def execLearnCompletion (s : State) : Answer :=
  match s.tab.learnQueue with
  | [] => .next s
  | c :: rest =>
    let s1 := { s with tab := { s.tab with learnQueue := rest } }
    if !servicesRun s then .next s
    else
      match settleCandidate c s1 with
      | some t => .next t
      | none =>
        match writeLearned c true s1 with
        | some t => .next t
        | none => .next (countNoRoom s1)

end Sys2Proof.Machine
end

