-- ==== Sys2Proof/Machine/Decide.lean ====
section
/-! DEFINITION. The forwarding decision of one pass (R177, R225 to R227), the match counters (R189, R203,
R213, R232) and source learning (R222). -/

namespace Sys2Proof.Machine

open Sys2Proof

/-! ### What the parse's ending fixes (R177) -/

inductive Fate where
  | goes
  | drops (reason : Nat)
  | punts (reason : Nat)
  deriving DecidableEq, Repr

def actionFate (action reason : Nat) : Fate :=
  match action with
  | 0 => .goes
  | 1 => .drops reason
  | _ => .punts reason

def parseFate (pe : Nat) : ParseEnd → Fate
  | .done => .goes
  | .depth => actionFate (ptDepth pe) 0x20
  | .malformed r => actionFate (ptMalformed pe) r
  | .fail r => .drops r
  | .limit => .drops 0x2A

/-- Row of an ending in the counters of R203. -/
def endRow : ParseEnd → Nat
  | .done => 3 | .depth => 4 | .malformed _ => 5 | .fail _ => 6 | .limit => 7

/-- The counters of R203 for one parse. -/
def countParse (p : Pkt) (k steps : Nat) (e : ParseEnd) (f : Fate) (s : State) : State :=
  let s1 := ownEvent (15 + 3 * k) 1 steps <| markHigh (ck 203 12 k) steps (bump (ck 203 (endRow e) k) 1 (bump (ck 203 p.pass k) 1 s))
  match e, f with
  | .depth, .goes => bump (ck 203 8 k) 1 s1
  | .malformed _, .goes => bump (ck 203 9 k) 1 s1
  | .depth, .punts _ => bump (ck 203 10 k) 1 s1
  | .malformed _, .punts _ => bump (ck 203 11 k) 1 s1
  | _, _ => s1

/-! ### Rule store and exact match (R189, R211 to R213) -/

/-- The winning rule, its counters raised; a pass without one counts against its tag (R203). -/
def matchRules (p : Pkt) (k : Nat) (key zone : Bytes) (flags : Nat) (s : State) :
    Option Rule × State :=
  match findRule s p (BitVec.ofNat 640 (be key 0 80)) zone flags with
  | some (i, r) => (some r, countRule i r p.frame.length s)
  | none => (none, bump (ck 203 (13 + p.tag) k) 1 s)

/-- A forwarding hit counted in its entry (R213, R221). -/
def EmEntry.hit (e : EmEntry) (len : Nat) : EmEntry :=
  { e with pkts := BitVec.ofNat 40 (e.pkts.toNat + 1), bytes := BitVec.ofNat 48 (e.bytes.toNat + len)
           age := if e.learned then e.age else 3 }

/-- The forwarding lookup (R210 to R213, R232): the position and entry that hit. -/
def forwardLookup (p : Pkt) (k profile : Nat) (key : BitVec 320) (s : State) :
    Option (Nat × EmEntry) × State :=
  if profile = 15 then (none, bump (ck 232 3 k) 1 s)
  else if profileLost s profile then (none, bump (ck 232 2 k) 1 (bump (ck 232 0 k) 1 s))
  else
    let s1 := bump (ck 232 0 k) 1 s
    let hits := emHits s profile key
    match emFind s profile key with
    | none => (none, bump (ck 232 2 k) 1 s1)
    | some (pos, e) =>
      let s2 := bump (ck 232 1 k) 1 s1
      let s3 := if hits.length > 1 then bump (ck 232 6 0) 1 s2 else s2
      (some (pos, e), setEm pos (some (e.hit p.frame.length)) s3)

/-- The port learns on this pass (R210, R222). -/
def learns (s : State) (p : Pkt) (pe : Nat) : Bool :=
  !profileLost s (ptProfile pe) && p.pass == 0 && decide (p.inPort < 16) && ptLearn pe && ptProfile pe != 15

/-- The learning key of a pass. -/
def learnKey (s : State) (pe : Nat) (key : Bytes) : BitVec 320 :=
  buildKey (profileAt s (ptProfile pe)).src key

/-- The source lookup counted (R210, R232). -/
def countSource (p : Pkt) (k pe : Nat) (key : Bytes) (s : State) : State :=
  if learns s p pe then
    let s1 := bump (ck 232 4 k) 1 s
    if (emFind s (ptProfile pe) (learnKey s pe key)).isSome then bump (ck 232 5 k) 1 s1 else s1
  else s

/-- Learning, once the VLAN checks have passed (R222). -/
def learnSource (p : Pkt) (pe : Nat) (key : Bytes) (s : State) : State :=
  if !learns s p pe then s
  else
    let c : Candidate := {
      key := learnKey s pe key, profile := ptProfile pe, port := p.inPort, move := false }
    match emFind s c.profile c.key with
    | none => admitCandidate c s
    | some (pos, e) =>
      let s1 := setEm pos (some { e with age := 3 }) s
      if wantedTarget c e then s1
      else if e.learned then admitCandidate { c with move := true } s1
      else bump (ck 232 13 p.inPort) 1 s1

/-! ### The decision (R225 to R227) -/

/-- What the action stage decides. -/
inductive Verdict where
  | drop (reason : Nat)
  | recirculate
  /-- Destinations with the kind of their copies, and the reason a punt carries, none where the manual
  states none (log entry 5). -/
  | send (dests : List (Nat × CopyKind)) (reason : Option Nat)
  deriving DecidableEq, Repr

/-- The egress port p counts as the packet's ingress port (R225, R367). -/
def isIngress (s : State) (p : Pkt) (port : Nat) : Bool :=
  p.source == 0 && (port == p.inPort
    || ((aggOfPort s p.inPort).isSome && aggOfPort s p.inPort == aggOfPort s port))

/-- Membership of the ingress in a VLAN (R225). -/
def ingressMember (p : Pkt) (ve : Nat) : Bool :=
  match p.source with
  | 0 => vlMember ve p.inPort
  | 1 => vlFibre ve
  | _ => vlHost ve

/-- The ports a flood goes to: one member stands for an aggregation (R227, R367). -/
def floodPorts (s : State) (p : Pkt) (pe ve : Nat) : List Nat :=
  let l := (List.range 16).filter (fun i => vlMember ve i && (ptHairpin pe || !isIngress s p i))
  l.filter (fun i => match aggOfPort s i with
    | none => true
    | some a => !(l.any (fun j => decide (j < i) && aggOfPort s j == some a)))

def floodDests (s : State) (p : Pkt) (pe ve cls : Nat) : List (Nat × CopyKind) :=
  (floodPorts s p pe ve).map (fun i => (8 * i + cls, CopyKind.forwarded))
    ++ (if vlUpFlood ve && p.source != 1 then [(128 + vlUpQueue ve, CopyKind.forwarded)] else [])

/-- What a pass has found: its port-table entry, rule action and exact-match action. -/
structure Found where
  pe : Nat
  rule : Option Nat
  entry : Option Nat
  /-- Resolved VLAN ID. -/
  vlan : Nat

/-- The resolved VLAN ID (R225 step 3). -/
def resolveVlan (s : State) (zone : Bytes) (pe : Nat) : Nat :=
  let v := be zone s.cls.pos.vid 2 % 4096
  if v = 0 then ptPvid pe else v

/-- The rule's own decision applies (R225 step 4). -/
def ruleDecides (f : Found) : Bool :=
  match f.rule with
  | some a => ruleKind a != 0
  | none => false

/-- The exact-match action that decides, when steps 4 and 5 have not (R225 step 6). -/
def deciding (f : Found) : Option Nat :=
  if ruleDecides f || (f.rule.isNone && ptNoMatchDrop f.pe) then none
  else f.entry.filter (fun a => emKind a != 3)

/-- The final class, `dec` being the entry that decided (R226). -/
def finalClass (f : Found) (dec : Option Nat) : Nat :=
  let port := ptClass f.pe
  let fromEntry := match dec with
    | some a => if actSetClass a then actClass a else port
    | none => port
  match f.rule with
  | some a => if actSetClass a then actClass a else fromEntry
  | none => fromEntry

/-- The policer, if the packet is policed (R226). -/
def finalPolicer (f : Found) (dec : Option Nat) : Option Nat :=
  let fromEntry := (dec.filter actPolice).map actPolicer
  match f.rule with
  | some a => if actPolice a then some (actPolicer a) else fromEntry
  | none => fromEntry

/-- The packet is mirrored (R226). -/
def finalMirror (f : Found) (dec : Option Nat) : Bool :=
  (f.rule.map ruleMirror).getD false || (dec.map emMirror).getD false

/-- A forward to a queue: host transmit and recirculation queues take none (R236, log entry 25). A fibre packet whose
action names an upstream queue goes there as a client packet does: R28 lists no path for it and gives no drop reason
(DESIGN CHOICE, log entry 25). -/
def forwardTo (q : Nat) : Verdict :=
  if 644 ≤ q ∧ q < 656 then .drop 0x3A else .send [(q, .forwarded)] (some 0)

def puntTo (ring : Nat) (reason : Option Nat) : Verdict := .send [(640 + ring, .punt)] reason

/-- Steps 4 to 7 of R225. -/
def choose (s : State) (p : Pkt) (f : Found) : Verdict :=
  let dec := deciding f
  let cls := finalClass f dec
  match (if ruleDecides f then f.rule else none) with
  | some a =>
    match ruleKind a with
    | 1 => forwardTo (actTarget a)
    | 2 => .drop (actReason a)
    | 3 => puntTo (actTarget a) (some (actReason a))
    | _ => .recirculate
  | none =>
    if f.rule.isNone && ptNoMatchDrop f.pe then .drop 0x31
    else
      match dec with
      | some a =>
        match emKind a with
        | 0 =>
          let q := actTarget a
          forwardTo (if emClassQueue a && decide (q < 128) then q / 8 * 8 + cls else q)
        | 1 => .drop (actReason a)
        | _ => puntTo (actTarget a) (some (actReason a))
      | none =>
        match ptMiss f.pe with
        | 0 =>
          let l := floodDests s p f.pe (vlanEntry s f.vlan) cls
          if l.isEmpty then .drop 0x34 else .send l (some 0)
        | 1 => forwardTo (ptQueue f.pe)
        | 2 => .drop 0x36
        | _ => puntTo (ptPuntRing f.pe) none

/-- The flood copies have passed the membership test already; one destination passes step 8 of R225. -/
def egressChecks (s : State) (p : Pkt) (f : Found) (v : Verdict) : Verdict :=
  match v with
  | .send [(q, kind)] r =>
    if q < 128 then
      if !vlMember (vlanEntry s f.vlan) (q / 8) then .drop 0x34
      else if isIngress s p (q / 8) && !ptHairpin f.pe then .drop 0x37
      else .send [(q, kind)] r
    else .send [(q, kind)] r
  | _ => v

/-- Steps 1 to 3 of R225, with STATE: the drop that ends them, or none. -/
def admission (s : State) (p : Pkt) (f : Found) : Option Nat :=
  let ve := vlanEntry s f.vlan
  if ptState f.pe = 1 then some 0x35
  else if !vlValid ve then some 0x32
  else if ptFilter f.pe && !ingressMember p ve then some 0x33
  else none

end Sys2Proof.Machine
end

