-- ==== Sys2Proof/Machine/Memory.lean ====
section
/-! DEFINITION. Memory integrity (chapter 15): scrub reads and what each decision of R497 leads to, the
repeat filter, the leaky buckets, merge retirements and restorations. -/

namespace Sys2Proof.Machine

open Sys2Proof

/-! ### Regions (R496, R505) -/

/-- Bytes of a code word's data: 128 bits in regions 0, 6 and 7, else 64. -/
def wordBytes (r : Nat) : Nat := if r = 0 ∨ r = 6 ∨ r = 7 then 16 else 8

def regionBytes (r : Nat) : Nat :=
  match r with
  | 0 => 33554432 | 1 => 67108864 | 2 => 2883584 | 3 => 524288 | 4 => 786432 | 5 => 262144
  | 6 => 1572864 | 7 => 1572864 | 8 => 786432 | 9 => 786432 | 10 => 8053063680 | 11 => 268435456
  | 12 => 201326592 | 13 => 67108864 | _ => 2097152

/-- The bank group that holds a word, none in DRAM and in the Hive and cipher domains. Regions 0 to 2
spread over their groups in address order (log entry 23). -/
def bankOfWord (r addr : Nat) : Option Nat :=
  match r with
  | 0 => some (addr / 4194304)
  | 1 => some (8 + addr / 8388608)
  | 2 => some (16 + addr / 1441792)
  | 3 => some 18 | 4 => some 19 | 5 => some 20 | 6 => some 21 | 7 => some 22 | 8 => some 23
  | _ => none

/-- The store can be read: its group is not retained and its domain is on, the DRAM not in self-refresh
(R475, R505). -/
def regionReadable (s : State) (r addr : Nat) : Bool :=
  match bankOfWord r addr with
  | some g => !(bankOf s g).retained && domainOn s (55 + g)
  | none => if r = 14 then s.pow.railsUp && domainOn s (islandDomain 40) else s.pow.railsUp && !lowState s

/-- A user's errors need no restoration in these regions (R509). -/
def noRestoration (r : Nat) : Bool := [1, 2, 9, 10, 11, 13].contains r

/-! ### Items (R507) -/

/-- Every copy that shares a buffer frame's cells is marked as unreadable (R249, R510). -/
def spoilFrame (fid : Nat) (s : State) : State :=
  let mark := fun (p : Pkt) => if p.fid = fid then { p with bad := true } else p
  let copy := fun (c : Copy) => { c with pkt := mark c.pkt }
  let e := refOf s fid
  { s with
    cls := { s.cls with
      inputs := s.cls.inputs.map (fun e => (e.1, e.2.map mark))
      decided := s.cls.decided.map (fun d => { d with pkt := mark d.pkt }) }
    tm := { s.tm with
      refs := if e.copies = 0 then s.tm.refs else tset {} s.tm.refs fid { e with bad := true }
      queues := s.tm.queues.map (fun e => (e.1, { e.2 with pkts := e.2.pkts.map copy }))
      leaving := s.tm.leaving.map (fun e => (e.1, e.2.map (fun l => { l with copy := copy l.copy }))) } }

/-- A staged frame is marked as unreadable: its discard waits for its commit (R507). -/
def spoilStaged (fid : Nat) (s : State) : State :=
  let mark := fun (f : Staged) => if f.pkt.fid = fid then { f with pkt := { f.pkt with bad := true } } else f
  { s with up := { s.up with
    allocs := s.up.allocs.map (fun a => { a with staging := a.staging.map mark }) } }

/-- A free choice among some frames, or none of them: which words of the buffer a frame stands in is not
stated (log entry 23). -/
def anyFrame (l : List Nat) (s : State) : Option Nat × State :=
  let (v, s1) := takeFree s
  (l[v % (l.length + 1)]?, s1)

/-- Buffer frames held on die, or those of spilled copies. -/
def framesHeld (s : State) (spilled : Bool) : List Nat :=
  if spilled then
    s.tm.queues.flatMap (fun e => (e.2.pkts.filter (·.spilled)).map (·.pkt.fid))
  else s.tm.refs.map (·.1)

/-- The bins of every histogram, each with its histogram. -/
def allBins (s : State) : List (Nat × Nat) := s.tm.hists.flatMap (fun e => e.2.bins.map (fun b => (e.1, b.1)))

/-- The counter or bin that a word of region 8 holds restarts at zero and is counted as lost; a book that
loses a term is rebased (R507, R537). -/
def loseCounter (n : Nat) (s : State) : State :=
  let bins := allBins s
  let i := n % max 1 (s.cnt.length + bins.length)
  let s1 := bump (ck 511 9 8) 1 s
  match s.cnt[i]?, bins[i - s.cnt.length]? with
  | some (k, _), _ =>
    let s2 := setCount k 0 { s1 with obs := { s1.obs with dumpZeroed := true } }
    if (ck 535 0 0 ≤ k ∧ k < ck 536 0 0) ∨ (ck 201 0 0 ≤ k ∧ k < ck 202 0 0) then
      { s2 with obs := { s2.obs with rebase := s2.obs.rebase ++ [k % 16777216] } }
    else s2
  | none, some (h, b) =>
    let x := tget ({} : Hist) s1.tm.hists h
    { s1 with
      tm := { s1.tm with hists := tset {} s1.tm.hists h { x with bins := tset 0 x.bins b 0 } }
      obs := { s1.obs with dumpZeroed := true } }
  | none, none => s1

/-- An item waits for its restoration (R507, R509). -/
def loseItem (r addr i : Nat) (s : State) : State :=
  let e : LostItem := { region := r, addr := addr, item := i, caused := true }
  settleLoss { s with mem := { s.mem with lost := s.mem.lost ++ [e] } }

/-- The frame that holds a word of regions 1, 2 and 10 is spoilt; the report of the word lasts as long as it does. -/
def spoilOne (r addr : Nat) (frames : List Nat) (f : Nat → State → State) (s : State) : State :=
  match anyFrame frames s with
  | (some fid, t) =>
    modRegion r (fun x => { x with reportedFor := (addr, fid) :: x.reportedFor.filter (fun e => e.1 != addr) }) (f fid t)
  | (none, t) => t

/-- Frames staged for the fibre. -/
def framesStaged (s : State) : List Nat := s.up.allocs.flatMap (fun a => a.staging.map (fun f => f.pkt.fid))

/-- Some request's data, or none's, hold the word: it is marked, wherever the request stands (R507). -/
def spoilRequest (s : State) : State :=
  let (v, s1) := takeFree s
  let l := heldRequests s1
  match l[v % (l.length + 1)]? with
  | none => s1
  | some q =>
    let mark := fun (r : CipherReq) => if r.source = q.source ∧ r.seq = q.seq then { r with bad := true } else r
    let res := fun (r : Result) => { r with req := mark r.req }
    { s1 with cip := { s1.cip with
      waiting := s1.cip.waiting.map (fun e => (e.1, e.2.map mark))
      pipes := s1.cip.pipes.map (fun e => (e.1, { e.2 with
        queue := e.2.queue.map mark, running := e.2.running.map res, suspended := e.2.suspended.map res }))
      results := s1.cip.results.map (fun e => (e.1, e.2.map res)) } }

/-- Mailbox n as after a warm reset (R437). -/
def restoreMailbox (n : Nat) (s : State) : State :=
  let t := mailboxesFromJournal s
  let st := match tget none t.hif.kept n with
    | some k => leBytes 4 (statusWord k.status.toNat k.rolled k.isPartial false false 0) ++ leBytes 8 k.jseq
    | none => []
  let m := putBytes (zeroBytes s.hif.mbox (mbxAddr n 0) (mbxAddr (n + 1) 0)) (mbxAddr n 0x804) st
  { s with hif := { s.hif with
    mbox := m
    lastSeq := tset none s.hif.lastSeq n (tget none t.hif.lastSeq n)
    kept := tset none s.hif.kept n (tget none t.hif.kept n) } }

/-- A dump generation is damaged: counted once, where the slot holds one (R507, R527). -/
def damageDump (addr : Nat) (s : State) : State :=
  let slot := addr / 4194304 % 16
  if (tget [] s.obs.dumps slot).isEmpty || s.obs.damaged.contains slot then s
  else bump (ck 545 6 0) 1 { s with obs := { s.obs with damaged := slot :: s.obs.damaged } }

/-- What an uncorrectable word costs the item that holds it (R507). -/
def contain (r addr : Nat) (s : State) : State :=
  match r with
  | 1 => spoilOne 1 addr (framesHeld s false) spoilFrame s
  | 10 => spoilOne 10 addr (framesHeld s true) spoilFrame s
  | 2 => spoilOne 2 addr (framesStaged s) spoilStaged s
  | 4 =>
    let i := itemOfWord 4 addr
    let s1 := loseItem 4 addr i s
    if i % 8 = 1 then restoreMailbox (i / 8) s1 else s1
  | 8 =>
    let i := itemOfWord 8 addr
    if i % 8 = 2 then loseCounter (i / 8) s else loseItem 8 addr i s
  | 9 => spoilRequest s
  | 13 => damageDump addr s
  | 14 => warmReset 0x06 s
  | _ => if noRestoration r then s else loseItem r addr (itemOfWord r addr) s

/-! ### What a read decides (R497 to R500, R503, R504, R509) -/

/-- The bucket takes one error (R504). -/
def fillBucket (r : Nat) (s : State) : State :=
  let x := regionOf s r
  let b := min (x.bucket + 1000) (2 ^ 48 - 1)
  let s1 := modRegion r (fun x => { x with bucket := b }) s
  if b > x.threshold * 1000 ∧ !x.latched then
    raise 0x0B04 false r (leBytes 4 (min (b / 1000) 0xFFFFFFFF))
      (bump (ck 511 17 r) 1 (modRegion r (fun x => { x with latched := true }) s1))
  else s1

/-- The controller of a word: its bank group's, the DRAM's, Hive's or the cipher complex's (R500, R505). -/
def controllerOf (r addr : Nat) : Nat :=
  match bankOfWord r addr with
  | some g => g
  | none => if r = 14 then 25 else if r = 9 then 26 else 24

/-- The island whose clock a controller runs on. -/
def controllerIsland (c : Nat) : Nat :=
  if c = 24 then 41 else if c = 25 then 40 else if c = 26 then 34 else if c < 8 then 21 else 23

def setFilter (c : Nat) (l : List FilterEntry) (s : State) : State :=
  { s with mem := { s.mem with filters := tset [] s.mem.filters c l } }

/-- A write-back lands, and the filter knows that it has (R499, R500). -/
def landBack (w : WriteBack) (s : State) : State :=
  let c := controllerOf w.region w.addr
  bump (ck 511 3 w.region) 1 (setFilter c ((tget [] s.mem.filters c).map (fun e =>
    if e.region = w.region ∧ e.addr = w.addr then { e with landed := true } else e)) s)

/-- The write-backs whose 64 clocks have passed have landed (R499). -/
def settleBacks (s : State) : State :=
  (s.mem.backs.filter (fun w => decide (w.due ≤ s.now))).foldl (fun s w => landBack w s)
    { s with mem := { s.mem with backs := s.mem.backs.filter (fun w => decide (s.now < w.due)) } }

/-- A write to a word lands before the word's write-back, which is discarded and counted (R499, R510). -/
def supersede (r addr : Nat) (s0 : State) : State :=
  let s := settleBacks s0
  let mine := fun (w : WriteBack) => w.region == r && w.addr == addr
  bump (ck 511 4 r) (s.mem.backs.countP mine)
    { s with mem := { s.mem with backs := s.mem.backs.filter (fun w => !mine w) } }

/-- A correctable read: the corrected word goes back to its memory within 64 clocks, and the filter of its controller
tells a repeat from a new error (R499, R500). -/
def correctWord (r addr : Nat) (s00 : State) : State :=
  let s := settleBacks s00
  let c := controllerOf r addr
  let back : WriteBack := { region := r, addr := addr, due := s.now + cyclesPs s (controllerIsland c) 64 }
  let waits := s.mem.backs.any (fun w => w.region == r && w.addr == addr)
  let s0 := if waits then s else { s with mem := { s.mem with backs := s.mem.backs ++ [back] } }
  let l := tget [] s.mem.filters c
  let same := fun (e : FilterEntry) => e.region == r && e.addr == addr
  match l.find? same with
  | some e =>
    let s1 := bump (ck 511 1 r) 1 s0
    let s2 := if e.landed && !e.persistent then bump (ck 511 2 r) 1 s1 else s1
    setFilter c ({ e with last := s.now, persistent := e.persistent || e.landed } :: l.filter (fun e => !same e)) s2
  | none =>
    let f : FilterEntry := { region := r, addr := addr, last := s.now, landed := false, persistent := false }
    fillBucket r (setFilter c ((f :: l).take 16) (bump (ck 511 0 r) 1 s0))

/-- The word's error has been reported already (R503, R509). -/
def reportedWord (s : State) (r addr : Nat) : Bool :=
  let x := regionOf s r
  let held := if r = 2 then framesStaged s else framesHeld s (r == 10)
  x.poisoned.contains addr ||
    (if r = 1 ∨ r = 2 ∨ r = 10 then x.reportedFor.any (fun e => e.1 == addr && held.contains e.2)
    else x.reported.contains addr)

/-- An uncorrectable or poisoned read: one event for the word, and its item contained (R507, R509). -/
def badWord (r addr : Nat) (s : State) : State :=
  if reportedWord s r addr then s
  else
    contain r addr (raise 0x0B03 true r (leBytes 8 addr)
      (modRegion r (fun x => { x with reported := addr :: x.reported }) s))

/-- A word that has been written whole holds no error that has been reported (R503). -/
def goodWord (r addr : Nat) (s : State) : State :=
  modRegion r (fun x => { x with
    reported := x.reported.filter (· != addr), poisoned := x.poisoned.filter (· != addr) }) s

/-- What a read of a word decides: poisoned while the word holds the poison syndrome (R503), else as its syndrome
says (R497). -/
def verdictOf (s : State) (r addr : Nat) (v : EccVerdict) : EccVerdict :=
  if (regionOf s r).poisoned.contains addr then .poisoned else v

/-- A read whose syndrome says v (R497). -/
def decideWord (r addr : Nat) (v : EccVerdict) (s : State) : State :=
  match verdictOf s r addr v with
  | .clean => s
  | .correctable => correctWord r addr s
  | .poisoned => badWord r addr (bump (ck 511 6 r) 1 s)
  | .uncorrectable => badWord r addr (bump (ck 511 5 r) 1 s)

/-! ### Scrubbing (R505, R506) -/

/-- 24 h in ps. -/
def dayPs : Nat := 86400 * 1000000000000

/-- The lap that runs is counted once it has taken longer than 24 h (R506). -/
def noteLate (r : Nat) (s : State) : State :=
  let x := regionOf s r
  if s.now > x.lapStart + dayPs ∧ !x.lapLate then
    bump (ck 511 16 r) 1 (modRegion r (fun x => { x with lapLate := true }) s)
  else s

/-- A lap is complete (R506). -/
def endLap (r : Nat) (s : State) : State :=
  let d := (s.now - (regionOf s r).lapStart) / 1000000000
  let s1 := markHigh (ck 511 15 r) d (setCount (ck 511 14 r) d (bump (ck 511 13 r) 1 (noteLate r s)))
  modRegion r (fun x => { x with partsDone := [], lapStart := s.now, lapLate := false }) s1

/-- The parts of a region, one to a controller, and the bytes of each (R491, R505). -/
def partsOf (r : Nat) : Nat × Nat :=
  if r = 0 then (8, 4194304) else if r = 1 then (8, 8388608) else if r = 2 then (2, 1441792) else (1, regionBytes r)

/-- A controller's scrubber has read its whole part; the lap is complete once every one has. -/
def endPart (r part : Nat) (s : State) : State :=
  let s1 := modRegion r (fun x => { x with
    scrubAt := tset none x.scrubAt part none, partsDone := part :: x.partsDone.filter (· != part) }) s
  if (regionOf s1 r).partsDone.length ≥ (partsOf r).1 then endLap r s1 else s1

/-- The scrubber of the word's controller stands after the word; a word below its position belongs to its next turn. -/
def moveScrubber (r addr : Nat) (s : State) : State :=
  let size := (partsOf r).2
  let part := addr / size
  let pos := (tget none (regionOf s r).scrubAt part).getD (part * size)
  let s1 := if addr < pos then endPart r part s else noteLate r s
  let next := addr + wordBytes r
  if next ≥ (part + 1) * size ∨ next ≥ regionBytes r then endPart r part s1
  else modRegion r (fun x => { x with scrubAt := tset none x.scrubAt part (some next) }) s1

/-- The word stands in an entry of a merge buffer (R505). -/
def inMerge (s : State) (r addr : Nat) : Bool :=
  match bankOfWord r addr with
  | some g => (tget [] s.mem.merge g).any (fun e => e.region == r && e.addr == addr)
  | none => (tget [] s.mem.merge 24).any (fun e => e.region == r && e.addr == addr)

/-! ### Buckets and filters (R500, R504) -/

/-- ECC_BUCKET_LEAK (R504): a write of OBS_SET_ECC applies first. A lap that stands still is found late here too
(R506). -/
def execEccBucketLeak (region : Fin 15) (s : State) : Answer :=
  let r := region.val
  let s1 := noteLate r (passTo (((regionOf s r).leakAt / ms 1 + 1) * ms 1) s)
  let leak := fun (x : Region) =>
    let y := match x.pending with
      | some (t, l) => { x with threshold := t, leak := l, pending := none }
      | none => x
    let b := y.bucket - y.leak
    { y with bucket := b, leakAt := s1.now, latched := y.latched && decide (b > y.threshold * 500) }
  .next (modRegion r leak s1)

/-- ECC_FILTER_EXPIRY (R500). -/
def execEccFilterExpiry (region : Fin 15) (addr : Nat) (s0 : State) : Answer :=
  let s := settleBacks s0
  let c := controllerOf region.val addr
  let same := fun (e : FilterEntry) => e.region == region.val && e.addr == addr
  match (tget [] s.mem.filters c).find? same with
  | none => .next s
  | some e => .next (setFilter c ((tget [] s.mem.filters c).filter (fun f => !same f)) (passTo (e.last + ms 1) s))

/-! ### Merge buffers (R501 to R503) -/

/-- The region of a merge controller's words: that of its bank group, and one of the DRAM regions for the
DRAM controller. -/
def regionOfCtl (c r : Nat) : Nat :=
  if c < 8 then 0 else if c < 16 then 1 else if c < 18 then 2 else if c < 24 then c - 15 else r

/-- The controller holds the word that is written. -/
def writeFits (c r addr : Nat) : Bool :=
  decide (addr % wordBytes r = 0) && decide (addr < regionBytes r)
    && (if c < 24 then bankOfWord r addr == some c else decide (10 ≤ r) && decide (r ≤ 13))

/-- The mask covers the entry's whole word. -/
def MergeEntry.whole (e : MergeEntry) : Bool := e.mask.toNat % 2 ^ e.width == 2 ^ e.width - 1

/-- The entry of a word. -/
def MergeEntry.holds (e : MergeEntry) (r addr : Nat) : Bool := e.region == r && e.addr == addr

def mergeOf (s : State) (c : Nat) : List MergeEntry := tget [] s.mem.merge c

def setMerge (c : Nat) (l : List MergeEntry) (s : State) : State :=
  { s with mem := { s.mem with merge := tset [] s.mem.merge c l } }

/-- The data after some bytes of it are written: byte i where bit i of the mask is set. -/
def mergeData (old new mask : Nat) : Nat → Nat
  | 0 => 0
  | n + 1 => mergeData old new mask n + 256 ^ n * (fld (if bit mask n then new else old) (8 * n) 8)

/-- A write joins the entry of its word (R501). -/
def joinEntry (w : MergeWrite) (now : Nat) (e : MergeEntry) : MergeEntry :=
  { e with data := BitVec.ofNat 128 (mergeData e.data.toNat w.data.toNat w.mask.toNat 16)
           mask := e.mask ||| w.mask, at_ := now }

/-- Where the data of a code word stand. -/
def wordKey (r addr : Nat) : Nat := r * 2 ^ 40 + addr

/-- The data of a word, free where no merge buffer has written it. -/
def wordData (r addr : Nat) (s : State) : Word128 × State :=
  match tget none s.mem.words (wordKey r addr) with
  | some d => (d, s)
  | none =>
    let (v, s1) := takeFree s
    (BitVec.ofNat 128 v, s1)

/-- The data that a word has with an entry's bytes merged in (R502). -/
def mergedData (e : MergeEntry) (s : State) : Word128 × State :=
  let (old, s1) := wordData e.region e.addr s
  (BitVec.ofNat 128 (mergeData old.toNat e.data.toNat e.mask.toNat 16), s1)

/-- An entry is written as one whole code word, with the poison syndrome where its old word was
uncorrectable and its mask does not cover the word; the write supersedes a write-back of the word (R499, R502, R503). -/
def retireEntry (c : Nat) (e : MergeEntry) (s00 : State) : State :=
  let (d, s0) := mergedData e s00
  let s := supersede e.region e.addr
    { s0 with mem := { s0.mem with words := tset none s0.mem.words (wordKey e.region e.addr) (some d) } }
  let s1 := setMerge c ((mergeOf s c).filter (fun x => !x.holds e.region e.addr)) s
  let s2 := if e.whole then bump (ck 511 11 e.region) 1 (goodWord e.region e.addr s1)
    else if e.oldBad then
      modRegion e.region (fun x => { x with poisoned := e.addr :: x.poisoned.filter (· != e.addr) }) s1
    else s1
  bump (ck 511 19 e.region) 1 s2

/-- A full buffer retires its oldest entry before a new one (R502). -/
def makeRoom (c : Nat) (s : State) : State :=
  match mergeOf s c with
  | [] => s
  | e :: l => if l.length + 1 ≥ 16 then retireEntry c e (bump (ck 511 12 e.region) 1 s) else s

/-- A new entry for a word: its old contents are read (R501). -/
def allocateEntry (c r : Nat) (w : MergeWrite) (s : State) : State :=
  let s0 := makeRoom c s
  let v := verdictOf s0 r w.addr w.old
  let s1 := decideWord r w.addr w.old s0
  let e : MergeEntry := {
    region := r, addr := w.addr, data := w.data, mask := w.mask, width := wordBytes r
    oldBad := v == .uncorrectable || v == .poisoned, at_ := s.now }
  setMerge c (mergeOf s1 c ++ [e]) s1

/-- A write reaches the controller: a whole word is written, replacing and retiring its entry; a narrower
one joins its word's entry or allocates one, which retires once its mask covers the word (R501, R502). -/
def takeWrite (c : Nat) (w : MergeWrite) (s : State) : State :=
  let r := regionOfCtl c w.region.val
  let whole := w.mask.toNat % 2 ^ wordBytes r == 2 ^ wordBytes r - 1
  if !writeFits c r w.addr then s
  else match (mergeOf s c).find? (fun e => e.holds r w.addr) with
  | some e =>
    let j := joinEntry w s.now e
    let s1 := if whole then s else bump (ck 511 10 r) 1 s
    if j.whole then retireEntry c j s1
    else setMerge c ((mergeOf s1 c).map (fun x => if x.holds r w.addr then j else x)) s1
  | none =>
    if whole then
      supersede r w.addr (goodWord r w.addr { s with mem := { s.mem with
        words := tset none s.mem.words (wordKey r w.addr) (some w.data) } })
    else allocateEntry c r w (bump (ck 511 10 r) 1 s)

/-- 32 clocks of a merge controller's island: the DRAM controller, the table memory or the packet buffer and
what shares its clock. -/
def mergeIdle (s : State) (c : Nat) : Nat :=
  cyclesPs s (if c = 24 then 41 else if c < 8 then 21 else 23) 32

/-- The entry that the cause retires beside those that the writes themselves retire. -/
def execCause (c : Nat) (cause : RetireCause) (s : State) : State :=
  match cause with
  | .fullMask | .bufferFull => s
  | .timeout =>
    match mergeOf s c with
    | [] => s
    | e :: l =>
      let first := l.foldl (fun m x => if x.at_ < m.at_ then x else m) e
      retireEntry c first (passTo (first.at_ + mergeIdle s c) s)
  | .sameWordRead region addr =>
    match (mergeOf s c).find? (fun e => e.holds (regionOfCtl c region.val) addr) with
    | none => s
    | some e => emit (.merged e.region e.addr (mergedData e s).1) (retireEntry c e s)

/-- MERGE_RETIRE (R501 to R503): the writes that reached the controller, in order, and the cause for which
an entry retires. -/
def execMergeRetire (ctl : Fin 25) (cause : RetireCause) (s : State) (writes : List MergeWrite := []) : Answer :=
  .next (execCause ctl.val cause (writes.foldl (fun s w => takeWrite ctl.val w s) s))

/-! ### Reads (R497, R498, R502, R505) -/

/-- A read of a word that a merge buffer holds retires the entry, and returns the merged data (R502). -/
def retireHeld (r addr : Nat) (s : State) : State :=
  let c := controllerOf r addr
  match (mergeOf s c).find? (fun e => e.holds r addr) with
  | none => s
  | some e => emit (.merged r addr (mergedData e s).1) (retireEntry c e s)

/-- The group of a word is woken where it stands retained or off (R477, R510). -/
def wakeForWord (r addr : Nat) (s : State) : State :=
  match bankOfWord r addr with
  | some g => touchFrom s.now (55 + g) s
  | none => touchAll [87, 88] s

/-- A read by some user of the memory (R497, R498, R507): a frame's cells, a rule or a table entry in a lookup, a parse
word, a key slot, a shadow, a spilled cell. It wakes the word's group, and decides like any read. -/
def readByUser (r addr : Nat) (v : EccVerdict) (s : State) : State :=
  decideWord r addr v (retireHeld r addr (if s.pow.railsUp then wakeForWord r addr s else s))

/-- SCRUB_READ (R497 to R500, R503 to R509): the words between the scrubber's position and this one read
clean. Every read of a memory decides alike, so a user's read, which moves no scrubber, is given by the same
command (log entry 51). -/
def execScrubRead (region : Fin 15) (addr : Nat) (verdict : EccVerdict) (s : State) (user : Bool := false) : Answer :=
  let r := region.val
  if addr % wordBytes r ≠ 0 ∨ addr ≥ regionBytes r then .next s
  else if user then .next (readByUser r addr verdict s)
  else if r = 9 ∨ !regionReadable s r addr then .next s
  else
    let s1 := bump (ck 511 18 r) 1 (moveScrubber r addr s)
    if inMerge s r addr then .next s1
    else .next (decideWord r addr verdict s1)

/-! ### Restoration (R507, R508, R510) -/

/-- What a restored item has lost: its counters restart at zero (R507). -/
def restoredItem (e : LostItem) (s : State) : State :=
  let n := e.item / 8
  match e.region with
  | 0 =>
    match emAt s n with
    | some x =>
      let k := emStream x.profile x.key
      setStream k { streamOf s k with rawPkts := 0, rawBytes := 0 }
        { s with tab := { s.tab with
          em := tset none s.tab.em n (some { x with pkts := 0, bytes := 0 }) } }
    | none => s
  | 6 | 7 =>
    match tget none s.cls.rules n with
    | some x =>
      setStream (ruleStream n) { streamOf s (ruleStream n) with rawPkts := 0, rawBytes := 0 }
        { s with cls := { s.cls with
          rules := tset none s.cls.rules n (some { x with pkts := 0, bytes := 0 }) } }
    | none => s
  | 4 => if e.item % 8 = 1 then restoreMailbox n s else s
  | _ => s

/-- A restoration has found its shadow uncorrectable: the item stays lost, and the shadow's word with it (R508). -/
def failRestore (e : LostItem) (s : State) : State :=
  let s1 := bump (ck 511 8 e.region) 1 { s with mem := { s.mem with
    lost := s.mem.lost.map (fun x => if x = e then { x with failed := true } else x) } }
  if hasShadow e.region then
    let a := Config.shadowAt e.region e.item
    let x : LostItem := {
      region := 12, addr := a, item := shadowItem e.region e.item, caused := true, failed := true }
    let s2 := bump (ck 511 5 12) 1 s1
    if reportedWord s2 12 a then s2
    else
      let s3 := raise 0x0B03 true 12 (leBytes 8 a)
        (modRegion 12 (fun x => { x with reported := a :: x.reported }) s2)
      settleLoss { s3 with mem := { s3.mem with lost := s3.mem.lost ++ [x] } }
  else s1

/-- RESTORATION (R494, R507 to R510): it waits in SAFE. A bank group that has been zero-filled is restored whole; else
the item of the word, whose shadow is read: without a usable one it stays lost. -/
def execRestoration (region : Fin 15) (addr : Nat) (shadowOk : Bool) (s : State) : Answer :=
  let r := region.val
  let filled := (bankOfWord r addr).filter (fun g => (bankOf s g).zeroed)
  match filled, s.mem.lost.find? (fun e => e.region == r && e.addr == addr) with
  | none, none => .next s
  | some g, _ => if s.dev.state = .safe then .next s else .next (restoreBank g (wakeForWord r addr s))
  | none, some e =>
    if s.dev.state = .safe then .next s
    else
      let s1 := retireHeld r addr (wakeForWord r addr s)
      if !shadowOk then .next (failRestore e s1)
      else
        let s2 := supersede r addr (goodWord r addr (recover (fun x => x.region == r && x.addr == addr) s1))
        .next (bump (ck 511 7 r) 1 (restoredItem e s2))

end Sys2Proof.Machine
end

