-- ==== Sys2Proof/Machine/SchedOps.lean ====
section
/-! DEFINITION. What the schedulers of chapters 3 and 7 share: deficit round robin (R119, R246) and
the sojourn check of the heads a decision considers (R248). -/

namespace Sys2Proof.Machine

open Sys2Proof

/-- The outcome of a deficit round robin: the position picked, its turn and the deficits left. -/
structure Picked where
  pos : Nat
  turn : Nat
  deficits : Tab Nat
  deriving DecidableEq, Repr

/-- Deficit round robin over n positions, in `size` the bytes of each eligible head. The turn is one
above the position served last, 0 where none was. A position stays in turn while its deficit covers
its head; a position that the turn reaches gains its quantum. -/
def drrPick (n : Nat) (size : Nat → Option Nat) (quantum : Nat → Nat) :
    Nat → Nat → Tab Nat → Option Picked
  | 0, _, _ => none
  | fuel + 1, turn, d =>
    let here := turn - 1
    match (if turn = 0 then none else size here) with
    | some b =>
      if b ≤ tget 0 d here then
        some { pos := here, turn := turn, deficits := tset 0 d here (tget 0 d here - b) }
      else
        let next := turn % n
        let gain := if (size next).isSome then quantum next else 0
        drrPick n size quantum fuel (next + 1) (tset 0 d next (tget 0 d next + gain))
    | none =>
      let next := turn % n
      let gain := if (size next).isSome then quantum next else 0
      drrPick n size quantum fuel (next + 1) (tset 0 d next (tget 0 d next + gain))

/-- Turns that suffice for 8 positions: the largest frame over the least quantum, and one more. -/
def drrFuel : Nat := 400

/-- The copies at the head of one of a queue's lists that a test drops, each with its reason, and the queue
without them. -/
def splitHeads (mine : Copy → Bool) (reason : Copy → Option Nat) :
    List Copy → List (Nat × Copy) × List Copy
  | [] => ([], [])
  | c :: l =>
    if mine c then
      match reason c with
      | some r =>
        let (gone, rest) := splitHeads mine reason l
        ((r, c) :: gone, rest)
      | none => ([], c :: l)
    else
      let (gone, rest) := splitHeads mine reason l
      (gone, c :: rest)

/-- Why a decision drops the head it considers: its sojourn (R248), or an uncorrectable word met as its
cells are read (R249, R507). -/
def headFault (s : State) (q : Nat) (c : Copy) : Option Nat :=
  if overSojourn s q c then some 0x45 else if c.pkt.bad then some 0x4A else none

/-- The heads of one of a queue's lists dropped in one decision, until one stands (R248, R249). -/
def dropHeads (q : Nat) (mine : Copy → Bool) (s : State) : State :=
  let (gone, rest) := splitHeads mine (headFault s q) (queueOf s q).pkts
  if gone.isEmpty then s
  else
    gone.foldl (fun s e => dropResident q e.1 e.2 s)
      (modQueue q (fun x => { x with
        pkts := rest, hold := none, deficit := if rest.isEmpty then 0 else x.deficit }) s)

/-- The heads of a queue of one list. -/
def dropLate (q : Nat) (s : State) : State := dropHeads q (fun _ => true) s

end Sys2Proof.Machine
end

