-- ==== Sys2Proof/Machine/Pipeline.lean ====
section
/-! DEFINITION. One pass through a slice (R168 to R231, R528 to R531), and metering, replication and
enqueue (R226, R227, R240, R250 to R255). -/

namespace Sys2Proof.Machine

open Sys2Proof

/-! ### A slice's next packet (R29, R30, R196, R237, R247) -/

/-- The first waiting packet of a slice among recirculation queues, in the order given; a queue whose
shapers hold it back is passed over (R237, R247, R257). -/
def pickRecirc (k : Nat) : List Nat → State → Option Pkt × State
  | [], s => (none, s)
  | i :: l, s =>
    let q := 648 + i
    let s1 := dropHeads q (sliceOwns q k) s
    match (if shapersAllow s1 q then firstOf (sliceOwns q k) (queueOf s1 q).pkts else none) with
    | none => pickRecirc k l s1
    | some (c, rest) =>
      let s2 := crossPacket (linkNo 10 k) (headEntries c.pkt) c.pkt.cport c.pkt.booked
        (chargeShapers q c.pkt.stored (modQueue q (fun x => { x with pkts := rest }) s1))
      let s3 := { s2 with tm := { s2.tm with recircTurn := tset 0 s2.tm.recircTurn k ((i + 1) % 8) } }
      (some { c.pkt with pass := c.pkt.pass + 1 }, leaveQueue q c s3)

/-- The first waiting packet of a slice's host transmit rings, which crosses from the traffic manager as a recirculated
one does (R17, R29, R31, R257). -/
def pickHost (k : Nat) : List Nat → State → Option Pkt × State
  | [], s => (none, s)
  | r :: l, s =>
    let q := 644 + r
    let s1 := dropLate q s
    match (if shapersAllow s1 q then (queueOf s1 q).pkts else []) with
    | c :: _ =>
      if sliceOf s c.pkt = k then
        let s2 := crossPacket (linkNo 10 k) (headEntries c.pkt) c.pkt.cport c.pkt.booked
          (chargeShapers q c.pkt.stored (popQueue q s1))
        (some { c.pkt with slice := k }, leaveQueue q c s2)
      else pickHost k l s1
    | [] => pickHost k l s1

/-- The configured line rate of a slice's input in Mb/s: the ports of a lane group, or the channels that the
host has activated (R30). -/
def inputRate (s : State) (i : Nat) : Nat :=
  if i < 4 then 1000 * total ((List.range 4).map (fun j =>
    if (portOf s (4 * i + j)).enable then modeRate (portOf s (4 * i + j)).mode else 0))
  else 82944 * ((List.range 4).filter (fun c => (actOf s c).activate)).length

/-- The inputs of a slice at which a packet waits. -/
def readyInputs (s : State) (k : Nat) : List Nat :=
  (List.range 5).filter (fun i => !(inputList s k i).isEmpty)

/-- The input that the weighted round robin serves: each one that waits gains its weight, the one with the
most credit is served, the lower of equals, and it gives up what all have gained (R30; log entry 40). -/
def pickInput (s : State) (k : Nat) : Option (Nat × Tab Int) :=
  let l := readyInputs s k
  let weight := fun (i : Nat) => ((max 1 (inputRate s i) : Nat) : Int)
  let gained := l.foldl (fun t i => tset 0 t (k * 5 + i) (tget 0 t (k * 5 + i) + weight i)) s.cls.credits
  match l with
  | [] => none
  | i :: rest =>
    let best := rest.foldl (fun b j => if tget 0 gained (k * 5 + j) > tget 0 gained (k * 5 + b) then j else b) i
    let all := l.foldl (fun n j => n + weight j) (0 : Int)
    some (best, tset 0 gained (k * 5 + best) (tget 0 gained (k * 5 + best) - all))

/-- The packet that enters the slice: the line inputs by weighted round robin, then recirculation and host
rings in the clocks those leave idle (R30). Recirculation goes before the host rings, and these by number: the manual
gives no order among them (DESIGN CHOICE, log entry 52). -/
def nextPacket (k : Nat) (s : State) : Option Pkt × State :=
  match pickInput s k with
  | some (i, t) =>
    match inputList s k i with
    | p :: rest =>
      let s1 := takePacket (sliceLink p k) (headEntries p) p.cport p.booked (setInput k i rest s)
      (some p, { s1 with cls := { s1.cls with credits := t } })
    | [] => (none, s)
  | none =>
    let turn := tget 0 s.tm.recircTurn k
    match pickRecirc k ((List.range 8).map (fun j => (turn + j) % 8)) s with
    | (some p, t) => (some p, t)
    | (none, t) => pickHost k (List.range 4) t

/-! ### Entry to parsing (R193, R528 to R531) -/

/-- The island of a slice's stage: 0 parse, 1 match, 2 action (R512). -/
def sliceIsland (k stage : Nat) : Nat := 15 + 3 * k + stage

/-- The island at whose balls a packet came in. -/
def entryIsland (p : Pkt) : Nat :=
  match p.source with
  | 0 => 10 + p.inPort / 4
  | 1 => 8
  | _ => 40

/-- A trace begins with what the packet passed before its slice (R531). -/
def beginTrace (p : Pkt) (s : State) : State :=
  let first : Stamp :=
    { code := 1, island := entryIsland p, datum := p.cport, ts32 := BitVec.ofNat 32 (p.stamp / 65536) }
  let hold := match p.held with
    | some (pipe, t) =>
      [({ code := 2, island := 26 + pipe / 2, datum := pipe, ts32 := BitVec.ofNat 32 t } : Stamp)]
    | none => []
  { s with obs := { s.obs with
    open_ := s.obs.open_ ++ [{ packet := p.ident, stamps := first :: hold, copies := 0, reason := 0 }] } }

/-- Selection by the slice's LFSR, whose taps the manual does not give (R528, R530; log entry 5). -/
def selectPacket (k : Nat) (p : Pkt) (s : State) : Pkt × State :=
  if s.obs.mode = 0 then (p, s)
  else
    let (v, s1) := takeFree s
    let s2 := { s1 with obs := { s1.obs with lfsr := tset 0 s1.obs.lfsr k (BitVec.ofNat 32 v) } }
    if v % 2 ^ s.obs.rateN = 0 then
      if s.obs.mode = 1 then ({ p with sampled := true }, s2)
      else ({ p with traced := true }, beginTrace { p with traced := true } s2)
    else (p, s2)

/-- Pass 0 begins: the version tag and its reference, the packet ID, and selection (R193, R528). -/
def beginPass (k : Nat) (p : Pkt) (s : State) : Pkt × State :=
  if p.pass > 0 then (p, s)
  else
    let tag := currentTag s
    let n := tget 0 s.obs.passCount k
    let ref := k * 8 + tag
    let s1 := { s with
      cls := { s.cls with refs := tset 0 s.cls.refs ref (tget 0 s.cls.refs ref + 1) }
      obs := { s.obs with passCount := tset 0 s.obs.passCount k ((n + 1) % 2 ^ 31) } }
    selectPacket k { p with tag := tag, ident := k * 2 ^ 31 + n } s1

/-- The engine that takes the packet, and the next one's turn (R168). -/
def takeEngine (k : Nat) (s : State) : Nat × State :=
  let e := tget 0 s.cls.engine k
  (e, { s with cls := { s.cls with engine := tset 0 s.cls.engine k ((e + 1) % 50) } })

/-! ### Parse, match and decide -/

/-- What one pass has come to. -/
structure Decision where
  pkt : Pkt
  engineNo : Nat
  node : Nat
  parsed : Parsed
  key : Bytes
  found : Found
  rule : Option Rule
  hit : Option (Nat × EmEntry)
  dec : Option Nat
  verdict : Verdict

/-- h_0[7:0] of the packet's forwarding key (R367). -/
def aggHash (profile : Nat) (fwd : BitVec 320) (key : Bytes) : Nat :=
  (if profile = 15 then keyCrc 0 15 ((key.drop 8).take 40)
    else keyCrc 0 profile (beBytes 40 fwd.toNat)) % 256

/-- The parse of a pass with its key, MALFORMED set where R180 says so. -/
def parsePass (s : State) (p : Pkt) (pe : Nat) : Nat × Parsed × Fate :=
  let node := if p.pass = 0 then ptNode pe else p.node
  let r := parsePacket s p node
  let f := parseFate pe r.ending
  let flags := match r.ending, f with
    | .malformed _, .goes => setBit r.engine.flags 3 true
    | _, _ => r.engine.flags
  (node, { r with engine := { r.engine with flags := flags } }, f)

/-- Steps 1 to 8 of R225, with learning between 3 and 4. -/
def judgePass (p : Pkt) (f : Found) (fate : Fate) (key : Bytes) (s : State) : Verdict × State :=
  match fate with
  | .drops r => (.drop r, s)
  | .punts r => (puntTo (ptPuntRing f.pe) (some r), s)
  | .goes =>
    match admission s p f with
    | some r => (.drop r, s)
    | none =>
      let s1 := learnSource p f.pe key s
      if ptState f.pe = 2 then (.drop 0x35, s1) else (egressChecks s1 p f (choose s1 p f), s1)

/-- Words of the exact-match table that a lookup reads with a syndrome other than zero: those that belong to
a candidate entry are decided as any read is (R214, R497). -/
def readEntries (at_ : List Nat) (reads : List (Nat × EccVerdict)) (s : State) : State :=
  reads.foldl (fun s e =>
    if at_.any (fun pos => itemOfWord 0 e.1 == item 0 pos) && decide (e.1 < regionBytes 0) then
      decideWord 0 (e.1 / 16 * 16) e.2 (retireHeld 0 (e.1 / 16 * 16) s)
    else s) s

/-- A pass is an access to each of the slice's power domains (R477). -/
def touchSlice (k : Nat) (s : State) : State :=
  forEach (sliceDomains k) (fun d => modDomain d (fun x => { x with access := s.now })) s

/-- Parse, rule store, exact match and decision (R34, R225). -/
def decidePass (k : Nat) (p : Pkt) (reads : List (Nat × EccVerdict)) (s : State) : Decision × State :=
  let (e, s1) := takeEngine k s
  let pe := portEntry s1 p.inPort
  let (node, r, fate) := parsePass s1 p pe
  let x := r.engine
  let key := keyBytes p x
  let (rule, s2) := matchRules p k key x.zone x.flags
    (countParse p k r.addrs.length r.ending fate s1)
  let fwd := buildKey (profileAt s2 (ptProfile pe)).dst key
  let own := if learns s2 p pe then positions (ptProfile pe) (learnKey s2 pe key) else []
  let at_ := if ptProfile pe = 15 then [] else positions (ptProfile pe) fwd ++ own
  let s2 := readEntries at_ reads (crossLink (linkNo 7 k) 2 s2)
  let (hit, s3) := forwardLookup p k (ptProfile pe) fwd s2
  let f : Found := {
    pe := pe, rule := rule.map (·.action.toNat), entry := hit.map (·.2.action.toNat)
    vlan := resolveVlan s3 x.zone pe }
  let dec := if fate = .goes then deciding f else none
  let (v, s4) := judgePass p f fate key (countSource p k pe key s3)
  let vid := match dec with
    | some a => if emSetVlan a then emVid a else f.vlan
    | none => f.vlan
  let q := { p with
    flags := BitVec.ofNat 16 x.flags, hdrs := x.hdrs, prio := rule.map rulePriority
    cls := finalClass f dec, vid := vid, policer := finalPolicer f dec
    hash := aggHash (ptProfile pe) fwd key }
  ({ pkt := q, engineNo := e, node := node, parsed := r, key := key, found := f, rule := rule
     hit := hit, dec := dec, verdict := v }, s4)

/-! ### Samples (R528, R529) -/

/-- A header instance as R429 lays it out. -/
def hdrWord (h : HdrInst) : Nat := h.typ * 2 ^ 26 + h.off % 1024 * 2 ^ 16 + h.len

/-- The twelve header words, zeros beyond HCOUNT. -/
def hdrWords (l : List HdrInst) : Bytes := fit 48 (l.flatMap (fun h => leBytes 4 (hdrWord h)))

def endingCode : ParseEnd → Nat
  | .done => 0 | .depth => 1 | .malformed _ => 2 | .fail _ => 3 | .limit => 4

/-- The frame that a RECIRCULATE sends on: within LIM, without what the rule strips (R197). -/
def recircFrame (d : Decision) : Bytes :=
  (d.pkt.frame.take d.parsed.engine.lim).drop (ruleDecap (d.found.rule.getD 0))

/-- Why a RECIRCULATE drops its packet (R36, R197, R198). -/
def recircReason (d : Decision) : Option Nat :=
  if d.pkt.badFcs then some 0x01
  else if d.pkt.pass = 2 then some 0x39
  else if (recircFrame d).length < 14 then some 0x21
  else none

/-- The reason for which the action stage drops a packet, 0 where it does not; a frame whose FCS is wrong is dropped for
that (R36, R528). -/
def verdictReason (d : Decision) : Nat :=
  match d.verdict with
  | .drop r => if d.pkt.badFcs then 0x01 else r
  | .recirculate => (recircReason d).getD 0
  | .send _ _ => 0

/-- KIND of the winning rule, 0 CONTINUE without one (R189). -/
def Decision.kind (d : Decision) : Nat := (d.found.rule.map ruleKind).getD 0

/-- The 128 bytes of a sample, the sampled instruction chosen by v (R528). -/
def sampleBytes (s : State) (d : Decision) (v : Nat) : Bytes :=
  let p := d.pkt
  let n := d.parsed.addrs.length
  let pos := if n = 0 then 0 else v % n
  let addr := d.parsed.addrs.getD pos 0
  let word := if n = 0 then 0 else storeWord s addr
  let prio := p.prio.getD 0xFFFF
  let em := match d.hit with
    | some (i, _) => 2 ^ 31 + i / 131072 * 2 ^ 24 + i % 131072
    | none => 0
  leBytes 4 p.ident ++ leBytes 1 d.engineNo ++ leBytes 1 p.pass ++ leBytes 1 (endingCode d.parsed.ending)
    ++ leBytes 1 p.tag ++ leBytes 1 d.node ++ leBytes 1 n ++ leBytes 1 pos ++ leBytes 1 p.hdrs.length
    ++ leBytes 2 addr ++ leBytes 2 prio ++ leBytes 8 word ++ leBytes 4 (p.stamp / 65536)
    ++ leBytes 4 (min 0xFFFFFFFF (((mainNow s).stamp - p.stamp) / 65536)) ++ leBytes 4 em
    ++ leBytes 1 d.kind ++ leBytes 1 (verdictReason d) ++ leBytes 2 p.flags.toNat
    ++ d.key.take 8 ++ hdrWords p.hdrs ++ (d.key.drop 8).take 32

/-- A sample put into the slice's ring of 4,096; one it overwrites counts as lost (R528, R545). -/
def pushSample (k : Nat) (b : Sample) (s : State) : State :=
  let l := tget [] s.obs.samples k
  let s1 := if l.length < 4096 then s
    else bump (ck 545 10 k) 1 { s with obs := { s.obs with dumpLost := true } }
  bump (ck 545 9 k) 1 { s1 with obs := { s1.obs with
    samples := tset [] s1.obs.samples k ((b :: l).take 4096) } }

/-- The record of a selected packet's pass, and on pass 0 its copy to ring 3 (R528, R529). -/
def samplePass (k : Nat) (d : Decision) (s : State) : State :=
  if !d.pkt.sampled then s
  else
    let (v, s1) := takeFree s
    let s2 := pushSample k {
      record := sampleBytes s1 d v, time := d.pkt.stamp / 65536, cport := d.pkt.cport
      length := d.pkt.frame.length } s1
    if d.pkt.pass = 0 && (tget {} s2.hif.rx 3).enable then
      ringThreeCopy .sample 0 (ck 545 11 k) d.pkt s2
    else s2

/-! ### The action stage (R190, R193, R196 to R198, R226) -/

/-- A packet handed to the traffic manager. -/
def pushDecided (p : Pkt) (dests : List (Nat × CopyKind)) (s : State) : State :=
  let d : Decided := { pkt := p, dests := dests, at_ := s.now }
  sendPacket (linkNo 8 p.slice) 1 p.cport p.booked { s with cls := { s.cls with decided := s.cls.decided ++ [d] } }

/-- A packet dropped by its slice: its reference is released (R193); one whose FCS is wrong was never
more than a candidate for cut-through (R36). -/
def dropInSlice (reason : Nat) (p : Pkt) (s : State) : State :=
  dropPacket (if p.badFcs then 0x01 else reason) p (releaseTag p s)

/-- The mirror copy of a packet, where its rule or the deciding entry sets MIRROR (R226). -/
def mirrorDests (d : Decision) : List (Nat × CopyKind) :=
  if finalMirror d.found d.dec then [(643, CopyKind.mirror)] else []

/-- RECIRCULATE (R197, R198). The mirror copy is of the packet as it stood in this pass; it shares the frame's
cells, and goes ahead as a packet of its own (R226, R235). -/
def recirculate (d : Decision) (s : State) : State :=
  let p := d.pkt
  let a := d.found.rule.getD 0
  let frame := recircFrame d
  match recircReason d with
  | some r => dropInSlice r p s
  | none =>
    let m := mirrorDests d
    let s1 := if m.isEmpty then s
      else
        pushDecided { p with policer := none, tsReq := none, traced := false } m
          (book .repl p.cport p.booked (addRefs p.fid 1 s))
    let (fid, s2) := trimCells p.fid frame.length s1
    let q := { p with
      fid := fid, frame := frame, stored := frame.length, entered := p.booked, node := ruleNode a
      policer := none }
    pushDecided q [(648 + actTarget a, .forwarded)] s2

/-- What the action island counts of a decision: forwards, punts, recirculations and mirror copies
(R515). -/
def countAction (d : Decision) (s : State) : State :=
  let k := d.pkt.slice
  let mirror := fun (t : State) =>
    if finalMirror d.found d.dec then bump (ck 515 3 k) 1 t else t
  match d.verdict with
  | .drop _ => s
  | .recirculate => mirror (bump (ck 515 2 k) 1 s)
  | .send dests _ =>
    mirror (bump (ck 515 (if dests.any (fun e => e.2 == .punt) then 1 else 0) k) 1 s)

/-- The packet leaves the action stage as the decision says. -/
def actOn (d : Decision) (s : State) : State :=
  match d.verdict with
  | .drop r => dropInSlice r d.pkt s
  | .recirculate => recirculate d s
  | .send dests reason =>
    let (v, s1) := match reason with
      | some r => (r, s)
      | none => takeFree s
    pushDecided { d.pkt with reason := v % 256 } (dests ++ mirrorDests d) (releaseTag d.pkt s1)

/-- A slice that does not run discards the packet (R441, R452). -/
def discardInSlice (p : Pkt) (s : State) : State :=
  let s1 := if p.pass > 0 then releaseTag p s else s
  dropPacket (if s.dev.state == .safe then 0x72 else 0x47) p s1

/-- A slice can take a packet through: its power domains are on, and the bridge to the traffic manager has
room for what it decides (R24, R26). -/
def sliceRuns (s : State) (k : Nat) : Bool :=
  (sliceDomains k).all (domainOn s) && bridgeReady s (linkNo 8 k)

/-- PIPELINE_PASS (R168 to R231): the slice's next packet takes one pass. A packet that meets a sleeping
slice waits at its bridge, which asks for the wake (R26, R477). -/
def execPipelinePass (slice : Fin 2) (s : State) (reads : List (Nat × EccVerdict) := []) : Answer :=
  let k := slice.val
  if !sliceRuns s k then .next (wantAll (sliceDomains k) s)
  else match nextPacket k s with
  | (none, t) => .next t
  | (some p0, s0) =>
    if !inService s0 then .next (discardInSlice p0 s0)
    else
      let (p, s1) := beginPass k p0 s0
      let (d, s2) := decidePass k p reads (stampAt p 3 (sliceIsland k 0) p.pass (touchSlice k s1))
      let s3 := stampAt d.pkt 4 (sliceIsland k 2) d.kind s2
      .next (actOn d (countAction d (samplePass k d s3)))

/-! ### Metering, replication and enqueue (R226, R227, R235, R240, R250 to R255, R367) -/

/-- The queue a copy joins once the distribution table has been applied (R367). -/
def distribute (s : State) (p : Pkt) (q : Nat) : Nat :=
  if q ≥ 128 then q
  else
    match aggOfPort s (q / 8) with
    | none => q
    | some a =>
      let m := (aggOf s a).distributing.toNat
      let l := setBits 16 m
      match l[Config.distribution m p.hash % max 1 l.length]? with
      | some port => 8 * port + q % 8
      | none => q

/-- A cut-through egress is open to a copy: R35. -/
def cutThrough (s : State) (p : Pkt) (q : Nat) : Bool :=
  s.dev.inForce == .latency && p.source == 0 && decide (q < 128) && p.pass == 0 && !p.decrypted
    && decide (modeRate (portOf s (q / 8)).mode ≤ modeRate (portOf s p.inPort).mode)
    && (held s q).isEmpty && !paused s (q / 8) (q % 8) && (gateOf s (q / 8)).active.isNone

/-- One copy enqueued; a frame whose FCS is wrong goes on only by cut-through (R35, R36); a packet that
recirculates keeps its reference only in the queue (R193). -/
def enqueueCopy (q : Nat) (p : Pkt) (s : State) : State :=
  if p.badFcs && !cutThrough s p q then dropPacket 0x01 p s
  else if 648 ≤ q ∧ q < 656 then
    match enqueueCheck q p s with
    | none => joinQueue q p s
    | some r => refuseCopy q r p (releaseTag p s)
  else offerCopy q p s

/-- Metering (R252, R255): the packet's colour, and whether it is dropped. -/
def meterPacket (p : Pkt) (s : State) : Pkt × Bool × State :=
  match p.policer.filter (fun n => !itemLost s 3 (item 1 n)) with
  | none => (p, false, s)
  | some n =>
    let x := policerOf s n
    let (c, y) := meter x (tickNo s) p.flags.toNat p.frame.length
    let r := colourRow c
    let s1 := bump (ck 255 (r + 1) n) p.frame.length (bump (ck 255 r n) 1 (setPolicer n y s))
    ({ p with colour := c }, c == .red && polRedDrop x.desc.toNat, s1)

/-- The position of the copy a trace follows: the one in the lowest-numbered queue (R532). -/
def lowestQueue (l : List (Nat × CopyKind)) : Nat :=
  l.foldl (fun m e => min m e.1) 1024

/-- The copies of a packet made: the first keeps its timestamp request, the trace follows the lowest
queue (R227, R235, R431, R532). -/
def copiesOf (p : Pkt) (l : List (Nat × CopyKind)) : List (Nat × Pkt) :=
  let low := lowestQueue l
  let mark := (l.findIdx? (fun e => e.1 == low)).getD 0
  l.zipIdx.map (fun e =>
    (e.1.1, { p with
      kind := e.1.2, reason := if e.1.2 = .punt then p.reason else 0
      tsReq := if e.2 = 0 then p.tsReq else none
      traced := p.traced && e.2 == mark }))

/-- The number of copies noted in a trace (R532). -/
def noteCopies (p : Pkt) (n : Nat) (s : State) : State :=
  if p.traced then
    let add := fun (t : Trace) => if t.packet = p.ident then { t with copies := n } else t
    { s with obs := { s.obs with open_ := s.obs.open_.map add } }
  else s

/-- The packet that the policers take next: the one presented first, and of two presented at one instant
slice 0's (R253). -/
def nextDecided (l : List Decided) : Option (Decided × List Decided) :=
  match l with
  | [] => none
  | d :: rest =>
    match (if d.pkt.slice = 0 then none else rest.findIdx? (fun e => e.at_ == d.at_ && e.pkt.slice == 0)) with
    | none => some (d, rest)
    | some i =>
      match rest[i]? with
      | some e => some (e, d :: rest.eraseIdx i)
      | none => some (d, rest)

/-- ENQUEUE (R226, R227, R235, R240, R253): the traffic manager meters the next decided packet, makes its copies
and enqueues each. -/
def execEnqueue (s : State) : Answer :=
  match nextDecided s.cls.decided with
  | none => .next s
  | some (d, rest) =>
    let s0 := takePacket (linkNo 8 d.pkt.slice) 1 d.pkt.cport d.pkt.booked { s with cls := { s.cls with decided := rest } }
    let recirc := d.dests.any (fun e => decide (648 ≤ e.1) && decide (e.1 < 656))
    if !inService s0 then
      .next (dropPacket (if s.dev.state == .safe then 0x72 else 0x47) d.pkt
        (if recirc then releaseTag d.pkt s0 else s0))
    else
      let (p, red, s1) := meterPacket d.pkt s0
      if red then .next (dropPacket 0x40 p s1)
      else
        let l := d.dests.map (fun e => (distribute s1 p e.1, e.2))
        let s2 := forEach ((l.drop 1).map (·.1)) (fun _ s => book .repl p.cport p.booked s)
          (noteCopies p (l.length - 1) (addRefs p.fid (l.length - 1) s1))
        .next ((copiesOf p l).foldl (fun s e => enqueueCopy e.1 e.2 s) s2)

end Sys2Proof.Machine
end

