-- ==== Sys2Proof/Machine/HostRings.lean ====
section
/-! DEFINITION. The host packet rings: DEVICE_SET_RING (R427, R428), delivery to receive rings (R429) and
the fetch from transmit rings (R430, R431). -/

namespace Sys2Proof.Machine

open Sys2Proof

def rxRing (s : State) (r : Nat) : Ring := tget {} s.hif.rx r
def txRing (s : State) (r : Nat) : Ring := tget {} s.hif.tx r

def setRx (r : Nat) (x : Ring) (s : State) : State :=
  { s with hif := { s.hif with rx := tset {} s.hif.rx r x } }

def setTx (r : Nat) (x : Ring) (s : State) : State :=
  { s with hif := { s.hif with tx := tset {} s.hif.tx r x } }

/-! ### DEVICE_SET_RING (R427, R428, R623) -/

def ringArgs (a : Bytes) : List Arg :=
  let tx := bit (byteAt a 0) 2
  [flagArg 0 3, flagArg 1 1,
    rangeArg 2 2 (fun v => isPow2 v && decide (64 ≤ v) && decide (v ≤ 16384)),
    rangeArg 4 4 (fun v => if tx then v == 0
      else decide (256 ≤ v) && decide (v ≤ 16384) && v % 64 == 0),
    rangeArg 8 8 (fun v => v % 64 == 0), boundArg 16 4 1 1000000, boundArg 20 2 1 4096]

/-- The ring after the command: its bucket is full when it is enabled, and clipped otherwise (R428); its
head and tail start at 0 (R623). -/
def ringFrom (s : State) (x : Ring) (a : Bytes) : Ring :=
  let on := bit (byteAt a 1) 0
  let full := le a 20 2 * 1000000000000
  let fresh := on && !x.enable
  { enable := on, entries := le a 2 2, bufLen := le a 4 4, base := BitVec.ofNat 64 (le a 8 8)
    rate := le a 16 4, burst := le a 20 2
    tokens := if fresh then full else min full (ringTokens s x), filled := s.now
    head := if fresh then 0 else x.head, tail := if fresh then 0 else x.tail }

/-- BASE, ENTRIES or BUF_LEN would change (R427). -/
def ringMoves (x y : Ring) : Bool :=
  x.base != y.base || x.entries != y.entries || x.bufLen != y.bufLen

def cmdDeviceSetRing : CmdSpec where
  opcode := 0x0105
  lenOk := fixedLen 24
  args := ringArgs
  legal := clsQ
  run := fun _ a s =>
    let r := byteAt a 0 % 4
    let tx := bit (byteAt a 0) 2
    let x := if tx then txRing s r else rxRing s r
    let y := ringFrom s x a
    if x.enable && ringMoves x y then refuseFree stBusy s
    else if tx then done (setTx r y s)
    else if y.enable then done (setRx r y s)
    else done (flushQueue 0x47 (640 + r) (setRx r y s))

/-- DEVICE_SET_RING (R427, R428): disabling a receive ring discards what waits in its queue. -/
def execDeviceSetRing (n : Fin 16) (s : State) : Answer := .next (takeUp cmdDeviceSetRing n s)

/-! ### Delivery (R247, R429) -/

/-- Position of a count in a ring (R623). -/
def ringPos (x : Ring) (n : Word32) : Nat := x.base.toNat + 32 * (n.toNat % max 1 x.entries)

/-- KIND of a receive descriptor (R429). -/
def CopyKind.code : CopyKind → Nat
  | .punt => 1 | .mirror => 2 | .trap => 3 | .sample => 4 | .forwarded => 5

/-- The 32-byte receive descriptor (R429). -/
def rxDescriptor (p : Pkt) (bufAddr : Nat) (cut : Bool) : Bytes :=
  leBytes 8 bufAddr ++ leBytes 2 p.stored ++ leBytes 1 p.kind.code ++ leBytes 1 p.reason
    ++ leBytes 1 (p.inPort + 64 * p.source)
    ++ leBytes 1 (1 + 2 * b2n cut + 4 * b2n p.decrypted + 8 * b2n (p.flags.getLsbD 3)
      + 16 * b2n (p.flags.getLsbD 0) + 32 * b2n (p.flags.getLsbD 4))
    ++ leBytes 2 p.portId.toNat ++ leBytes 4 (p.stamp / 65536)
    ++ leBytes 1 (p.cls + 8 * p.tag + 64 * p.pass) ++ leBytes 1 p.hdrs.length
    ++ leBytes 2 (p.prio.getD 0xFFFF) ++ zeros 8

/-- A receive queue has something to do in its turn: its shapers allow a frame (R256, R257). -/
def rxWaits (s : State) (r : Nat) : Bool :=
  (rxRing s r).enable && dmaOk s && !(queueOf s (640 + r)).pkts.isEmpty && shapersAllow s (640 + r)

/-- Queue r is the next in the round robin of R247. -/
def rxTurn (s : State) (r : Nat) : Bool :=
  ((List.range 4).map (fun i => (s.tm.hostTurn + i) % 4)).find? (rxWaits s) == some r

/-- A frame written to its buffer with its prefix and descriptor, and gone from the device (R243, R429,
R431, R535). -/
def writeRx (r : Nat) (bufAddr : Nat) (c : Copy) (s : State) : State :=
  let x := rxRing s r
  let p := c.pkt
  let room := x.bufLen - 64
  let cut := decide (p.frame.length > room)
  let s1 := emit (.hostWrite (ringPos x x.head) (rxDescriptor p bufAddr cut))
    (emit (.hostWrite bufAddr (hdrWords p.hdrs ++ zeros 16 ++ p.frame.take room)) s)
  let s2 := bump (ck 440 8 r) 1 (setRx r { x with head := x.head + 1 } s1)
  let s3 := book .output p.cport p.booked (leaveQueue (640 + r) c s2)
  let s4 := stampAt p 11 40 r (stampAt p 7 24 (640 + r) s3)
  causeVec (3 + r) (endTrace p 0 (returnCells c (lostStamp p 2 0 s4)))

/-- HOST_RX_DELIVER (R247, R248, R428, R429). -/
def execHostRxDeliver (r : Fin 4) (bufAddr : Word64) (s : State) : Answer :=
  if !rxTurn s r then .next s
  else
    let q := 640 + r.val
    let s0 := { s with tm := { s.tm with hostTurn := (r.val + 1) % 4 } }
    let s1 := dropLate q s0
    match (queueOf s1 q).pkts with
    | [] => .next s1
    | c :: _ =>
      let x := rxRing s1 r
      let s2 := popQueue q s1
      if x.head = x.tail then .next (dropResident q 0x49 c (bump (ck 440 10 r) 1 s2))
      else .next (writeRx r bufAddr.toNat c (crossPacket (linkNo 16 0) (entriesFor .packet c.pkt.stored) c.pkt.cport c.pkt.booked
        (chargeShapers q c.pkt.stored s2)))

/-! ### Fetch (R430, R431) -/

/-- A transmit descriptor's fields break a rule of R430. -/
def txMalformed (d : Bytes) (data : Option Bytes) : Bool :=
  !(decide (64 ≤ le d 8 2) && decide (le d 8 2 ≤ 9728)) || decide (byteAt d 10 ≥ 2)
    || decide (le d 12 2 ≥ 2 ^ 15) || (slice d 15 17).any (· != 0) || data.isNone

/-- The frame as the device takes it: its last four bytes are a fresh FCS (R430). -/
def txFrame (d : Bytes) (data : Option Bytes) : Bytes :=
  let body := fit (le d 8 2 - 4) (data.getD [])
  body ++ fcsBytes body

/-- The packet of a transmit descriptor. -/
def txPacket (r : Nat) (d : Bytes) (data : Option Bytes) (stamp : Nat) : Pkt :=
  { frame := txFrame d data, stored := le d 8 2, inPort := 16 + r, source := 2, cport := 17
    stamp := stamp
    tsReq := if bit (byteAt d 10) 0 then some (false, le d 12 2 % 2 ^ 15) else none }

/-- The descriptor written back with STATUS and DONE, its cause raised (R425, R430, R440). -/
def closeTx (r status : Nat) (d : Bytes) (s : State) : State :=
  let x := txRing s r
  let b := fit 32 d
  let back := b.take 11 ++ leBytes 1 status ++ (b.drop 12).take 2 ++ leBytes 1 1 ++ b.drop 15
  let s1 := emit (.hostWrite (ringPos x x.head) back) s
  causeVec (7 + r) (bump (ck 440 8 (4 + r)) 1 (setTx r { takeToken s x with head := x.head + 1 } s1))

/-- A descriptor can be fetched: the ring enabled, DMA allowed, one filled, and a token there (R428). -/
def txReady (s : State) (r : Nat) : Bool :=
  let x := txRing s r
  x.enable && dmaOk s && x.head != x.tail && ringHasToken s x && afterLoading s && portsSend s

/-- HOST_TX_FETCH (R29, R31, R428, R430, R431, R441). -/
def execHostTxFetch (r : Fin 4) (desc : Bytes) (data : Option Bytes) (s : State) : Answer :=
  if !txReady s r then .next s
  else
    let (t, s0) := stampOn 40 s
    let p := txPacket r desc data t
    let s1 := book .input 17 p.stored s0
    if txMalformed desc data then .next (dropPacket 0x70 p (closeTx r 0x70 desc s1))
    else if s.dev.state = .safe then .next (dropPacket 0x72 p (closeTx r 0 desc s1))
    else if !inService s then .next (dropPacket 0x71 p (closeTx r 0x71 desc s1))
    else
      let (p1, s2) := admitFrame p
        (crossPacket (linkNo 16 1) (entriesFor .packet p.stored) 17 p.stored (closeTx r 0 desc s1))
      .next (offerCopy (644 + r.val) p1 s2)

end Sys2Proof.Machine
end

