-- ==== Sys2Proof/Machine/Maintenance.lean ====
section
/-! DEFINITION. Journal, recorder and maintenance commands (R435, R470 to R472), checkpoints (R556), replay
(R558, R559) and the firmware slots (R561 to R564, R583). -/

namespace Sys2Proof.Machine

open Sys2Proof

/-! ### Journal (R435, R470) -/

def cmdJournalRead : CmdSpec where
  opcode := 0x0C01
  lenOk := fixedLen 9
  args := fun _ => [anyArg 0 8, boundArg 8 1 1 30]
  legal := clsQ
  run := fun _ a s =>
    doneWith ((List.range (byteAt a 8)).flatMap (fun k => journalAt s (le a 0 8 + k))) s

/-- JOURNAL_READ (R435, R470). -/
def execJournalRead (n : Fin 16) (s : State) : Answer := .next (takeUp cmdJournalRead n s)

/-! ### Recorder (R470, R555, R556) -/

/-- The recorder's mode set: a freeze is reported with the ring offset it stands at, and recording that
resumes begins with a gap record (R474, R555). -/
def setRecorder (m : Nat) (s : State) : State :=
  let s0 := amberSkip s
  let old := s0.mnt.recorder
  match m with
  | 0 => { s0 with mnt := { s0.mnt with recorder := .stopped } }
  | 1 => { s0 with mnt := { s0.mnt with
      recorder := .running, gapDue := s0.mnt.gapDue || old != .running } }
  | _ =>
    if old == .frozen then s0
    else raise 0x0C01 false 0xFF (leBytes 4 (s0.mnt.ringOffset % ringSize))
      { s0 with mnt := { s0.mnt with recorder := .frozen } }

def cmdRecorderSet : CmdSpec where
  opcode := 0x0C02
  lenOk := fixedLen 1
  args := fun _ => [boundArg 0 1 0 2]
  legal := clsQ
  run := fun _ a s => done (setRecorder (byteAt a 0) s)

/-- RECORDER_SET (R470, R555). -/
def execRecorderSet (n : Fin 16) (s : State) : Answer := .next (takeUp cmdRecorderSet n s)

/-- So many bytes of the ring from an offset. -/
def ringBytes (off len : Nat) (s : State) : Bytes × State :=
  ((List.range len).map (fun i => ringByte s ((off + i) % ringSize)), { s with fresh := s.fresh + ringSize })

/-- The copy of a part of the ring in host memory. -/
def copyRing (addr off len : Nat) (s : State) : State :=
  let (b, s1) := ringBytes off len s
  emit (.hostWrite addr b) s1

def cmdRecorderRead : CmdSpec where
  opcode := 0x0C03
  lenOk := fixedLen 16
  args := fun _ =>
    [anyArg 0 8, boundArg 8 4 0 (2 ^ 28 - 1),
      rangeArg 12 4 (fun v => decide (v % 1048576 = 0) && decide (0 < v) && decide (v ≤ 2 ^ 28))]
  legal := clsQ
  deadline := 1000000
  run := fun _ a s =>
    if s.mnt.recorder == .running then refuseFree stBusy s
    else if dmaOk s then done (copyRing (le a 0 8) (le a 8 4) (le a 12 4) s)
    else .waits false s

/-- RECORDER_READ (R448, R470): without DMA it waits for its deadline (log entry 29). -/
def execRecorderRead (n : Fin 16) (s : State) : Answer := .next (takeUp cmdRecorderRead n s)

/-- A checkpoint of a free number of parts, at most 8 MiB: the first part is held, the others follow it in the
ring (R553, R556). -/
def writeCheckpoint (s : State) : State :=
  let (v, s1) := takeFree { s with mnt := { s.mnt with checkAt := s.now, checkDue := false } }
  let parts := 1 + v % 2048
  let s2 := amberStart 0x000B
    (leBytes 4 s1.mnt.checkpoint ++ leBytes 4 0 ++ leBytes 4 parts) (4096 * (parts - 1)) s1
  if s2.mnt.recorder == .running then
    { s2 with mnt := { s2.mnt with checkpoint := s2.mnt.checkpoint + 1 } }
  else s2

/-- CHECKPOINT (R556): at once where the device state has changed, else 30 s after the last one. -/
def execCheckpoint (s : State) : Answer :=
  if afterLoading s then
    .next (writeCheckpoint (if s.mnt.checkDue then s else passTo (s.mnt.checkAt + ms 30000) s))
  else .next s

/-! ### Firmware slots (R471, R472, R561 to R564, R583) -/

def cmdMaintReadVersion : CmdSpec where
  opcode := 0x0D01
  lenOk := fixedLen 0
  args := fun _ => []
  legal := clsQ
  run := fun _ _ s =>
    doneWith (leBytes 1 s.mnt.slot ++ zeros 3 ++ leBytes 4 (slotVersion s 0) ++ leBytes 4 (slotVersion s 1)
      ++ [0x10]) s

/-- MAINT_READ_VERSION (R471). -/
def execMaintReadVersion (n : Fin 16) (s : State) : Answer := .next (takeUp cmdMaintReadVersion n s)

/-- A slot erased: its control sector is invalid and its image gone (R564). -/
def eraseSlot (k : Nat) (s : State) : State := modSlot k (fun _ => {}) s

def cmdMaintFlashWrite : CmdSpec where
  opcode := 0x0D02
  lenOk := fixedLen 24
  args := fun _ => [boundArg 0 1 0 1, anyArg 8 8, boundArg 16 4 0 67108864, anyArg 20 4]
  legal := clsL
  deadline := 300000000
  background := true
  run := fun _ a s =>
    if byteAt a 0 = s.mnt.slot then refuseFree stBusy s
    else if le a 16 4 > imageMax then refuseWord stResource 2 s
    else .waits false (eraseSlot (byteAt a 0) s)

/-- MAINT_FLASH_WRITE (R471, R472, R561, R583): BACKGROUND_COMMAND_DONE ends it. -/
def execMaintFlashWrite (n : Fin 16) (s : State) : Answer := .next (takeUp cmdMaintFlashWrite n s)

/-- A flash write that runs targets a slot. -/
def slotWritten (s : State) (k : Nat) : Bool :=
  s.hif.running.any (fun r => r.opcode == 0x0D02 && byteAt r.args 0 == k)

/-- A slot selected: trial, one generation above the other's (R564). -/
def selectSlot (k : Nat) (s : State) : State :=
  let g := match slotControl s (1 - k) with
    | some (n, _) => (n + 1) % 2 ^ 32
    | none => 1
  modSlot k (fun x => { x with sector := sectorBytes g .trial }) s

def cmdMaintSelectImage : CmdSpec where
  opcode := 0x0D03
  lenOk := fixedLen 1
  args := fun _ => [boundArg 0 1 0 1]
  legal := clsL
  run := fun _ a s =>
    let k := byteAt a 0
    if slotWritten s k then refuseFree stBusy s
    else if authentic s (slotImage s k) then done (selectSlot k s)
    else .final stAuth [] s

/-- MAINT_SELECT_IMAGE (R471, R472, R563, R564). -/
def execMaintSelectImage (n : Fin 16) (s : State) : Answer := .next (takeUp cmdMaintSelectImage n s)

/-! ### Self-test and replay (R471, R558, R559) -/

def cmdMaintSelfTest : CmdSpec where
  opcode := 0x0D04
  lenOk := fixedLen 4
  args := fun _ => [anyArg 0 4]
  legal := clsM
  deadline := 60000000
  background := true
  run := fun _ _ s => .waits false s

/-- MAINT_SELF_TEST (R471). -/
def execMaintSelfTest (n : Fin 16) (s : State) : Answer := .next (takeUp cmdMaintSelfTest n s)

/-- The version recorded at a start that the ring still holds at an offset (R558). -/
def startAt (s : State) (off : Nat) : Option Nat :=
  (s.mnt.starts.find? (fun e =>
    e.1 % ringSize == off && decide (s.mnt.ringOffset ≤ e.1 + ringSize))).map (·.2)

def cmdMaintReplay : CmdSpec where
  opcode := 0x0D05
  lenOk := fixedLen 12
  args := fun _ => [anyArg 0 8, anyArg 8 4]
  legal := clsM
  deadline := 600000000
  background := true
  run := fun _ a s =>
    if s.mnt.recorder == .running then refuseFree stBusy s
    else
      match startAt s (le a 0 8) with
      | none => refuseWord stRange 0x040 s
      | some v =>
        if [0, 1].any (fun k => slotVersion s k == v && authentic s (slotImage s k)) then .waits false s
        else refuse stNotFound s

/-- MAINT_REPLAY (R471, R558, R559). -/
def execMaintReplay (n : Fin 16) (s : State) : Answer := .next (takeUp cmdMaintReplay n s)

/-- A command whose effects are undone as it is stopped: any but a flash write, which has erased its slot and leaves it
invalid (R472, R583; log entry 29). -/
def undoes (r : Running) : Bool := decide (r.opcode ≠ 0x0D02)

/-- The background command that runs ends as though its deadline had passed (R415, R448). -/
def abortBackground (s : State) : State :=
  match s.hif.running.find? (fun r => r.background) with
  | some r => conclude r.mbx stTimeout (undoes r) false [] s
  | none => s

def cmdMaintAbort : CmdSpec where
  opcode := 0x0D06
  lenOk := fixedLen 0
  args := fun _ => []
  legal := clsQ
  run := fun _ _ s => doneWith (leBytes 2 ((background? s).getD 0)) (abortBackground s)

/-- MAINT_ABORT (R448, R471). -/
def execMaintAbort (n : Fin 16) (s : State) : Answer := .next (takeUp cmdMaintAbort n s)

/-! ### The end of a background command (R412) -/

/-- A flash write ends: stored where the image's CRC-32C is right, else the slot stays invalid (R472, R564);
a read, an erase or a program that took too long ends it with TIMEOUT (R583; log entry 29). -/
def endFlashWrite (r : Running) (image : Option Bytes) (s : State) : State :=
  match image with
  | none => conclude r.mbx stTimeout false false [] s
  | some img =>
    let b := fit (le r.args 16 4) img
    if (crc32c b).toNat = le r.args 20 4 then
      conclude r.mbx stOk false false []
        (modSlot (byteAt r.args 0) (fun _ => { sector := sectorBytes 0 .stored, image := b }) s)
    else
      let (v, s1) := takeFree s
      conclude r.mbx stResource false false (leBytes 4 v) s1

/-- BACKGROUND_COMMAND_DONE (R412, R418, R471, R472, R559, R583). -/
def execBackgroundCommandDone (n : Fin 16) (res : BgResult) (s : State) : Answer :=
  match s.hif.running.find? (fun r => r.mbx == n.val && r.background) with
  | none => .next s
  | some r =>
    match res with
    | .flash image => .next (if r.opcode = 0x0D02 then endFlashWrite r image s else s)
    | .selfTest l =>
      .next (if r.opcode = 0x0D04 then
          conclude r.mbx stOk false false (fit (popCount 32 (le r.args 0 4)) l) s
        else s)
    | .replay d =>
      .next (if r.opcode = 0x0D05 then conclude r.mbx stOk false false (leBytes 8 d.toNat) s else s)
    | .internal => .next (conclude r.mbx stInternal (undoes r) false [] s)

end Sys2Proof.Machine
end

