-- ==== Sys2Proof/Machine/Deadline.lean ====
section
/-! DEFINITION. Opcodes and what the mailbox steps do without a command's own execution: an opcode that
does not exist and headers at fault (R414), passed deadlines (R415), and reads of RC fields (R9). -/

namespace Sys2Proof.Machine

open Sys2Proof

/-- Opcode group 0x01. -/
def deviceCommands : List CmdSpec :=
  [cmdDeviceReadState, cmdDeviceStart, cmdDeviceStop, cmdDeviceSetProfile, cmdDeviceSetRing,
   cmdDeviceEnterMaintenance, cmdDeviceLeaveMaintenance, cmdDeviceLeaveSafe, cmdDeviceReset,
   cmdDeviceEraseKeys, cmdDeviceNop, cmdDeviceReadIdentity]

/-- Opcode group 0x02. -/
def fibreCommands : List CmdSpec :=
  [cmdFibreSetChannel, cmdFibreSetBond, cmdFibreSetGroups, cmdFibreSetPortId, cmdFibreSetUpstream,
   cmdFibreSetAllocQueues, cmdFibreSetHeKey, cmdFibreSetPolicy, cmdFibreReadStatus,
   cmdFibreReadCounters]

/-- Opcode group 0x03. -/
def parseCommands : List CmdSpec :=
  [cmdParseLoad, cmdParseInstall, cmdRulesSetComparator, cmdRulesBegin, cmdRulesAdd,
   cmdRulesRemove, cmdRulesAbort, cmdRulesCommit, cmdRulesRead]

/-- Opcode group 0x04. -/
def tableCommands : List CmdSpec :=
  [cmdTableSetProfile, cmdTableAdd, cmdTableModify, cmdTableDelete, cmdTableRead, cmdTableSetPort,
   cmdTableSetVlan, cmdTableSetAging, cmdTableReadAged]

/-- Opcode group 0x05. -/
def trafficCommands : List CmdSpec :=
  [cmdTrafficSetQueue, cmdTrafficFlushQueue, cmdTrafficSetPolicer, cmdTrafficSetShaper,
   cmdTrafficSetPause, cmdTrafficSetGate, cmdTrafficSetHistogram, cmdTrafficRead,
   cmdTrafficReadHistogram]

/-- Opcode group 0x06. -/
def cipherCommands : List CmdSpec :=
  [cmdCipherSetCak none, cmdCipherSetMacsec, cmdCipherSetThreshold, cmdCipherReadStatus]

/-- Opcode group 0x07. -/
def timeCommands : List CmdSpec :=
  [cmdTimeSet, cmdTimeStep, cmdTimeSetServo, cmdTimeSelectDomain, cmdTimeSetFibre,
   cmdTimeReadFibre, cmdTimeSetSource, cmdTimeSetIo, cmdTimeSetPtp, cmdTimeReadStatus]

/-- Opcode group 0x08. -/
def portCommands : List CmdSpec :=
  [cmdPortConfigure, cmdPortSetFilter, cmdPortSetAddress, cmdPortSetAggregation, cmdPortSetMgmt,
   cmdPortSetLldp, cmdPortReadStatus, cmdPortReadCounters]

/-- Opcode group 0x09. -/
def laneCommands : List CmdSpec :=
  [cmdLaneConfigure, cmdLaneSetTest, cmdLaneInject, cmdLaneReadStatus, cmdLaneReadCounters]

/-- Opcode group 0x0A. -/
def powerCommands : List CmdSpec :=
  [cmdPowerSetState, cmdPowerSetCap, cmdPowerSetDroop, cmdPowerReadStatus]

/-- Opcode group 0x0B. -/
def observabilityCommands : List CmdSpec :=
  [cmdObsSetCounter, cmdObsSetDump, cmdObsReadGroup, cmdObsSetSampling, cmdObsReadAudit,
   cmdObsSetIpfix, cmdObsSetTrap, cmdObsReadDrops, cmdObsSetEcc]

/-- Opcode group 0x0C. -/
def journalCommands : List CmdSpec :=
  [cmdJournalRead, cmdRecorderSet, cmdRecorderRead]

/-- Opcode group 0x0D. -/
def maintenanceCommands : List CmdSpec :=
  [cmdMaintReadVersion, cmdMaintFlashWrite, cmdMaintSelectImage, cmdMaintSelfTest, cmdMaintReplay,
   cmdMaintAbort]

/-- Every command of the reference (R450 to R472). -/
def allCommands : List CmdSpec :=
  deviceCommands ++ fibreCommands ++ parseCommands ++ tableCommands ++ trafficCommands ++ cipherCommands ++ timeCommands ++ portCommands ++ laneCommands ++ powerCommands ++ observabilityCommands ++ journalCommands ++ maintenanceCommands

/-- The command that an opcode names. -/
def cmdOf (opcode : Nat) : Option CmdSpec := allCommands.find? (fun c => c.opcode == opcode)

/-! ### UNKNOWN_OPCODE (R414) -/

/-- A command in mailbox n fails one of steps 1 to 3, or is a repeat. -/
def headerFails (c : Option CmdSpec) (n : Nat) (s : State) : Bool :=
  let seq := BitVec.ofNat 32 (mbxField s n 0x000 4)
  let len := mbxField s n 0x006 2
  let d := match lastSeq s n with
    | none => 1
    | some l => subMod 32 seq.toNat l.toNat
  seq == 0 || d == 0 || decide (d ≥ 2 ^ 31)
    || (stepThree c n len (mbxRead s n 0x040 (min len 1984)) s).isSome

/-- UNKNOWN_OPCODE (R413, R414): the ring that is next names no command, or its header fails. -/
def execUnknownOpcode (n : Fin 16) (s : State) : Answer :=
  match frontBell s n with
  | none => .next s
  | some b =>
    let c := cmdOf (mbxField s n 0x004 2)
    .next (if headerFails c n s then judge c n b none (popBell s) else s)

/-! ### COMMAND_DEADLINE_EXPIRY (R415) -/

/-- A waiting command has taken a step that is not undone: an erasure, an entry to D3, an exit, or a doze
that is agreed. -/
def irrevocable (s : State) (r : Running) : Bool :=
  if r.opcode = 0x010A then true
  else if r.opcode = 0x0A01 then
    !(s.pow.phase == .toD1 || s.pow.phase == .fromD1 || s.fib.doze.phase == .requested)
  else false

/-- What a waiting command has begun is undone. -/
def undo (r : Running) (s : State) : State :=
  if r.opcode = 0x0A01 then
    if s.fib.doze.phase == .requested then
      { s with fib := { s.fib with doze := { s.fib.doze with phase := .idle } } }
    else { s with pow := { s.pow with phase := .idle } }
  else s

/-- COMMAND_DEADLINE_EXPIRY (R415): a waiting command is undone; the command next in line is judged in
full, and ends before step 6, or after the items that were done. Where Knarrasar finds an inconsistency in itself the
command ends at once with INTERNAL (R418). -/
def execCommandDeadlineExpiry (n : Fin 16) (items : Nat) (s : State) (internal : Bool := false) : Answer :=
  match s.hif.running.find? (fun r => r.mbx == n.val) with
  | some r =>
    let s1 := if internal then s else passTo r.deadline s
    .next (if irrevocable s1 r then s1
      else conclude n (if internal then stInternal else stTimeout) (undoes r) false [] (undo r s1))
  | none =>
    match frontBell s n with
    | none => .next s
    | some b =>
      let c := cmdOf (mbxField s n 0x004 2)
      let dl := mbxField s n 0x008 4
      let own := match c with
        | some c => c.deadline
        | none => 10000
      let s1 := if internal then s else passTo (b.at_ + us (if dl = 0 then own else dl)) s
      let e : Ending :=
        if internal then .internal
        else if items = 0 then .early
        else match c.bind (·.items) with
          | some _ => .items items
          | none => .rolledBack
      .next (judge c n b (some e) (popBell s1))

/-! ### RC_FIELD_READ (R9) -/

/-- The counter that keeps an RC field; the SNR low-water mark stands in its lane. -/
def rcKey (f : RcField) : Option Nat :=
  match f with
  | .skewHigh c => some (ck 97 30 c)
  | .stagingHigh a => some (ck 130 30 a)
  | .queueOccupancy q => some (ck 269 0 q)
  | .queueSojourn q => some (ck 269 1 q)
  | .parseSteps k => some (ck 203 12 k)
  | .offsetHigh d => some (ck 344 24 d)
  | .snrLow _ => none
  | .wakeStall d => some (ck 495 12 d)
  | .pipeOccupancy p => some (ck 305 34 p)
  | .vinHigh => some (ck 612 4 0)
  | .vinLow => some (ck 612 5 0)

/-- RC_FIELD_READ (R9): the value before the event is returned, and the event stands in the field. -/
def execRcFieldRead (f : RcField) (event : Nat) (s : State) : Answer :=
  match f, rcKey f with
  | .snrLow l, _ =>
    .next (emit (.readData (laneOf s l).snrLow) (modLane l (fun x => { x with snrLow := event }) s))
  | _, some k => .next (emit (.readData (s.count k)) (setCount k event s))
  | _, none => .next s

end Sys2Proof.Machine
end

