-- ==== Sys2Proof/Machine/Receive.lean ====
section
/-! DEFINITION. The receive checks of a client port (R352 to R356, R364), and the protocol services
that Knarrasar runs on it (R329, R355, R361, R363, R367, R473, R547). -/

namespace Sys2Proof.Machine

open Sys2Proof

/-! ### Diverts (R355, R356) -/

/-- Destination address and EtherType of a frame. -/
def dstOf (b : Bytes) : Nat := be b 0 6
def ethType (b : Bytes) : Nat := be b 12 2

/-- The protocol of R355 that a frame belongs to. -/
def protocolOf (b : Bytes) : Option ProtocolKind :=
  let d := dstOf b
  let t := ethType b
  if d = 0x0180C2000002 ∧ t = 0x8809 ∧ (byteAt b 14 = 1 ∨ byteAt b 14 = 2) then some .lacp
  else if d = 0x0180C2000003 ∧ t = 0x888E then some .mka
  else if (d = 0x0180C200000E ∨ d = 0x0180C2000003 ∨ d = 0x0180C2000000) ∧ t = 0x88CC then some .lldp
  else if (d = 0x011B19000000 ∨ d = 0x0180C200000E) ∧ t = 0x88F7 then some .ptp
  else none

/-- Knarrasar runs a protocol's service on a port (R355, R473). -/
def serviceOn (s : State) (p : Nat) (k : ProtocolKind) : Bool :=
  servicesRun s && (match k with
    | .lacp => (aggOfPort s p).isSome
    | .mka => (portOf s p).macsecOn
    | .lldp => (lldpOf s p).enable && (decide (p ≠ 16) || mgmtUp s)
    | .ptp => bit s.time.ptpMask.toNat p)

/-- A frame that the port diverts. -/
def divertOf (s : State) (p : Nat) (b : Bytes) : Option ProtocolKind :=
  (protocolOf b).filter (serviceOn s p)

/-- Row of a protocol's diverted frames, in the order of R355. -/
def divertRow : ProtocolKind → Nat
  | .lacp => 19 | .mka => 20 | .lldp => 21 | .ptp => 22

/-- Divert tokens now: 4,096 a second, at most 256, in units of 10^-12 frame. -/
def divertTokens (s : State) (x : Port) : Nat :=
  min 256000000000000 (x.divert + (s.now - x.divertAt) * 4096)

/-- A diverted frame joins the protocol path, or is discarded as divert overrun (R356). -/
def divertFrame (p : Nat) (k : ProtocolKind) (b : Bytes) (stamp : Nat) (s : State) : State :=
  let x := portOf s p
  let t := divertTokens s x
  if t < 1000000000000 then bump (ck 369 23 p) 1 s
  else bump (ck 369 (divertRow k) p) 1 (modPort p (fun x => { x with
    divert := t - 1000000000000, divertAt := s.now, diverted := x.diverted ++ [(k, b, stamp)] }) s)

/-! ### MAC Control (R262, R353) -/

/-- A received PAUSE or PFC frame obeyed, or any MAC Control frame discarded and counted. -/
def consumeControl (p : Nat) (b : Bytes) (s : State) : State :=
  let x := pauseOf s p
  let op := be b 14 2
  if op = 0x0001 then
    if x.mode == .pause && x.obey then
      forEach (List.range 8) (fun c s => reloadPause p c (be b 16 2) s) (bump (ck 271 17 p) 1 s)
    else bump (ck 369 16 p) 1 s
  else if op = 0x0101 then
    if x.mode == .pfc && x.obey then
      forEach (setBits 8 (byteAt b 17)) (fun c s =>
        reloadPause p c (be b (18 + 2 * c) 2) (bump (ck 271 (17 + c) p) 1 s)) s
    else bump (ck 369 17 p) 1 s
  else bump (ck 369 18 p) 1 s

/-- A frame of at least 60 bytes before its FCS. -/
def padFrame (b : Bytes) : Bytes := b ++ zeros (60 - b.length)

/-! ### Checks (R352, R354) -/

/-- The port delineates frames: its MODE is not 0x0, its PCS is aligned, its lanes are READY and carry
no test (R352, R386, R392, R397). -/
def delineates (s : State) (p : Nat) : Bool :=
  let x := portOf s p
  decide (x.mode ≠ 0) && x.aligned && afterLoading s && !laneTested s p
    && (lanesOf p x.mode).all (fun l => (laneOf s l).state == .ready)

/-- The destination passes R354. -/
def passesFilter (x : Port) (b : Bytes) : Bool :=
  let d := dstOf b
  if d / 16 = 0x0180C200000 then false
  else if x.filter = 0 then true
  else
    d == 0xFFFFFFFFFFFF || (List.range 8).any (fun i => (tget 0 x.filters i).toNat == d)
      || (x.filter == 2 && bit (byteAt b 0) 0)

/-- Checks 1 to 3 of R352. -/
def earlyFault (s : State) (p : Nat) (room pcsOk : Bool) : Option Nat :=
  if !room then some 0x07 else if !portRuns s p then some 0x08 else if !pcsOk then some 0x04 else none

/-- Checks 4 and 5. -/
def lengthFault (x : Port) (b : Bytes) : Option Nat :=
  if b.length < 64 then some 0x02
  else if b.length > x.maxFrame + 32 * b2n x.macsecOn then some 0x03
  else none

/-- Checks 8 and 9. -/
def addressFault (x : Port) (b : Bytes) : Option Nat :=
  if bit (byteAt b 6) 0 || be b 6 6 == 0 then some 0x06
  else if !passesFilter x b then some 0x05
  else none

/-- A client frame's packet; an oversize frame stops being written at MAX_FRAME + 33 bytes. -/
def clientPkt (s : State) (p : Nat) (b : Bytes) (stamp : Nat) : Pkt :=
  let len := min b.length ((portOf s p).maxFrame + 33)
  { frame := b.take len, stored := len, inPort := p, cport := p, stamp := stamp }

/-- Stored length of a frame that goes to MACsec validation: its decrypted length (R233, R364). -/
def macsecStored (b : Bytes) : Nat :=
  match readTag b with
  | .error _ => b.length
  | .ok t => 12 + t.short + 4

/-- A frame refused by a check enters the book and its drop counter (R201, R352, R535). -/
def refuseFrame (p reason : Nat) (b : Bytes) (stamp : Nat) (s : State) : State :=
  let q := clientPkt s p b stamp
  dropPacket reason q (book .input p q.stored s)

/-- A frame that passed checks 1 to 10 (R352, R364); in the Latency profile one that fails its FCS
alone has already started towards the slice (R35, R36). -/
def acceptFrame (p : Nat) (b : Bytes) (bad : Bool) (stamp : Nat) (s : State) : State :=
  let q := clientPkt s p b stamp
  if (portOf s p).macsecOn then
    let m := { q with stored := macsecStored b }
    macsecReceive p m (book .input p m.stored s)
  else if bad then toSlice { q with badFcs := true } (book .input p q.stored s)
  else toSlice q (book .input p q.stored (countGood p b s))

/-- Checks 6 to 11 of R352 on a frame of good length. -/
def judgeFrame (p : Nat) (b : Bytes) (stamp : Nat) (s : State) : State :=
  let x := portOf s p
  let bad := !fcsOk b
  let early := bad && s.dev.inForce == .latency && !x.macsecOn && ethType b != 0x8808
    && (addressFault x b).isNone && (divertOf s p b).isNone
  if bad && !early then refuseFrame p 0x01 b stamp s
  else if ethType b = 0x8808 then
    book .divert p b.length (book .input p b.length (consumeControl p b s))
  else
    -- A destination that R355 diverts is no destination of R354's first line.
    match divertOf s p b with
    | some k =>
      if bit (byteAt b 6) 0 || be b 6 6 == 0 then refuseFrame p 0x06 b stamp s
      else book .divert p b.length (book .input p b.length (divertFrame p k b stamp s))
    | none =>
      match addressFault x b with
      | some r => refuseFrame p r b stamp s
      | none => acceptFrame p b bad stamp s

/-- Signals that yield no frame are counted by the PCS of the port's lanes alone: how many errors they come to is
free (R352, R369). -/
def countLaneErrors (p : Nat) (s : State) : State :=
  forEach (List.range (modeLanes (portOf s p).mode)) (fun i s =>
    let (v, s1) := takeFree s
    bump (ck 369 (54 + i) p) v s1) s

/-- What the elastic buffers of a port's lanes do before and within a frame (R381). -/
def bufferLanes (p : Nat) (pcsOk : Bool) (s : State) : State :=
  forEach (lanesOf p (portOf s p).mode)
    (fun l s => if pcsOk then compensate l s else overrunLane l (compensate l s)) s

/-- A frame on a client port (R352). -/
def takeClientFrame (p : Nat) (frame : Bytes) (room pcsOk : Bool) (s : State) : State :=
  if !delineates s p then countLaneErrors p s
  else
    let (t, s0) := stampOn (10 + p / 4) (bufferLanes p pcsOk s)
    match earlyFault s0 p room pcsOk with
    | some r => refuseFrame p r frame t s0
    | none =>
      let s1 := bump (ck 369 (5 + lengthBin frame.length) p) 1 s0
      match lengthFault (portOf s p) frame with
      | some r => refuseFrame p r frame t s1
      | none => judgeFrame p frame t s1

/-- The receive filter of the management lane: its own address, broadcast and the LLDP group (R368). -/
def passesMgmt (s : State) (b : Bytes) : Bool :=
  dstOf b == sourceAddress s 16 || dstOf b == 0xFFFFFFFFFFFF || dstOf b == 0x0180C200000E

/-- A frame on the management lane (R368, R369, R382); one that the lane garbled is no frame (log entry 42). -/
def takeMgmtFrame (lane : Bytes) (pcsOk : Bool) (s : State) : State :=
  let b := unrepeat (sgmiiRepeat s.prt.mgmtMode) lane
  if !mgmtUp s then s
  else
    let s1 := compensate 20 s
    if !pcsOk || !fcsOk b then countCodeErrors (overrunLane 20 s1)
    else if !passesMgmt s b then bump (ck 369 111 16) 1 s1
    else if b.length > 1522 then bump (ck 369 112 16) 1 s1
    else
      let s2 := bump (ck 369 1 16) b.length (bump (ck 369 0 16) 1 s1)
      match divertOf s 16 b with
      | some .lldp => modPort 16 (fun x => { x with diverted := x.diverted ++ [(.lldp, b, 0)] }) s2
      | _ => s2

/-- A lane of the port runs a loopback: 1 near-end serial, 2 near-end parallel, 3 far-end (R397). -/
def looped (s : State) (p kind : Nat) : Bool :=
  (if p = 16 then [20] else lanesOf p (portOf s p).mode).any (fun l => decide ((laneOf s l).loopback = kind))

/-- CLIENT_FRAME_RECEIVE (R352 to R356, R364, R368, R369). -/
def execClientFrameReceive (p : Fin 17) (frame : Bytes) (room pcsOk : Bool) (s : State) : Answer :=
  if looped s p 3 then .next (emit (.clientFrame p frame false) s)
  else .next (if p.val = 16 then takeMgmtFrame frame pcsOk s else takeClientFrame p frame room pcsOk s)

/-! ### Protocol services (R329, R361, R363, R367) -/

/-- LACP has decided whether a member is collecting and distributing (R367). -/
def setMember (p : Nat) (on : Bool) (s : State) : State :=
  match aggOfPort s p with
  | none => s
  | some i =>
    let x := aggOf s i
    setAgg i { x with distributing := BitVec.ofNat 16 (setBit x.distributing.toNat p on) } s

/-- The partner's EEE information adopted (R361). -/
def adoptTw (p : Nat) (tw : Nat) (s : State) : State :=
  noteIdle p (modPort p (fun x => { x with
    eeeKnown := true, tw := min 65535 (max (Config.clause78Tw x.mode) tw) }) s)

/-- An SA put into a list of two; of two that stand already, the newer stays. -/
def addSa (a : Sa) (l : List Sa) : List Sa := (a :: l.filter (fun b => b.an != a.an)).take 2

/-- MKA installs an SA: Propolis unwraps its SAK with the port's KEK (R285, R363). -/
def installSa (p : Nat) (sc : Option (Fin 3)) (sci : Word64) (an : Fin 4) (root : Nat) (s : State) :
    State :=
  let key := Config.unwrapSak (rootOf s (168 + p)) s.fresh
  let s1 := writeSlot (rootSlot root) (slotWord true root 0 0)
    (replaceRoot root key { s with fresh := s.fresh + 1 })
  let a : Sa := { an := an, root := root, nextPn := 1, lowest := 1, inUse := false, seen := [] }
  modMacsec p (fun m =>
    match sc with
    | none => { m with tx := addSa a m.tx }
    | some i =>
      let c := (tget none m.rx i.val).getD { sci := sci, sas := [] }
      { m with rx := tset none m.rx i.val (some { c with sci := sci, sas := addSa a c.sas }) }) s1

/-- MKA retires an SA (R363); a channel without any SA is gone. -/
def retireSa (p : Nat) (sc : Option (Fin 3)) (an : Fin 4) (s : State) : State :=
  let rest := fun (l : List Sa) => l.filter (fun a => a.an != an.val)
  modMacsec p (fun m =>
    match sc with
    | none => { m with tx := rest m.tx }
    | some i =>
      let c := ((tget none m.rx i.val).map (fun c => { c with sas := rest c.sas })).filter
        (fun c => !c.sas.isEmpty)
      { m with rx := tset none m.rx i.val c }) s

/-- What a diverted frame comes to under its protocol's standard. -/
def protocolEffect (p : Nat) (k : ProtocolKind) (act : ProtocolAct) (stamp : Nat) (s : State) : State :=
  match k, act with
  | .ptp, .reject => bump (ck 547 14 p) 1 s
  | _, .reject => bump (ck 547 15 p) 1 s
  | .lacp, .lacp on => setMember p on s
  | .lldp, .lldp (some tw) => if p = 16 then s else adoptTw p tw s
  | .mka, .mkaInstall sc sci an root =>
    if (macsecOf s p).mkaUp && decide (8 ≤ root) && decide (root < 136) then
      installSa p sc sci an root s
    else s
  | .mka, .mkaUse an =>
    modMacsec p (fun m => { m with tx := m.tx.map (fun a => { a with inUse := a.an == an.val }) }) s
  | .mka, .mkaRetire sc an => retireSa p sc an s
  | .ptp, .ptpSample e age =>
    if s.time.slave == some p && s.time.sourceB == .ptp then
      let off := e - tget 0 s.time.ptpAsym p * 65536
      modServo .b (fun x => { x with pending := some (off, s.now - age * 1000) }) s
    else s
  | .ptp, .ptpSlave on =>
    { s with time := { s.time with
      slave := if on then some p else if s.time.slave = some p then none else s.time.slave } }
  | .ptp, .ptpDelayReq =>
    if isMaster s p then
      injectFrame p { kind := .ptp, ptp := some (.delayResp (BitVec.ofNat 96 (stampWord stamp))) } s
    else s
  | _, _ => s

/-- The ICV of a received MKA frame verified as bulk work on the port's ICK slot (R283, R297). -/
def verifyIcv (p : Nat) (b : Bytes) (s : State) : State :=
  let n := b.length - 20
  offerCmac (rootSlot (152 + p)) 0 (b.take n) (some (BitVec.ofNat 128 (be b n 16))) s

/-- The checks of R547 on a PTP message, after the Ethernet header (layout: IEEE 1588; log entry 42): version 2, the
host's domain number, the declared length, nanoseconds of a time stamp, and a correction below 1 s; the first that
fails. -/
def ptpRefused (s : State) (b : Bytes) : Option Nat :=
  let m := b.drop 14
  let stamped := [0, 1, 8, 9, 11].contains (byteAt m 0 % 16)
  [byteAt m 1 % 16 != 2, byteAt m 4 != s.time.ptpDomain, decide (m.length < be m 2 2),
    stamped && decide (be m 40 4 > 999999999),
    decide ((sint 64 (be m 8 8)).natAbs ≥ 1000000000 * 65536)].findIdx? id

/-- A message that fails a check of R547 is counted under that check (R548). -/
def countCheck (p : Nat) (k : ProtocolKind) (b : Bytes) (s : State) : State :=
  if k == .ptp then
    match ptpRefused s b with
    | some i => bump (ck 548 i p) 1 s
    | none => s
  else s

/-- A diverted frame goes to Amber with its port, rejected or not (R548, R553). -/
def recordFrame (p : Nat) (rejected : Bool) (b : Bytes) (s : State) : State :=
  amberRecord 0x0007 rejected (leBytes 1 p ++ b.take 4000) s

/-- What Knarrasar makes of a frame: one that fails the checks of R547 is rejected, whatever it says. -/
def judged (s : State) (k : ProtocolKind) (b : Bytes) (act : ProtocolAct) : ProtocolAct :=
  if k == .ptp && (ptpRefused s b).isSome then .reject else act

/-- PROTOCOL_FRAME (R297, R355, R473, R547): Knarrasar takes the port's oldest diverted frame. -/
def execProtocolFrame (p : Fin 17) (act : ProtocolAct) (s : State) : Answer :=
  match (portOf s p).diverted with
  | [] => .next s
  | (k, b, t) :: rest =>
    let s1 := modPort p (fun x => { x with diverted := rest }) s
    if serviceOn s p k then
      let a := judged s k b act
      .next (protocolEffect p k a t
        (recordFrame p (a == .reject) b <| countCheck p k b
          (if k == .mka && (macsecOf s p).mkaUp then verifyIcv p b s1 else s1)))
    else .next s1

/-- Destination address and EtherType of Knarrasar's frames of a protocol (R329, R355). -/
def ownHeader : ProtocolKind → Nat × Nat
  | .ptp => (0x0180C200000E, 0x88F7)
  | .lacp => (0x0180C2000002, 0x8809)
  | .mka => (0x0180C2000003, 0x888E)
  | .lldp => (0x0180C200000E, 0x88CC)

/-- A frame of Knarrasar's own without its FCS, from the port's own address (R359). -/
def ownBytes (s : State) (p : Nat) (k : ProtocolKind) : Bytes :=
  padFrame (beBytes 6 (ownHeader k).1 ++ beBytes 6 (sourceAddress s p) ++ beBytes 2 (ownHeader k).2
    ++ (Config.ownFrame s.fresh).take 1500)

/-- A frame of Knarrasar's own leaves by the management lane (R368, R369). -/
def sendMgmt (f : OwnFrame) (s : State) : State :=
  let b := ownBytes s 16 f.kind
  onWire 16 (.protocol f 16 (laneBytes (sgmiiRepeat s.prt.mgmtMode) b) 0)
    (bump (ck 369 25 16) (b.length + 4) (bump (ck 369 24 16) 1 { s with fresh := s.fresh + 1 }))

/-- The period of a protocol's own timer where the manual gives it, in ps: 16 PTP messages a second, the host's
LLDP interval (R329, R465). -/
def timerPeriod (s : State) (p : Nat) : ProtocolKind → Nat
  | .ptp => 62500000000
  | .lldp => ms (1000 * (lldpOf s p).interval)
  | _ => 0

/-- What a protocol's own timer sends (R329, R473). -/
def timerFrames (s : State) (p : Nat) : ProtocolKind → List OwnFrame
  | .ptp =>
    if isMaster s p then
      (if (portOf s p).announces then
        [{ kind := .ptp, ptp := some (.announce (Config.clockQuality (mainStatus s))) }] else [])
        ++ [{ kind := .ptp, ptp := some .sync }]
    else [{ kind := .ptp, ptp := some .delayReq }]
  | .lldp =>
    [{ kind := .lldp, eee := if (lldpOf s p).eee ∧ p < 16 then some (Config.clause78Tw (portOf s p).mode) else none }]
  | k => [{ kind := k }]

/-- PROTOCOL_TIMER (R329, R358, R361, R368, R473): a protocol's own timer sends its frames. -/
def execProtocolTimer (kind : ProtocolKind) (p : Fin 17) (s : State) : Answer :=
  if serviceOn s p kind && (kind != .mka || (macsecOf s p).mkaUp) then
    let x := portOf s p
    let s1 := passTo (tget 0 x.timerAt (divertRow kind) + timerPeriod s p kind) s
    let s2 := modPort p (fun x => { x with
      timerAt := tset 0 x.timerAt (divertRow kind) s1.now
      announces := if kind == .ptp then !x.announces else x.announces }) s1
    .next ((timerFrames s1 p kind).foldl (fun s f => if p.val = 16 then sendMgmt f s else injectFrame p f s) s2)
  else .next s

/-- PTP_TIMEOUT (R547): the port leaves SLAVE. -/
def execPtpTimeout (p : Fin 16) (s : State) : Answer :=
  if servicesRun s && s.time.slave == some p.val then .next { s with time := { s.time with slave := none } }
  else .next s

end Sys2Proof.Machine
end

