-- ==== Sys2Proof/Machine/Egress.lean ====
section
/-! DEFINITION. The egress editor (R228), the choice of the next frame on a client port (R246, R263,
R267), its protection (R365), and the end of a frame (R36, R243, R249, R333). -/

namespace Sys2Proof.Machine

open Sys2Proof

/-! ### The egress editor (R228) -/

/-- The frame without the FCS it came with; a recirculated one has none (R197). -/
def clearBody (p : Pkt) : Bytes := if p.pass = 0 then p.frame.take (p.frame.length - 4) else p.frame

/-- A frame as it leaves client port p: one tag replaced, inserted or removed, its PCP kept, and a
fresh FCS (R228; log entry 26). -/
def egressFrame (s : State) (k : Pkt) (p : Nat) : Bytes :=
  let b := clearBody k
  let tagged := be b 12 2 == 0x8100
  let tci := if tagged then be b 14 2 / 4096 * 4096 else 0
  let rest := b.drop (if tagged then 16 else 12)
  let body := padFrame (if vlUntag (vlanEntry s k.vid) p then b.take 12 ++ rest
    else b.take 12 ++ beBytes 2 0x8100 ++ beBytes 2 (tci + k.vid) ++ rest)
  body ++ fcsBytes body

/-- The port protects a frame: MACSEC is set, and it is neither EAPOL nor MAC Control (R365). -/
def protects (s : State) (p : Nat) (b : Bytes) : Bool :=
  (portOf s p).macsecOn && ethType b != 0x888E && ethType b != 0x8808

/-- Bytes that protection adds to a frame. -/
def addedBytes (s : State) (p : Nat) (b : Bytes) : Nat :=
  if protects s p b then macsecAdds (macsecOf s p) else 0

/-! ### Injected frames (R358) -/

/-- A frame that the port sends comes back to its receiver in a near-end loopback (R397). -/
def loopBack (p : Nat) (b : Bytes) (s : State) : State :=
  if looped s p 1 || looped s p 2 then takeClientFrame p b true true s else s

/-- An injected frame leaves (R297, R355, R358, R359): an MKA frame's ICV is bulk work on the port's ICK slot,
and on a MACsec port every other frame is protected like data (R365). Injected frames ignore the port's shaper
(R358, the narrower rule, against R256; log entry 49). -/
def sendOwn (p : Nat) (f : OwnFrame) (s : State) : State :=
  let b := ownBytes s p f.kind
  let s1 := { s with fresh := s.fresh + 1 }
  let s2 := if f.kind == .mka then offerCmac (rootSlot (152 + p)) 0 b none s1 else s1
  if protects s p b then
    match macsecSend p (.macsecOwn p f) (b ++ fcsBytes b) s2 with
    | none => noteIdle p (bump (ck 369 78 p) 1 s2)
    | some t => t
  else loopBack p (b ++ fcsBytes b) (putOwn p f b s2)

/-! ### Eligibility (R246, R248, R263, R267) -/

/-- The held head of a queue has been held for the CYCLE of its port's list (R267). -/
def holdOver (s : State) (q : Nat) : Bool :=
  match (queueOf s q).hold, (gateOf s (q / 8)).active with
  | some h, some g => decide (s.now ≥ h + g.cycle * 1000)
  | _, _ => false

/-- A frame held for CYCLE is dropped at a test (R267). -/
def dropHeld (q : Nat) (s : State) : State :=
  if holdOver s q then
    match (queueOf s q).pkts with
    | c :: _ => bump (ck 271 (41 + q % 8) (q / 8)) 1 (dropResident q 0x44 c (popQueue q s))
    | [] => s
  else s

/-- Everything but the window lets the head of a queue start (R263). -/
def headReady (s : State) (q : Nat) : Option Copy :=
  match (queueOf s q).pkts with
  | [] => none
  | c :: _ =>
    if !c.spilled && !paused s (q / 8) (q % 8) && shapersAllow s q
        && bit (liveGates s (q / 8) (gateOf s (q / 8))).toNat (q % 8) then some c else none

/-- The wire time of a head ends no later than its window closes (R267); the port is not in low-power idle while a
frame waits (R362). -/
def fitsWindow (s : State) (q : Nat) (c : Copy) : Bool :=
  let p := q / 8
  let b := egressFrame s c.pkt p
  match windowClose s (gateOf s p) (q % 8) with
  | none => true
  | some t =>
    let wire := wirePs (b.length + addedBytes s p b) (max 1 (modeRate (portOf s p).mode))
    decide (wire * fracNs ≤ (t * fracNs - (mainNow s).total) * 1000)

/-- A head that does not fit is held, counted at its first hold (R267). -/
def holdHead (q : Nat) (s : State) : State :=
  if (queueOf s q).hold.isSome then s
  else bump (ck 271 (33 + q % 8) (q / 8)) 1 (modQueue q (fun x => { x with hold := some s.now }) s)

/-- The heads of a port's queues tested, from the highest class down: those that may start, and the state
in which late and held frames have gone. -/
def testHeads (p : Nat) : List Nat → State → List Nat × State
  | [], s => ([], s)
  | c :: l, s =>
    let q := 8 * p + c
    let s1 := dropLate q (dropHeld q s)
    match headReady s1 q with
    | none => testHeads p l s1
    | some h =>
      if fitsWindow s1 q h then
        let (rest, s2) := testHeads p l s1
        (c :: rest, s2)
      else testHeads p l (holdHead q s1)

/-- The head of one queue tested: late heads go, and one that does not fit its window is held (R267). -/
def testHead (q : Nat) (s : State) : State := (testHeads (q / 8) [q % 8] s).2

/-- The cycle of the list in force on a queue's port. -/
def holdCycle (s : State) (q : Nat) : Option Nat := (gateOf s (q / 8)).active.map (·.cycle)

/-- The time that passes until a held head's window opens, at most to the end of its hold. -/
def passHold (q limit : Nat) (s : State) : State :=
  match windowOpen s (gateOf s (q / 8)) (q % 8) with
  | some t => if s.now + (t - nowNs s) * 1000 < limit then passMain (t * fracNs) s else passTo limit s
  | none => passTo limit s

/-- GATE_HOLD_TEST (R267): the test at the start of the next window or as the hold time reaches CYCLE,
whichever comes first; a frame held for CYCLE is dropped, and the next head is tested at once. -/
def execGateHoldTest (q : Nat) (s : State) : Answer :=
  match (queueOf s q).hold, holdCycle s q with
  | some h, some cycle =>
    let limit := h + cycle * 1000
    let s1 := passHold q limit s
    if q < 128 && decide (s1.now ≥ limit) then
      match (queueOf s1 q).pkts with
      | c :: _ =>
        .next (testHead q (bump (ck 271 (41 + q % 8) (q / 8)) 1 (dropResident q 0x44 c (popQueue q s1))))
      | [] => .next s1
    else .next s1
  | _, _ => .next s

/-- Deficits of a port's queues; an empty queue holds none (R246). -/
def portDeficits (s : State) (p : Nat) : Tab Nat :=
  (List.range 8).foldl (fun t c =>
    let x := queueOf s (8 * p + c)
    tset 0 t c (if x.pkts.isEmpty then 0 else x.deficit)) []

/-- The class picked among those that may start: strict ones first, higher class first, then deficit
round robin with a quantum of 256 bytes × WEIGHT (R246). -/
def pickClass (s : State) (p : Nat) (l : List Nat) : Option Picked :=
  let d := portDeficits s p
  let turn := tget 0 s.tm.drr p
  match l.find? (fun c => (queueOf s (8 * p + c)).strict) with
  | some c => some { pos := c, turn := turn, deficits := d }
  | none =>
    if l.isEmpty then none
    else
      drrPick 8
        (fun c => if l.contains c then ((queueOf s (8 * p + c)).pkts.head?).map (·.pkt.stored) else none)
        (fun c => 256 * (queueOf s (8 * p + c)).weight) drrFuel turn d

/-- The scheduler's turn and deficits kept; a queue that empties loses its deficit. -/
def keepDeficits (p : Nat) (k : Picked) (s : State) : State :=
  forEach (List.range 8) (fun c s =>
    modQueue (8 * p + c) (fun x => { x with
      deficit := if x.pkts.isEmpty then 0 else tget 0 k.deficits c }) s)
    { s with tm := { s.tm with drr := tset 0 s.tm.drr p k.turn } }

/-! ### Start (R263, R358 to R362, R365) -/

/-- The port may put a first bit out: it sends, its link is up and no frame is leaving (R241, R351). -/
def mayStart (s : State) (p : Nat) : Bool :=
  portsSend s && portOpen s p && (tget none s.tm.leaving p).isNone

/-- The frame leaves its port from now on. -/
def putLeaving (p : Nat) (l : Leaving) (s : State) : State :=
  { s with tm := { s.tm with leaving := tset none s.tm.leaving p (some l) } }

/-- The head of a queue starts: edited, charged, and protected where the port does so; or it is dropped
as too long or for want of an SA (R257, R360, R365). -/
def startFrame (p q : Nat) (c : Copy) (s : State) : State :=
  let b := egressFrame s c.pkt p
  let s1 := popQueue q s
  if b.length > (portOf s p).maxFrame then dropResident q 0x03 c s1
  else
    let s2 := (stampAt c.pkt 7 24 q (chargeShapers q (b.length + addedBytes s p b)
        (crossPacket (linkNo 9 (p / 4)) (entriesFor .packet b.length) c.pkt.cport c.pkt.booked s1)))
    let (t, s2) := stampOn (10 + p / 4) s2
    let l : Leaving := {
      copy := c, queue := q, bytes := b, cutThrough := c.pkt.badFcs, waiting := false
      time := stampWord t }
    if protects s p b then
      match macsecSend p (.macsecOut p) b s2 with
      | none => bump (ck 369 78 p) 1 (dropResident q 0x69 c s2)
      | some t => putLeaving p { l with waiting := true } (stampAt c.pkt 10 (10 + p / 4) p t)
    else putLeaving p l (stampAt c.pkt 10 (10 + p / 4) p s2)

/-- The scheduler of a client port picks and starts a frame. -/
def startNextFrame (p : Nat) (s : State) : State :=
  let (l, s1) := testHeads p (List.range 8).reverse s
  match pickClass s1 p l with
  | none => s1
  | some k =>
    let q := 8 * p + k.pos
    match (queueOf s1 q).pkts with
    | [] => s1
    | c :: _ => keepDeficits p k (startFrame p q c s1)

/-- TRANSMIT_START (R246, R263, R267, R358, R362, R441): a waiting injected frame first, else the
scheduler's pick, after Tw where the port has just left low-power idle; in SAFE what waits is discarded. -/
def execTransmitStart (p : Fin 16) (s : State) : Answer :=
  if s.dev.state = .safe then
    .next (forEach ((List.range 8).map (8 * p.val + ·)) (flushQueue 0x72) s)
  else if !mayStart s p then .next s
  else
    let s1 := passTo (portOf s p).readyAt s
    match (portOf s1 p).inject with
    | f :: rest =>
      if paused s1 p 7 then .next (startNextFrame p s1)
      else .next (sendOwn p f (modPort p (fun x => { x with inject := rest }) s1))
    | [] => .next (startNextFrame p s1)

/-! ### End (R36, R243, R249, R333) -/

/-- A frame ended with the bit-inverse of its FCS (R36). -/
def stompBytes (b : Bytes) : Bytes :=
  let body := b.take (b.length - 4)
  body ++ (fcsBytes body).map (fun x => ~~~ x)

/-- A stomped frame: dropped for the books, and answered as stomped (R36, R249, R333). -/
def stompLeaving (p reason : Nat) (l : Leaving) (s : State) : State :=
  let c := l.copy
  let s1 := onWire p (.clientFrame p (stompBytes l.bytes) true) (bump (ck 369 41 p) 1 s)
  let s2 := countResident l.queue reason c.pkt.stored (unaccount l.queue c s1)
  let s3 := trapCopy reason c.pkt (countDrop reason c.pkt s2)
  let s4 := match c.pkt.tsReq with
    | some (k, tag) =>
      pushStamp p { knarrasar := k, tag := tag, outcome := 1, reason := 0
                    time := BitVec.ofNat 96 l.time } s3
    | none => s3
  returnCells c s4

/-- A frame that has left whole (R243, R333, R369, R535). -/
def completeLeaving (p : Nat) (l : Leaving) (s : State) : State :=
  let c := l.copy
  let s1 := countSent p l.bytes.length (26 + castOf l.bytes) (onWire p (.clientFrame p l.bytes false) s)
  let s2 := book .output c.pkt.cport c.pkt.booked (leaveQueue l.queue c s1)
  let s3 := match c.pkt.tsReq with
    | some (k, tag) =>
      pushStamp p { knarrasar := k, tag := tag, outcome := 0, reason := 0
                    time := BitVec.ofNat 96 l.time } s2
    | none => s2
  endTrace c.pkt 0 (returnCells c s3)

/-- EGRESS_FRAME_END (R36, R243, R249): the last byte of the frame then leaving passes to the MAC. -/
def execEgressFrameEnd (p : Fin 16) (uncorrectable : Bool) (s : State) : Answer :=
  match tget none s.tm.leaving p with
  | none => .next s
  | some l =>
    if l.waiting then .next s
    else
      let s1 := { s with tm := { s.tm with leaving := tset none s.tm.leaving p none } }
      if uncorrectable || l.copy.pkt.bad then .next (noteIdle p (stompLeaving p 0x4A l s1))
      else if l.copy.pkt.badFcs then .next (noteIdle p (stompLeaving p 0x01 l s1))
      else .next (loopBack p l.bytes (noteIdle p (completeLeaving p l s1)))

end Sys2Proof.Machine
end

