-- ==== Sys2Proof/Machine/HostAccess.lean ====
section
/-! DEFINITION. What each access of the host to the function does (R11, R399 to R404): the kinds that a BAR takes,
the row of the table that an accepted access to BAR0 or BAR2 is, the MSI-X table and pending-bit array of BAR4,
and configuration space. -/

namespace Sys2Proof.Machine

open Sys2Proof

/-! ### BAR0 (R401) -/

/-- A read of BAR0 that the device accepts. -/
def bar0Reads (off len : Nat) : Bool :=
  decide (off + len ≤ 65536) &&
    (((len == 4 || len == 8) && off % len == 0)
      || (off % 4 == 0 && len % 4 == 0 && decide (0 < len) && decide (off / 64 = (off + len - 1) / 64)))

/-- A read of BAR0: one that covers a mailbox's status word is MBX_STATUS_READ (R417). -/
def bar0Read (off len : Nat) (s : State) : Answer :=
  if !bar0Reads off len then .next (refuseAccess .bar0 s)
  else
    let n : Fin 16 := Fin.ofNat 16 (off / 4096)
    let at_ := off % 4096
    if at_ ≤ 0x804 ∧ 0x804 < at_ + len then
      match execMbxStatusRead n s with
      | .next t => .next (emit (.readData (le (mbxRead s n at_ len) 0 len)) { t with out := s.out })
      | x => x
    else .next (emit (.readData (le (mbxRead s n at_ len) 0 len)) s)

/-! ### BAR2 (R11, R613) -/

/-- A read of BAR2: the words of JRN_WINDOW wait for the copies ordered before it (R625). -/
def bar2Read (off : Nat) (s : State) : Answer :=
  if isLowWord off || isHighWord off then execRegisterLowWordRead off s
  else if 0x8000 ≤ off ∧ off < 0x8400 then
    let s1 := s.hif.copies.foldl (fun t j => copyWindow j.toNat t) (wakeJournal s)
    .next (emit (.readData (regWord s1 off)) s1)
  else .next (emit (.readData (regWord s off)) s)

/-- A write of BAR2: the row of the table that the register's write is. -/
def bar2Write (off : Nat) (v : Word32) (s : State) : Answer :=
  if off = 0x0100 then execMbxDoorbell v s
  else if off = 0x0104 then execMbxDoneClear v 0 s
  else if off = 0x0108 then execMbxIrqEnWrite v s
  else if off = 0x000C then execFaultStatusClear v 0 s
  else if off = 0x0200 then if v.getLsbD 0 then execEvtEnable s else execEvtDisable s
  else if off = 0x0208 ∨ off = 0x0508 then execRegisterLowWordWrite off v s
  else if off = 0x0218 then execEvtConsumerWrite v s
  else if off = 0x050C then execJrnWindowSeqWrite v s
  else if off = 0x0600 ∧ v.getLsbD 0 then execTimeSnap v s
  else if off = 0x0900 ∧ v.getLsbD 31 then execMdioCmdGo v s
  else if 0x0300 ≤ off ∧ off < 0x0380 then execMsixModWrite (Fin.ofNat 32 ((off - 0x0300) / 4)) v s
  else if 0x0400 ≤ off ∧ off < 0x0420 ∧ off % 8 = 0 then
    execHringRxTailWrite (Fin.ofNat 4 ((off - 0x0400) / 8)) v s
  else if 0x0440 ≤ off ∧ off < 0x0460 ∧ off % 8 = 0 then
    execHringTxTailWrite (Fin.ofNat 4 ((off - 0x0440) / 8)) v s
  else execRegisterWrite off v s

/-! ### BAR4 (R400, R404) -/

/-- A 32-bit word of the MSI-X table at 0x0000 or of the pending-bit array at 0x1000. The places within an entry are
those of the PCI Express family (PRESUMED, log entry 48). -/
def msixWord (s : State) (off : Nat) : Nat :=
  if off < 512 then
    let x := vecOf s (off / 16)
    match off % 16 / 4 with
    | 0 => x.addr.toNat % 2 ^ 32
    | 1 => x.addr.toNat / 2 ^ 32
    | 2 => x.data.toNat
    | _ => b2n x.masked
  else if off = 0x1000 then maskOf ((List.range 32).filter (fun v => (vecOf s v).pend))
  else 0

/-- A read or write of BAR4 that the device accepts: one or two words, naturally aligned, within the BAR. -/
def bar4Takes (off len : Nat) : Bool := (len == 4 || len == 8) && off % len == 0 && decide (off + len ≤ 8192)

/-- The bytes of a word after a write; none leaves a byte as it is. -/
def mergeWord (old : Nat) (data : List (Option Byte)) : Nat :=
  le ((List.range 4).map (fun k => (data.getD k none).getD (BitVec.ofNat 8 (fld old (8 * k) 8)))) 0 4

/-- A word of the MSI-X table written; a vector that is unmasked sends the message that waits (R404). The pending-bit
array ignores writes. -/
def writeMsixWord (off : Nat) (data : List (Option Byte)) (s : State) : State :=
  if off ≥ 512 then s
  else
    let x := vecOf s (off / 16)
    let w := mergeWord (msixWord s off) data
    let y : MsixVec := match off % 16 / 4 with
      | 0 => { x with addr := BitVec.ofNat 64 (x.addr.toNat / 2 ^ 32 * 2 ^ 32 + w / 4 * 4) }
      | 1 => { x with addr := BitVec.ofNat 64 (x.addr.toNat % 2 ^ 32 + w * 2 ^ 32) }
      | 2 => { x with data := BitVec.ofNat 32 w }
      | _ => { x with masked := bit w 0 }
    let s1 := setVec (off / 16) y s
    if dmaOk s1 then sendPending [off / 16] s1 else s1

/-- An access to BAR4. -/
def bar4Write (off : Nat) (data : List (Option Byte)) (s : State) : State :=
  if !bar4Takes off data.length then refuseAccess .bar4 s
  else
    let s1 := writeMsixWord off (data.take 4) s
    if data.length = 8 then writeMsixWord (off + 4) (data.drop 4) s1 else s1

def bar4Read (off len : Nat) (s : State) : State :=
  if !bar4Takes off len then refuseAccess .bar4 s
  else
    emit (.readData (msixWord s off + (if len = 8 then 2 ^ 32 * msixWord s (off + 4) else 0))) s

/-! ### Configuration space (R399) -/

/-- The largest payload and the largest read request that the function takes, the lanes and the generation its link
trains to, and the completion timeout of its own reads, in ms. -/
def pcieLimits : Nat × Nat × Nat × Nat × Nat := (512, 4096, 4, 5, 10)

/-- A setting that the function takes; any other leaves configuration space as it stands. -/
def setPcie (x : PcieSetting) (p : Pcie) : Pcie :=
  let (payload, request, lanes, gen, _) := pcieLimits
  match x with
  | .maxPayload b => if isPow2 b ∧ 128 ≤ b ∧ b ≤ payload then { p with maxPayload := b } else p
  | .maxReadRequest b => if isPow2 b ∧ 128 ≤ b ∧ b ≤ request then { p with maxRead := b } else p
  | .completionTimeout us => { p with completionUs := us }
  | .aspmL1 on => { p with aspmL1 := on }
  | .link g w => if 1 ≤ g ∧ g ≤ gen ∧ (w = 1 ∨ w = 2 ∨ w = lanes) then { p with gen := g, width := w } else p

/-- A word of configuration space: the identifiers stand where the PCI Express family has them; what the spec places
nowhere is a free value. -/
def configWord (off : Nat) (s : State) : Nat × State :=
  if off = 0x00 then (configIds, s)
  else if off = 0x08 then (classWord, s)
  else if off = 0x2C then (subsystemIds, s)
  else
    let (v, s1) := takeFree s
    (v % 2 ^ 32, s1)

/-- Configuration requests complete normally: from 100 ms after reset release (R605). -/
def configUsable (s : State) : Bool := s.dev.released && decide (s.dev.releasedAt + ms 100 ≤ s.now)

/-- An access to one of the function's spaces. -/
def access (b : Bar) (a : HostAccess) (s : State) : Answer :=
  match a, b with
  | .read off len, .bar0 => bar0Read off len s
  | .read off len, .bar2 =>
    if len = 4 ∧ off % 4 = 0 ∧ off < 65536 then bar2Read off s else .next (refuseAccess .bar2 s)
  | .read off len, .bar4 => .next (bar4Read off len s)
  | .write off data, .bar0 => execMailboxWrite (Fin.ofNat 16 (off / 4096)) (off % 4096) data s
  | .write off data, .bar2 =>
    if data.length = 4 ∧ data.all Option.isSome ∧ off % 4 = 0 ∧ off < 65536 then
      bar2Write off (BitVec.ofNat 32 (mergeWord 0 data)) s
    else .next (refuseAccess .bar2 s)
  | .write off data, .bar4 => .next (bar4Write off data s)
  | .configRead off, _ =>
    if !configUsable s then .next (emit .configRetry s) else
    let (w, s1) := configWord (off / 4 * 4) s
    .next (emit (.readData w) s1)
  | .setPcie x, _ =>
    if !configUsable s then .next (emit .configRetry s) else
    .next { s with hif := { s.hif with pcie := setPcie x s.hif.pcie } }

/-- UNSUPPORTED_REQUEST (R11, R401): an access of a size or alignment that the BAR does not take; or the access
itself, which is judged and has its effect if it is one the device takes (log entry 48). -/
def execUnsupportedRequest (b : Bar) (s : State) (a : Option HostAccess := none) : Answer :=
  match a with
  | none => .next (refuseAccess b s)
  | some x => access b x s

end Sys2Proof.Machine
end

