-- ==== Sys2Proof/Machine/Upstream.lean ====
section
/-! DEFINITION. Upstream steps of chapter 3: staging, commit, launch and the end of a burst. -/

namespace Sys2Proof.Machine

open Sys2Proof

/-! ### Staging (R119, R120) -/

/-- An allocation takes frames: in service, in D0 or D1, and with room (R119, R481). -/
def stagingOpen (s : State) (a : Alloc) : Bool :=
  inService s && (s.pow.state == .d0 || s.pow.state == .d1) && s.pow.phase != .enteringD3
    && decide (stagingBytes a < stagingDepth s)

/-- The head of entry i of an allocation's list, where its shapers and its gate release it (R119,
R257, R264). -/
def stagingHead (s : State) (a : Alloc) (i : Nat) : Option Copy :=
  match a.list[i]? with
  | none => none
  | some e =>
    match (queueOf s (128 + e.queue)).pkts with
    | [] => none
    | c :: _ =>
      if !c.spilled && shapersAllow s (128 + e.queue)
          && bit (liveGates s (0x8000 + a.id) (gateOf s (0x8000 + a.id))).toNat i then some c else none

/-- Entry i is weighted. -/
def entryWeighted (a : Alloc) (i : Nat) : Bool :=
  match a.list[i]? with
  | some e => e.weighted
  | none => false

/-- Quantum of entry i: 256 bytes × weight. -/
def entryQuantum (a : Alloc) (i : Nat) : Nat :=
  match a.list[i]? with
  | some e => 256 * e.weight
  | none => 0

/-- The entry whose head moves next: strict entries in list order, then deficit round robin (R119). The round robin
charges the stored length, and an entry whose queue is empty holds no deficit, as R246 has it for client egress: R119
is silent (DESIGN CHOICE, log entry 52). -/
def pickEntry (s : State) (a : Alloc) : Option Picked :=
  let n := a.list.length
  let held := a.deficits.filter (fun e => match a.list[e.1]? with
    | some x => !(queueOf s (128 + x.queue)).pkts.isEmpty
    | none => false)
  match (List.range n).find? (fun i => !entryWeighted a i && (stagingHead s a i).isSome) with
  | some i => some { pos := i, turn := a.turn, deficits := held }
  | none =>
    if (List.range n).any (fun i => (stagingHead s a i).isSome) then
      drrPick n
        (fun i => if entryWeighted a i then (stagingHead s a i).map (·.pkt.stored) else none)
        (entryQuantum a) drrFuel a.turn held
    else none

/-- A frame put at the end of an allocation's staging buffer (R119). -/
def pushStaged (id : Nat) (f : Staged) (s : State) : State :=
  let s1 := modAlloc id (fun a => { a with staging := a.staging ++ [f] }) s
  match allocOf s1 id with
  | some a => markHigh (ck 130 30 id) (stagingBytes a) s1
  | none => s1

/-- The slot of a queue that has none: it is never valid, so that its requests answer NO_KEY. -/
def noSlot : Nat := 8191

/-- A frame enters staging and is sent to the cipher complex: a keyed one as its group's current epoch has it,
one of a port in clear with no key (R120, R291). -/
def stage (id uq : Nat) (p : Pkt) (s : State) : State :=
  let x := tget {} s.up.queues uq
  let s := crossPacket (linkNo 11 0) (entriesFor .packet p.frame.length) p.cport p.booked
    { s with tm := { s.tm with nextFid := s.tm.nextFid + 1 } }
  let blank : Staged :=
    { pkt := { p with fid := s.tm.nextFid - 1 }, queue := uq, image := p.frame, keyed := false, ready := false
      epoch := none, portId := x.portId, ticket := tget 0 s.cip.nextSeq 1 }
  if !x.keyed then offerClear 1 p.frame (.upstream id) (pushStaged id blank s)
  else
    let g := keyGroup s
    let idx := (groupOf s g).upIndex
    let f : Staged :=
      { blank with
        image := p.frame ++ zeros 16, keyed := true
        epoch := ((groupOf s g).entry idx.toNat).map (fun e => (g, idx, e.epoch)) }
    offerRequest 1 (x.slot.getD noSlot) idx.toNat .encrypt [] (p.frame.take (p.frame.length - 4)) 0 0
      (.upstream id) (pushStaged id f s)

/-- STAGING_ADMIT (R119, R120, R247, R248). -/
def execStagingAdmit (alloc : Nat) (s : State) : Answer :=
  match allocOf s alloc with
  | none => .next s
  | some a0 =>
    if !stagingOpen s a0 then .next s
    else
      let s1 := forEach (a0.list.map (fun e => 128 + e.queue)) dropLate s
      match pickEntry s1 a0 with
      | none => .next s1
      | some k =>
        match a0.list[k.pos]?, stagingHead s1 a0 k.pos with
        | some e, some c =>
          let q := 128 + e.queue
          let s2 := modAlloc alloc (fun a => { a with turn := k.turn, deficits := k.deficits })
            (leaveQueue q c (popQueue q s1))
          let s3 := stampAt c.pkt 7 9 q (returnCells c s2)
          let len := c.pkt.frame.length + 16 * b2n (tget {} s.up.queues e.queue).keyed
          .next (stage alloc e.queue c.pkt (chargeShapers q len s3))
        | _, _ => .next s1

/-! ### Commit, launch and end (R121, R127, R129) -/

/-- A packet's trace holds a stamp of a stage. -/
def stamped (s : State) (p : Pkt) (code : Nat) : Bool :=
  s.obs.open_.any (fun t => t.packet == p.ident && t.stamps.any (·.code == code))

/-- Trace stamps of the frames a section carries: first commit, datum the channel (R531). -/
def stampCommits (ch : Nat) (old new : List Pkt) (s : State) : State :=
  new.foldl (fun s p =>
    if old.any (fun o => o.ident == p.ident) || stamped s p 8 then s else stampAt p 8 (4 + ch) ch s) s

/-- The packets of every section on every channel. -/
def carried (s : State) : List Pkt :=
  s.up.tx.flatMap (fun e => e.2.bursts.flatMap (fun b => b.sections.flatMap (·.allFrames)))

/-- A channel's next section committed and its frames stamped. -/
def commitOne (ch : Nat) (s : State) : State :=
  let s1 := commitNext ch s
  stampCommits ch (carried s) (carried s1) s1

/-- The next section of a channel committed after every one that comes before it, so that sections take their GSNs in
the order of their commits (R123). -/
def commitInOrder (ch : Nat) : Nat → State → State
  | 0, s => s
  | n + 1, s =>
    match firstCommit s with
    | none => s
    | some (c, _) => if c = ch then commitOne c s else commitInOrder ch n (commitOne c s)

/-- SECTION_COMMIT (R114 to R126): the channel's next grant is committed, after those of other channels that come
before it (R123). -/
def execSectionCommit (ch : Fin 4) (s : State) : Answer :=
  .next (if (nextCommit s ch.val).isSome then commitInOrder ch.val (waitingGrants s) s else s)

/-- BURST_LAUNCH (R113, R127). -/
def execBurstLaunch (ch : Fin 4) (s : State) : Answer :=
  match nextLaunch s ch.val with
  | none => .next s
  | some b => .next (launchBurst ch.val b s)

/-- BURST_END (R127, R129, R130): the frames whose last fragment it carried are stamped (R531). -/
def execBurstEnd (ch : Fin 4) (s : State) : Answer :=
  match nextEnd s ch.val with
  | none => .next s
  | some b =>
    let last := b.sections.flatMap (·.frames)
    .next (endBurst ch.val b
      (last.foldl (fun s p => stampAt p 9 (4 + ch.val) ch.val s) (passTo (bitsPs b.endBit) s)))

end Sys2Proof.Machine
end

