-- ==== Sys2Proof/Machine/Dispatch.lean ====
section
/-! DEFINITION. The dispatch: one arm per command of spec/opcode_table.json. -/

namespace Sys2Proof.Machine

open Sys2Proof

/-- The effect of a command on everything but the queue. -/
def exec (i : Instr) (s : State) : Host.Outcome State Fault Refusal :=
  match i with
  | .mbxDoorbell v => Sys2Proof.Machine.execMbxDoorbell v s
  | .mbxStatusRead n => Sys2Proof.Machine.execMbxStatusRead n s
  | .mailboxWrite n off data => Sys2Proof.Machine.execMailboxWrite n off data s
  | .mbxDoneClear v same => Sys2Proof.Machine.execMbxDoneClear v same s
  | .mbxIrqEnWrite v => Sys2Proof.Machine.execMbxIrqEnWrite v s
  | .evtEnable => Sys2Proof.Machine.execEvtEnable s
  | .evtDisable => Sys2Proof.Machine.execEvtDisable s
  | .evtConsumerWrite v => Sys2Proof.Machine.execEvtConsumerWrite v s
  | .msixModWrite vec v => Sys2Proof.Machine.execMsixModWrite vec v s
  | .hringRxTailWrite r v => Sys2Proof.Machine.execHringRxTailWrite r v s
  | .hringTxTailWrite r v => Sys2Proof.Machine.execHringTxTailWrite r v s
  | .jrnWindowSeqWrite v => Sys2Proof.Machine.execJrnWindowSeqWrite v s
  | .jrnWindowCopyDone => Sys2Proof.Machine.execJrnWindowCopyDone s
  | .timeSnap v => Sys2Proof.Machine.execTimeSnap v s
  | .faultStatusClear v same => Sys2Proof.Machine.execFaultStatusClear v same s
  | .mdioCmdGo v => Sys2Proof.Machine.execMdioCmdGo v s
  | .mdioFrameDone found data => Sys2Proof.Machine.execMdioFrameDone found data s
  | .registerWrite off v => Sys2Proof.Machine.execRegisterWrite off v s
  | .registerLowWordWrite off v => Sys2Proof.Machine.execRegisterLowWordWrite off v s
  | .registerLowWordRead off => Sys2Proof.Machine.execRegisterLowWordRead off s
  | .rcFieldRead f event => Sys2Proof.Machine.execRcFieldRead f event s
  | .unsupportedRequest b access => Sys2Proof.Machine.execUnsupportedRequest b s access
  | .busMasterDisable => Sys2Proof.Machine.execBusMasterDisable s
  | .pciPmD3hot => Sys2Proof.Machine.execPciPmD3hot s
  | .busMasterEnable => Sys2Proof.Machine.execBusMasterEnable s
  | .functionLevelReset => Sys2Proof.Machine.execFunctionLevelReset s
  | .perstNLow held => Sys2Proof.Machine.execPerstNLow s held
  | .commandDeadlineExpiry n items internal => Sys2Proof.Machine.execCommandDeadlineExpiry n items s internal
  | .deviceReadState n => Sys2Proof.Machine.execDeviceReadState n s
  | .deviceStart n => Sys2Proof.Machine.execDeviceStart n s
  | .deviceStop n => Sys2Proof.Machine.execDeviceStop n s
  | .deviceSetProfile n => Sys2Proof.Machine.execDeviceSetProfile n s
  | .deviceSetRing n => Sys2Proof.Machine.execDeviceSetRing n s
  | .deviceEnterMaintenance n => Sys2Proof.Machine.execDeviceEnterMaintenance n s
  | .deviceLeaveMaintenance n => Sys2Proof.Machine.execDeviceLeaveMaintenance n s
  | .deviceLeaveSafe n => Sys2Proof.Machine.execDeviceLeaveSafe n s
  | .deviceReset n => Sys2Proof.Machine.execDeviceReset n s
  | .deviceEraseKeys n => Sys2Proof.Machine.execDeviceEraseKeys n s
  | .deviceNop n => Sys2Proof.Machine.execDeviceNop n s
  | .deviceReadIdentity n => Sys2Proof.Machine.execDeviceReadIdentity n s
  | .fibreSetChannel n => Sys2Proof.Machine.execFibreSetChannel n s
  | .fibreSetBond n => Sys2Proof.Machine.execFibreSetBond n s
  | .fibreSetGroups n => Sys2Proof.Machine.execFibreSetGroups n s
  | .fibreSetPortId n => Sys2Proof.Machine.execFibreSetPortId n s
  | .fibreSetUpstream n => Sys2Proof.Machine.execFibreSetUpstream n s
  | .fibreSetAllocQueues n => Sys2Proof.Machine.execFibreSetAllocQueues n s
  | .fibreSetHeKey n => Sys2Proof.Machine.execFibreSetHeKey n s
  | .fibreSetPolicy n => Sys2Proof.Machine.execFibreSetPolicy n s
  | .fibreReadStatus n => Sys2Proof.Machine.execFibreReadStatus n s
  | .fibreReadCounters n => Sys2Proof.Machine.execFibreReadCounters n s
  | .parseLoad n => Sys2Proof.Machine.execParseLoad n s
  | .parseInstall n => Sys2Proof.Machine.execParseInstall n s
  | .rulesSetComparator n => Sys2Proof.Machine.execRulesSetComparator n s
  | .rulesBegin n => Sys2Proof.Machine.execRulesBegin n s
  | .rulesAdd n => Sys2Proof.Machine.execRulesAdd n s
  | .rulesRemove n => Sys2Proof.Machine.execRulesRemove n s
  | .rulesAbort n => Sys2Proof.Machine.execRulesAbort n s
  | .rulesCommit n => Sys2Proof.Machine.execRulesCommit n s
  | .rulesRead n => Sys2Proof.Machine.execRulesRead n s
  | .tableSetProfile n => Sys2Proof.Machine.execTableSetProfile n s
  | .tableAdd n => Sys2Proof.Machine.execTableAdd n s
  | .tableModify n => Sys2Proof.Machine.execTableModify n s
  | .tableDelete n => Sys2Proof.Machine.execTableDelete n s
  | .tableRead n => Sys2Proof.Machine.execTableRead n s
  | .tableSetPort n => Sys2Proof.Machine.execTableSetPort n s
  | .tableSetVlan n => Sys2Proof.Machine.execTableSetVlan n s
  | .tableSetAging n => Sys2Proof.Machine.execTableSetAging n s
  | .tableReadAged n => Sys2Proof.Machine.execTableReadAged n s
  | .trafficSetQueue n => Sys2Proof.Machine.execTrafficSetQueue n s
  | .trafficFlushQueue n => Sys2Proof.Machine.execTrafficFlushQueue n s
  | .trafficSetPolicer n => Sys2Proof.Machine.execTrafficSetPolicer n s
  | .trafficSetShaper n => Sys2Proof.Machine.execTrafficSetShaper n s
  | .trafficSetPause n => Sys2Proof.Machine.execTrafficSetPause n s
  | .trafficSetGate n => Sys2Proof.Machine.execTrafficSetGate n s
  | .trafficSetHistogram n => Sys2Proof.Machine.execTrafficSetHistogram n s
  | .trafficRead n => Sys2Proof.Machine.execTrafficRead n s
  | .trafficReadHistogram n => Sys2Proof.Machine.execTrafficReadHistogram n s
  | .cipherSetCak n dma => Sys2Proof.Machine.execCipherSetCak n dma s
  | .cipherSetMacsec n => Sys2Proof.Machine.execCipherSetMacsec n s
  | .cipherSetThreshold n => Sys2Proof.Machine.execCipherSetThreshold n s
  | .cipherReadStatus n => Sys2Proof.Machine.execCipherReadStatus n s
  | .timeSet n => Sys2Proof.Machine.execTimeSet n s
  | .timeStep n => Sys2Proof.Machine.execTimeStep n s
  | .timeSetServo n => Sys2Proof.Machine.execTimeSetServo n s
  | .timeSelectDomain n => Sys2Proof.Machine.execTimeSelectDomain n s
  | .timeSetFibre n => Sys2Proof.Machine.execTimeSetFibre n s
  | .timeReadFibre n => Sys2Proof.Machine.execTimeReadFibre n s
  | .timeSetSource n => Sys2Proof.Machine.execTimeSetSource n s
  | .timeSetIo n => Sys2Proof.Machine.execTimeSetIo n s
  | .timeSetPtp n => Sys2Proof.Machine.execTimeSetPtp n s
  | .timeReadStatus n => Sys2Proof.Machine.execTimeReadStatus n s
  | .portConfigure n => Sys2Proof.Machine.execPortConfigure n s
  | .portSetFilter n => Sys2Proof.Machine.execPortSetFilter n s
  | .portSetAddress n => Sys2Proof.Machine.execPortSetAddress n s
  | .portSetAggregation n => Sys2Proof.Machine.execPortSetAggregation n s
  | .portSetMgmt n => Sys2Proof.Machine.execPortSetMgmt n s
  | .portSetLldp n => Sys2Proof.Machine.execPortSetLldp n s
  | .portReadStatus n => Sys2Proof.Machine.execPortReadStatus n s
  | .portReadCounters n => Sys2Proof.Machine.execPortReadCounters n s
  | .laneConfigure n => Sys2Proof.Machine.execLaneConfigure n s
  | .laneSetTest n => Sys2Proof.Machine.execLaneSetTest n s
  | .laneInject n => Sys2Proof.Machine.execLaneInject n s
  | .laneReadStatus n => Sys2Proof.Machine.execLaneReadStatus n s
  | .laneReadCounters n => Sys2Proof.Machine.execLaneReadCounters n s
  | .powerSetState n => Sys2Proof.Machine.execPowerSetState n s
  | .powerSetCap n => Sys2Proof.Machine.execPowerSetCap n s
  | .powerSetDroop n => Sys2Proof.Machine.execPowerSetDroop n s
  | .powerReadStatus n => Sys2Proof.Machine.execPowerReadStatus n s
  | .obsSetCounter n => Sys2Proof.Machine.execObsSetCounter n s
  | .obsSetDump n => Sys2Proof.Machine.execObsSetDump n s
  | .obsReadGroup n => Sys2Proof.Machine.execObsReadGroup n s
  | .obsSetSampling n => Sys2Proof.Machine.execObsSetSampling n s
  | .obsReadAudit n => Sys2Proof.Machine.execObsReadAudit n s
  | .obsSetIpfix n => Sys2Proof.Machine.execObsSetIpfix n s
  | .obsSetTrap n => Sys2Proof.Machine.execObsSetTrap n s
  | .obsReadDrops n => Sys2Proof.Machine.execObsReadDrops n s
  | .obsSetEcc n => Sys2Proof.Machine.execObsSetEcc n s
  | .journalRead n => Sys2Proof.Machine.execJournalRead n s
  | .recorderSet n => Sys2Proof.Machine.execRecorderSet n s
  | .recorderRead n => Sys2Proof.Machine.execRecorderRead n s
  | .maintReadVersion n => Sys2Proof.Machine.execMaintReadVersion n s
  | .maintFlashWrite n => Sys2Proof.Machine.execMaintFlashWrite n s
  | .maintSelectImage n => Sys2Proof.Machine.execMaintSelectImage n s
  | .maintSelfTest n => Sys2Proof.Machine.execMaintSelfTest n s
  | .maintReplay n => Sys2Proof.Machine.execMaintReplay n s
  | .maintAbort n => Sys2Proof.Machine.execMaintAbort n s
  | .backgroundCommandDone n res => Sys2Proof.Machine.execBackgroundCommandDone n res s
  | .powerOn => Sys2Proof.Machine.execPowerOn s
  | .underVoltageLockout => Sys2Proof.Machine.execUnderVoltageLockout s
  | .resetRelease held => Sys2Proof.Machine.execResetRelease s held
  | .pinReset held => Sys2Proof.Machine.execPinReset s held
  | .bootSelect readMode slow => Sys2Proof.Machine.execBootSelect readMode s slow
  | .loadingComplete => Sys2Proof.Machine.execLoadingComplete s
  | .imageConfirm => Sys2Proof.Machine.execImageConfirm s
  | .refclk156Qualify => Sys2Proof.Machine.execRefclk156Qualify s
  | .refclk156Loss => Sys2Proof.Machine.execRefclk156Loss s
  | .pgoodInTransition level held => Sys2Proof.Machine.execPgoodInTransition level s held
  | .dyingGaspClear => Sys2Proof.Machine.execDyingGaspClear s
  | .vinSample mV => Sys2Proof.Machine.execVinSample mV s
  | .vioOptLow held => Sys2Proof.Machine.execVioOptLow s held
  | .vioOptRestore held => Sys2Proof.Machine.execVioOptRestore s held
  | .alarm src => Sys2Proof.Machine.execAlarm src s
  | .eraseDone => Sys2Proof.Machine.execEraseDone s
  | .tamperCheck same => Sys2Proof.Machine.execTamperCheck same s
  | .lockstepMismatch => Sys2Proof.Machine.execLockstepMismatch s
  | .watchdog loop => Sys2Proof.Machine.execWatchdog loop s
  | .hiveMemoryError => Sys2Proof.Machine.execHiveMemoryError s
  | .thermalConversion sensor t others => Sys2Proof.Machine.execThermalConversion sensor t s others
  | .throttleRelease => Sys2Proof.Machine.execThrottleRelease s
  | .sensorFailed sensor => Sys2Proof.Machine.execSensorFailed sensor s
  | .droopSag d => Sys2Proof.Machine.execDroopSag d s
  | .droopStretchEnd d => Sys2Proof.Machine.execDroopStretchEnd d s
  | .powerCapEvaluation mW => Sys2Proof.Machine.execPowerCapEvaluation mW s
  | .degradedEvaluation => Sys2Proof.Machine.execDegradedEvaluation s
  | .txfaultTransition ch level held => Sys2Proof.Machine.execTxfaultTransition ch level s held
  | .gpioInputTransition pin level held => Sys2Proof.Machine.execGpioInputTransition pin level s held
  | .referenceInputChange qualified => Sys2Proof.Machine.execReferenceInputChange qualified s
  | .ppsInEdge width => Sys2Proof.Machine.execPpsInEdge s width
  | .todInMessage msg framed => Sys2Proof.Machine.execTodInMessage msg s framed
  | .laneDetector lane det raised seen => Sys2Proof.Machine.execLaneDetector lane det raised s seen
  | .energyDetect lane seen => Sys2Proof.Machine.execEnergyDetect lane s seen
  | .laneDeepEntryDone lane => Sys2Proof.Machine.execLaneDeepEntryDone lane s
  | .laneReady lane signal snr => Sys2Proof.Machine.execLaneReady lane signal snr s
  | .checkerLockChange lane locked bits bitErrors symErrors => Sys2Proof.Machine.execCheckerLockChange lane locked bits bitErrors symErrors s
  | .linkUp p => Sys2Proof.Machine.execLinkUp p s
  | .linkDown p => Sys2Proof.Machine.execLinkDown p s
  | .anRestart p fecFailed => Sys2Proof.Machine.execAnRestart p fecFailed s
  | .lpiEntry p => Sys2Proof.Machine.execLpiEntry p s
  | .clientFrameReceive p frame room pcsOk => Sys2Proof.Machine.execClientFrameReceive p frame room pcsOk s
  | .pauseTimerExpiry p => Sys2Proof.Machine.execPauseTimerExpiry p s
  | .protocolFrame p act => Sys2Proof.Machine.execProtocolFrame p act s
  | .ptpTimeout p => Sys2Proof.Machine.execPtpTimeout p s
  | .huntMatch ch offset window => Sys2Proof.Machine.execHuntMatch ch offset window s
  | .candidateTest ch slot window word0 => Sys2Proof.Machine.execCandidateTest ch slot window word0 s
  | .presyncTest ch window word0 => Sys2Proof.Machine.execPresyncTest ch window word0 s
  | .syncFrameTest ch window => Sys2Proof.Machine.execSyncFrameTest ch window s
  | .downstreamFrame ch f => Sys2Proof.Machine.execDownstreamFrame ch f s
  | .signalFailWindow ch => Sys2Proof.Machine.execSignalFailWindow ch s
  | .signalDegradeWindow ch => Sys2Proof.Machine.execSignalDegradeWindow ch s
  | .pfeFrame ch none_ => Sys2Proof.Machine.execPfeFrame ch none_ s
  | .bondWaitExpiry => Sys2Proof.Machine.execBondWaitExpiry s
  | .bondReservationFree ch => Sys2Proof.Machine.execBondReservationFree ch s
  | .todFieldSample => Sys2Proof.Machine.execTodFieldSample s
  | .asymmetryEstimate => Sys2Proof.Machine.execAsymmetryEstimate s
  | .servoSample d e age => Sys2Proof.Machine.execServoSample d e age s
  | .domainHoldover d => Sys2Proof.Machine.execDomainHoldover d s
  | .slewEnd => Sys2Proof.Machine.execSlewEnd s
  | .ppsOutEdge => Sys2Proof.Machine.execPpsOutEdge s
  | .todOutMessage => Sys2Proof.Machine.execTodOutMessage s
  | .timestampDrain p => Sys2Proof.Machine.execTimestampDrain p s
  | .stationMessage => Sys2Proof.Machine.execStationMessage s
  | .profile => Sys2Proof.Machine.execProfile s
  | .rangingParams => Sys2Proof.Machine.execRangingParams s
  | .assignStation => Sys2Proof.Machine.execAssignStation s
  | .rangingTime => Sys2Proof.Machine.execRangingTime s
  | .deactivate => Sys2Proof.Machine.execDeactivate s
  | .silence => Sys2Proof.Machine.execSilence s
  | .allocation => Sys2Proof.Machine.execAllocation s
  | .heKey => Sys2Proof.Machine.execHeKey s
  | .registrationTimeout g => Sys2Proof.Machine.execRegistrationTimeout g s
  | .keySwitch => Sys2Proof.Machine.execKeySwitch s
  | .epochSwitchApply g => Sys2Proof.Machine.execEpochSwitchApply g s
  | .epochRetire g => Sys2Proof.Machine.execEpochRetire g s
  | .dozeReply => Sys2Proof.Machine.execDozeReply s
  | .dozeEnd => Sys2Proof.Machine.execDozeEnd s
  | .rangingTimerExpiry ch => Sys2Proof.Machine.execRangingTimerExpiry ch s
  | .f6TimerExpiry ch => Sys2Proof.Machine.execF6TimerExpiry ch s
  | .rekeyInterval g => Sys2Proof.Machine.execRekeyInterval g s
  | .consequentAction ch t => Sys2Proof.Machine.execConsequentAction ch t s
  | .channelRestore ch => Sys2Proof.Machine.execChannelRestore ch s
  | .stagingAdmit alloc => Sys2Proof.Machine.execStagingAdmit alloc s
  | .sectionCommit ch => Sys2Proof.Machine.execSectionCommit ch s
  | .burstLaunch ch => Sys2Proof.Machine.execBurstLaunch ch s
  | .burstEnd ch => Sys2Proof.Machine.execBurstEnd ch s
  | .cipherRequest src => Sys2Proof.Machine.execCipherRequest src s
  | .keyDerivationDone => Sys2Proof.Machine.execKeyDerivationDone s
  | .pipelineStart p => Sys2Proof.Machine.execPipelineStart p s
  | .bulkShare p => Sys2Proof.Machine.execBulkShare p s
  | .cipherResult p => Sys2Proof.Machine.execCipherResult p s
  | .tagFailureCheck => Sys2Proof.Machine.execTagFailureCheck s
  | .pipelinePass slice reads => Sys2Proof.Machine.execPipelinePass slice s reads
  | .learnCandidate => Sys2Proof.Machine.execLearnCandidate s
  | .learnCompletion => Sys2Proof.Machine.execLearnCompletion s
  | .agingVisit way index => Sys2Proof.Machine.execAgingVisit way index s
  | .rulesRetire => Sys2Proof.Machine.execRulesRetire s
  | .enqueue => Sys2Proof.Machine.execEnqueue s
  | .xoffRefresh p c => Sys2Proof.Machine.execXoffRefresh p c s
  | .transmitStart p => Sys2Proof.Machine.execTransmitStart p s
  | .egressFrameEnd p uncorrectable => Sys2Proof.Machine.execEgressFrameEnd p uncorrectable s
  | .sojournCheck q => Sys2Proof.Machine.execSojournCheck q s
  | .spillReadback q => Sys2Proof.Machine.execSpillReadback q s
  | .shaperRefill => Sys2Proof.Machine.execShaperRefill s
  | .gateChange target => Sys2Proof.Machine.execGateChange target s
  | .gateListSwitch target => Sys2Proof.Machine.execGateListSwitch target s
  | .gateHoldTest q => Sys2Proof.Machine.execGateHoldTest q s
  | .hostRxDeliver r bufAddr => Sys2Proof.Machine.execHostRxDeliver r bufAddr s
  | .hostTxFetch r desc data => Sys2Proof.Machine.execHostTxFetch r desc data s
  | .mergeRetire ctl cause writes => Sys2Proof.Machine.execMergeRetire ctl cause s writes
  | .scrubRead region addr verdict user => Sys2Proof.Machine.execScrubRead region addr verdict s user
  | .eccBucketLeak region => Sys2Proof.Machine.execEccBucketLeak region s
  | .eccFilterExpiry region addr => Sys2Proof.Machine.execEccFilterExpiry region addr s
  | .restoration region addr shadowOk => Sys2Proof.Machine.execRestoration region addr shadowOk s
  | .domainWake d crcOk => Sys2Proof.Machine.execDomainWake d crcOk s
  | .domainIdleOff d => Sys2Proof.Machine.execDomainIdleOff d s
  | .d2Entry => Sys2Proof.Machine.execD2Entry s
  | .wakeSource w => Sys2Proof.Machine.execWakeSource w s
  | .d2ExitDone lost => Sys2Proof.Machine.execD2ExitDone lost s
  | .d3EntryDone => Sys2Proof.Machine.execD3EntryDone s
  | .d3ExitDone lost => Sys2Proof.Machine.execD3ExitDone lost s
  | .powerStateChangeDone => Sys2Proof.Machine.execPowerStateChangeDone s
  | .auditPoint none_ => Sys2Proof.Machine.execAuditPoint none_ s
  | .dumpDone => Sys2Proof.Machine.execDumpDone s
  | .ipfixRecord e reason => Sys2Proof.Machine.execIpfixRecord e reason s
  | .ipfixTemplate => Sys2Proof.Machine.execIpfixTemplate s
  | .collectorResolve resolved => Sys2Proof.Machine.execCollectorResolve resolved s
  | .opticDiagRead ch page => Sys2Proof.Machine.execOpticDiagRead ch page s
  | .checkpoint => Sys2Proof.Machine.execCheckpoint s
  | .randomReseed => Sys2Proof.Machine.execRandomReseed s
  | .eventBacklogDrain => Sys2Proof.Machine.execEventBacklogDrain s
  | .msixHoldoffExpiry vec => Sys2Proof.Machine.execMsixHoldoffExpiry vec s
  | .linkConditionChange p aligned fecLock localFault remoteFault => Sys2Proof.Machine.execLinkConditionChange p aligned fecLock localFault remoteFault s
  | .autoNegotiationComplete p rsFec trained precode => Sys2Proof.Machine.execAutoNegotiationComplete p rsFec trained s precode
  | .mgmtSynchronisationChange acquired sets commas => Sys2Proof.Machine.execMgmtSynchronisationChange acquired s sets commas
  | .receiveLpi lane phase => Sys2Proof.Machine.execReceiveLpi lane phase s
  | .perstNRelease held => Sys2Proof.Machine.execPerstNRelease s held
  | .jtagInstruction j => Sys2Proof.Machine.execJtagInstruction j s
  | .sustainedSag d => Sys2Proof.Machine.execSustainedSag d s
  | .protocolTimer kind p => Sys2Proof.Machine.execProtocolTimer kind p s
  | .unknownOpcode n => Sys2Proof.Machine.execUnknownOpcode n s
  | .counterAccumulation => Sys2Proof.Machine.execCounterAccumulation s

end Sys2Proof.Machine
end

