-- ==== Sys2Proof/Safety.lean ====
section
/-! DEFINITION. What claims about the machine are stated in: the invariants of the mailbox memory and of
the journal, and when Knarrasar accepts the command that a mailbox holds. -/

namespace Sys2Proof.Machine

open Sys2Proof

/-! ### Invariants -/

/-- The mailbox memory is in its canonical form (R406). -/
abbrev MailboxOk (s : State) : Prop := twf 0 s.hif.mbox = true

/-- The journal holds the newest 8,192 entries, newest first, numbered without a gap up to the highest
JOURNAL_SEQ written (R432). -/
abbrev JournalOk (s : State) : Prop :=
  s.hif.journal.map (·.jseq)
    = (List.range (min s.hif.jrnHead 8192)).map (fun i => s.hif.jrnHead - i)

/-- The device states in which no traffic runs and that no start command leaves: SAFE, and the reset states
COLD and LOADING (R441, R442). -/
def halted : DevState → Bool
  | .safe | .loading | .cold => true
  | .standby | .active | .degraded | .maintenance => false

/-! ### A command that Knarrasar accepts (R413, R414) -/

/-- CMD_SEQ of mailbox n (R407). -/
def cmdSeq (s : State) (n : Nat) : Word32 := BitVec.ofNat 32 (mbxField s n 0x000 4)

/-- The argument bytes of mailbox n: CMD_LEN of them (R407). -/
def cmdArgs (s : State) (n : Nat) : Bytes := mbxRead s n 0x040 (min (mbxField s n 0x006 2) 1984)

/-- CMD_SEQ is not 0, and d = (CMD_SEQ − LAST_SEQ) modulo 2^32 is 1 to 2^31 − 1, or no command came
before (R413). -/
def seqNew (s : State) (n : Nat) : Bool :=
  cmdSeq s n != 0 && match lastSeq s n with
    | none => true
    | some l => decide (0 < subMod 32 (cmdSeq s n).toNat l.toNat)
        && decide (subMod 32 (cmdSeq s n).toNat l.toNat < 2 ^ 31)

/-- The instant at which the deadline of a ring passes (R415). -/
def deadlineAt (c : CmdSpec) (n : Nat) (b : Bell) (s : State) : Nat :=
  b.at_ + us (if mbxField s n 0x008 4 = 0 then c.deadline else mbxField s n 0x008 4)

/-- The state in which an accepted command of mailbox n runs: its ring is taken, Amber holds its record, and Hive has
reached what it touches (R478, R553). -/
def underWay (n : Nat) (s : State) : State := beginCommand n (popBell s)

/-- The ring of mailbox n is next, the mailbox holds command c, steps 1 to 5 of R414 pass within the deadline, and so
do the wakes that it costs (R478); a background command finds no other one running (R412). -/
def accepted (c : CmdSpec) (n : Nat) (s : State) : Bool :=
  match frontBell s n with
  | none => false
  | some b =>
    decide (mbxField s n 0x004 2 = c.opcode) && seqNew s n
      && (stepThree (some c) n (mbxField s n 0x006 2) (cmdArgs s n) (popBell s)).isNone
      && (stepFour c (mbxField s n 0x008 4) (cmdArgs s n) (popBell s)).isNone
      && c.legal (popBell s) (cmdArgs s n)
      && decide (s.now ≤ deadlineAt c n b s) && decide ((underWay n s).now ≤ deadlineAt c n b s)
      && (busyWith c (underWay n s)).isNone

/-- The result of the command of mailbox n, journalled and presented on the state t that its execution
leaves (R414 step 7, R416). -/
def answered (c : CmdSpec) (n : Nat) (s : State) (status : Nat) (data : Bytes) (t : State) : State :=
  finish n (cmdSeq s n) c.opcode (cmdArgs s n) true status false false data t

/-- The command of mailbox n taken up and not yet final, on the state t that its first effects leave. -/
def heldBack (c : CmdSpec) (n : Nat) (s : State) (afterExit : Bool) (t : State) : State :=
  let limit := match frontBell s n with
    | some b => deadlineAt c n b s
    | none => 0
  let r : Running := {
    mbx := n, opcode := c.opcode, seq := cmdSeq s n, args := cmdArgs s n, deadline := limit
    background := c.background, afterExit := afterExit }
  { t with hif := { t.hif with running := t.hif.running ++ [r] } }

/-! ### How the commands of the reference complete -/

/-- Every accepted command c whose own conditions hold of its arguments and of the state that takes it up
is answered OK, with this data, on the state of this effect; i is its row. -/
def Completes (c : CmdSpec) (i : Fin 16 → Instr) (own : Bytes → State → Prop)
    (data : Bytes → State → Bytes) (effect : Bytes → State → State) : Prop :=
  ∀ (n : Fin 16) (s : State), accepted c n s = true → own (cmdArgs s n) (underWay n s) →
    exec (i n) s = .next (answered c n s stOk (data (cmdArgs s n) (underWay n s))
      (effect (cmdArgs s n) (underWay n s)))

/-- Every accepted command c whose own conditions hold is taken up and is not final yet, on the state of
this effect; it waits for the exit from D2 or D3 where exit is set (R487). -/
def HeldUp (c : CmdSpec) (i : Fin 16 → Instr) (own : Bytes → State → Prop) (afterExit : Bool)
    (effect : Bytes → State → State) : Prop :=
  ∀ (n : Fin 16) (s : State), accepted c n s = true → own (cmdArgs s n) (underWay n s) →
    exec (i n) s = .next (heldBack c n s afterExit (effect (cmdArgs s n) (underWay n s)))

/-- Every accepted command c whose own conditions fail this way is answered with a status other than OK
and with this data, on an unchanged state (R414 step 6). -/
def TurnedAway (c : CmdSpec) (i : Fin 16 → Instr) (status : Nat) (own : Bytes → State → Prop)
    (data : Bytes → State → Bytes) : Prop :=
  ∀ (n : Fin 16) (s : State), accepted c n s = true → own (cmdArgs s n) (underWay n s) →
    exec (i n) s = .next (answered c n s status (data (cmdArgs s n) (underWay n s)) (underWay n s))

/-- No condition of its own. -/
def always : Bytes → State → Prop := fun _ _ => True

/-- No response data. -/
def noData : Bytes → State → Bytes := fun _ _ => []

/-- No effect but the answer. -/
def unchanged : Bytes → State → State := fun _ t => t

/-! ### The rows of the reference -/

/-- A command of the reference and its row. -/
abbrev CmdRow := CmdSpec × (Fin 16 → Instr)

/-- Rows of opcode group 0x01. -/
def deviceCmdRows : List CmdRow :=
  [(cmdDeviceReadState, .deviceReadState), (cmdDeviceStart, .deviceStart),
   (cmdDeviceStop, .deviceStop), (cmdDeviceSetProfile, .deviceSetProfile),
   (cmdDeviceSetRing, .deviceSetRing), (cmdDeviceEnterMaintenance, .deviceEnterMaintenance),
   (cmdDeviceLeaveMaintenance, .deviceLeaveMaintenance), (cmdDeviceLeaveSafe, .deviceLeaveSafe),
   (cmdDeviceReset, .deviceReset), (cmdDeviceEraseKeys, .deviceEraseKeys),
   (cmdDeviceNop, .deviceNop), (cmdDeviceReadIdentity, .deviceReadIdentity)]

/-- Rows of opcode group 0x02. -/
def fibreCmdRows : List CmdRow :=
  [(cmdFibreSetChannel, .fibreSetChannel), (cmdFibreSetBond, .fibreSetBond),
   (cmdFibreSetGroups, .fibreSetGroups), (cmdFibreSetPortId, .fibreSetPortId),
   (cmdFibreSetUpstream, .fibreSetUpstream), (cmdFibreSetAllocQueues, .fibreSetAllocQueues),
   (cmdFibreSetHeKey, .fibreSetHeKey), (cmdFibreSetPolicy, .fibreSetPolicy),
   (cmdFibreReadStatus, .fibreReadStatus), (cmdFibreReadCounters, .fibreReadCounters)]

/-- Rows of opcode group 0x03. -/
def parseCmdRows : List CmdRow :=
  [(cmdParseLoad, .parseLoad), (cmdParseInstall, .parseInstall),
   (cmdRulesSetComparator, .rulesSetComparator), (cmdRulesBegin, .rulesBegin),
   (cmdRulesAdd, .rulesAdd), (cmdRulesRemove, .rulesRemove), (cmdRulesAbort, .rulesAbort),
   (cmdRulesCommit, .rulesCommit), (cmdRulesRead, .rulesRead)]

/-- Rows of opcode group 0x04. -/
def tableCmdRows : List CmdRow :=
  [(cmdTableSetProfile, .tableSetProfile), (cmdTableAdd, .tableAdd),
   (cmdTableModify, .tableModify), (cmdTableDelete, .tableDelete), (cmdTableRead, .tableRead),
   (cmdTableSetPort, .tableSetPort), (cmdTableSetVlan, .tableSetVlan),
   (cmdTableSetAging, .tableSetAging), (cmdTableReadAged, .tableReadAged)]

/-- Rows of opcode group 0x05. -/
def trafficCmdRows : List CmdRow :=
  [(cmdTrafficSetQueue, .trafficSetQueue), (cmdTrafficFlushQueue, .trafficFlushQueue),
   (cmdTrafficSetPolicer, .trafficSetPolicer), (cmdTrafficSetShaper, .trafficSetShaper),
   (cmdTrafficSetPause, .trafficSetPause), (cmdTrafficSetGate, .trafficSetGate),
   (cmdTrafficSetHistogram, .trafficSetHistogram), (cmdTrafficRead, .trafficRead),
   (cmdTrafficReadHistogram, .trafficReadHistogram)]

/-- Rows of opcode group 0x06. -/
def cipherCmdRows : List CmdRow :=
  [(cmdCipherSetCak none, fun n => .cipherSetCak n none), (cmdCipherSetMacsec, .cipherSetMacsec),
   (cmdCipherSetThreshold, .cipherSetThreshold), (cmdCipherReadStatus, .cipherReadStatus)]

/-- Rows of opcode group 0x07. -/
def timeCmdRows : List CmdRow :=
  [(cmdTimeSet, .timeSet), (cmdTimeStep, .timeStep), (cmdTimeSetServo, .timeSetServo),
   (cmdTimeSelectDomain, .timeSelectDomain), (cmdTimeSetFibre, .timeSetFibre),
   (cmdTimeReadFibre, .timeReadFibre), (cmdTimeSetSource, .timeSetSource),
   (cmdTimeSetIo, .timeSetIo), (cmdTimeSetPtp, .timeSetPtp), (cmdTimeReadStatus, .timeReadStatus)]

/-- Rows of opcode group 0x08. -/
def portCmdRows : List CmdRow :=
  [(cmdPortConfigure, .portConfigure), (cmdPortSetFilter, .portSetFilter),
   (cmdPortSetAddress, .portSetAddress), (cmdPortSetAggregation, .portSetAggregation),
   (cmdPortSetMgmt, .portSetMgmt), (cmdPortSetLldp, .portSetLldp),
   (cmdPortReadStatus, .portReadStatus), (cmdPortReadCounters, .portReadCounters)]

/-- Rows of opcode group 0x09. -/
def laneCmdRows : List CmdRow :=
  [(cmdLaneConfigure, .laneConfigure), (cmdLaneSetTest, .laneSetTest),
   (cmdLaneInject, .laneInject), (cmdLaneReadStatus, .laneReadStatus),
   (cmdLaneReadCounters, .laneReadCounters)]

/-- Rows of opcode group 0x0a. -/
def powerCmdRows : List CmdRow :=
  [(cmdPowerSetState, .powerSetState), (cmdPowerSetCap, .powerSetCap),
   (cmdPowerSetDroop, .powerSetDroop), (cmdPowerReadStatus, .powerReadStatus)]

/-- Rows of opcode group 0x0b. -/
def observabilityCmdRows : List CmdRow :=
  [(cmdObsSetCounter, .obsSetCounter), (cmdObsSetDump, .obsSetDump),
   (cmdObsReadGroup, .obsReadGroup), (cmdObsSetSampling, .obsSetSampling),
   (cmdObsReadAudit, .obsReadAudit), (cmdObsSetIpfix, .obsSetIpfix), (cmdObsSetTrap, .obsSetTrap),
   (cmdObsReadDrops, .obsReadDrops), (cmdObsSetEcc, .obsSetEcc)]

/-- Rows of opcode group 0x0c. -/
def journalCmdRows : List CmdRow :=
  [(cmdJournalRead, .journalRead), (cmdRecorderSet, .recorderSet),
   (cmdRecorderRead, .recorderRead)]

/-- Rows of opcode group 0x0d. -/
def maintenanceCmdRows : List CmdRow :=
  [(cmdMaintReadVersion, .maintReadVersion), (cmdMaintFlashWrite, .maintFlashWrite),
   (cmdMaintSelectImage, .maintSelectImage), (cmdMaintSelfTest, .maintSelfTest),
   (cmdMaintReplay, .maintReplay), (cmdMaintAbort, .maintAbort)]

/-- Every row that is a mailbox command (R450 to R472). -/
def commandRows : List CmdRow :=
  deviceCmdRows ++ fibreCmdRows ++ parseCmdRows ++ tableCmdRows ++ trafficCmdRows ++ cipherCmdRows ++ timeCmdRows
    ++ portCmdRows ++ laneCmdRows ++ powerCmdRows ++ observabilityCmdRows ++ journalCmdRows ++ maintenanceCmdRows

/-- The rows that may change a mailbox's bytes or the journal: the commands of the reference, host accesses to
a mailbox, the ends of waiting commands, and what may reset the device or end in SAFE. -/
def touchesMailbox : Instr → Bool
  | .deviceReadState _ | .deviceStart _ | .deviceStop _ | .deviceSetProfile _ | .deviceSetRing _
  | .deviceEnterMaintenance _ | .deviceLeaveMaintenance _ | .deviceLeaveSafe _ | .deviceReset _
  | .deviceEraseKeys _ | .deviceNop _ | .deviceReadIdentity _ | .fibreSetChannel _
  | .fibreSetBond _ | .fibreSetGroups _ | .fibreSetPortId _ | .fibreSetUpstream _
  | .fibreSetAllocQueues _ | .fibreSetHeKey _ | .fibreSetPolicy _ | .fibreReadStatus _
  | .fibreReadCounters _ | .parseLoad _ | .parseInstall _ | .rulesSetComparator _ | .rulesBegin _
  | .rulesAdd _ | .rulesRemove _ | .rulesAbort _ | .rulesCommit _ | .rulesRead _
  | .tableSetProfile _ | .tableAdd _ | .tableModify _ | .tableDelete _ | .tableRead _
  | .tableSetPort _ | .tableSetVlan _ | .tableSetAging _ | .tableReadAged _ | .trafficSetQueue _
  | .trafficFlushQueue _ | .trafficSetPolicer _ | .trafficSetShaper _ | .trafficSetPause _
  | .trafficSetGate _ | .trafficSetHistogram _ | .trafficRead _ | .trafficReadHistogram _
  | .cipherSetCak _ _ | .cipherSetMacsec _ | .cipherSetThreshold _ | .cipherReadStatus _
  | .timeSet _ | .timeStep _ | .timeSetServo _ | .timeSelectDomain _ | .timeSetFibre _
  | .timeReadFibre _ | .timeSetSource _ | .timeSetIo _ | .timeSetPtp _ | .timeReadStatus _
  | .portConfigure _ | .portSetFilter _ | .portSetAddress _ | .portSetAggregation _
  | .portSetMgmt _ | .portSetLldp _ | .portReadStatus _ | .portReadCounters _ | .laneConfigure _
  | .laneSetTest _ | .laneInject _ | .laneReadStatus _ | .laneReadCounters _ | .powerSetState _
  | .powerSetCap _ | .powerSetDroop _ | .powerReadStatus _ | .obsSetCounter _ | .obsSetDump _
  | .obsReadGroup _ | .obsSetSampling _ | .obsReadAudit _ | .obsSetIpfix _ | .obsSetTrap _
  | .obsReadDrops _ | .obsSetEcc _ | .journalRead _ | .recorderSet _ | .recorderRead _
  | .maintReadVersion _ | .maintFlashWrite _ | .maintSelectImage _ | .maintSelfTest _
  | .maintReplay _ | .maintAbort _ | .unknownOpcode _ | .commandDeadlineExpiry _ _ _ | .mbxDoorbell _
  | .mbxStatusRead _ | .mailboxWrite _ _ _ | .alarm _ | .eraseDone | .tamperCheck _
  | .lockstepMismatch | .watchdog _ | .hiveMemoryError | .thermalConversion _ _ _ | .d2Entry
  | .d3EntryDone | .powerStateChangeDone | .d2ExitDone _ | .d3ExitDone _ | .powerOn
  | .underVoltageLockout | .pinReset _ | .vinSample _ | .loadingComplete | .dozeReply
  | .scrubRead _ _ _ _ | .mergeRetire _ _ _ | .restoration _ _ _ | .backgroundCommandDone _ _ => true
  | .unsupportedRequest _ a => a.isSome
  | _ => false

end Sys2Proof.Machine
end

