-- ==== Sys2Proof/Certificates/Slice0/Obligations.lean ====
section
/-! DEFINITION. The statements for the provers. Each names the rules of the specification that it rests on;
OBLIGATIONS.json lists them. -/

open Sys2Proof Sys2Proof.Machine

/-- A step runs the command at the front of the queue, on the state that holds the rest of the queue. With no
command waiting it is one tick of the main counter: 0.8 ns pass and the clocks advance. Both are the model's
choice (log entry 2). -/
def Obligations.StepRunsFrontCommand : Prop :=
  (∀ (c : Instr) (rest : List Instr) (s : State), s.pending = c :: rest →
    step s = exec c { s with pending := rest })
  ∧ (∀ s : State, s.pending = [] → step s = .next (idleTick s) ∧ (idleTick s).now = s.now + 800
    ∧ (idleTick s).pending = [] ∧ (idleTick s).hif = s.hif ∧ (idleTick s).dev = s.dev
    ∧ (idleTick s).cnt = s.cnt ∧ (idleTick s).out = s.out)

/-- No command is ever refused and none faults: from every state each one ends in a next state. Commands enter
the queue from outside only: no command adds, removes or reorders what waits in it. -/
def Obligations.CommandsCompleteAndKeepTheQueue : Prop :=
  ∀ (c : Instr) (s : State), ∃ t, exec c s = .next t ∧ t.pending = s.pending

/-- Every step keeps the mailbox memory in its canonical form: addresses strictly rising, no entry equal
to the 0 that every byte reads as after reset (R406). -/
def Obligations.StepKeepsMailboxForm : Prop :=
  ∀ s t : State, MailboxOk s → step s = .next t → MailboxOk t

/-- Every step keeps the journal whole: it holds the newest entries, at most 8,192, newest first, and their
sequence numbers run without a gap up to JRN_HEAD, through every command and every reset (R432, R436). -/
def Obligations.StepKeepsJournalWhole : Prop :=
  ∀ s t : State, JournalOk s → step s = .next t → JournalOk t

/-- After reset no command waits, the mailbox memory and the journal are in order, and every BAR2 register reads
its stated reset value (R613 to R630): COLD in D0 with the Balanced profile, cause power-on, power domains 0, 89
and 94 usable, PHASE 1, and 0 in every other register. The values that the specification leaves
open are the model's (log entries 1 and 13). -/
def Obligations.ResetValues : Prop :=
  MailboxOk State.reset ∧ JournalOk State.reset ∧ State.reset.pending = []
  ∧ regWord State.reset 0x0004 = 0x00001001 ∧ regWord State.reset 0x0008 = 0x00000001
  ∧ regWord State.reset 0x000C = 0 ∧ regWord State.reset 0x0010 = 0x00000001
  ∧ regWord State.reset 0x0014 = 0 ∧ regWord State.reset 0x0018 = 0x42000000
  ∧ regWord State.reset 0x0200 = 0x00000002
  ∧ (∀ off, 0x001C ≤ off → off ≠ 0x0200 → regWord State.reset off = 0)

/-- What a row that is no command, mailbox access, reset, alarm or wake leaves alone: no row of the table but
those named in touchesMailbox changes a mailbox byte, a journal entry or JRN_HEAD, and none of the others but the
evaluation of R443, the release from reset and the qualification of REFCLK156 changes the device state (R405,
R409, R433, R442). -/
def Obligations.EventsLeaveMailboxesAndState : Prop :=
  ∀ (c : Instr) (s t : State), touchesMailbox c = false → exec c s = .next t →
    t.hif.mbox = s.hif.mbox ∧ t.hif.journal = s.hif.journal ∧ t.hif.jrnHead = s.hif.jrnHead
    ∧ (c ∉ [Instr.degradedEvaluation, .resetRelease, .refclk156Qualify] → t.dev.state = s.dev.state)

/-- SAFE, COLD and LOADING are left for a state that runs or may start only as R442 lists: by DEVICE_LEAVE_SAFE
from SAFE, and by the end of loading from LOADING. From any of the three, every other command and event leaves
the device in one of the three (R441, R442, R444). -/
def Obligations.HaltedStatesAreHeld : Prop :=
  (∀ (c : Instr) (s t : State), halted s.dev.state = true → (∀ n, c ≠ .deviceLeaveSafe n) →
    c ≠ .loadingComplete → exec c s = .next t → halted t.dev.state = true)
  ∧ (∀ (n : Fin 16) (s t : State), halted s.dev.state = true → s.dev.state ≠ .safe →
    exec (.deviceLeaveSafe n) s = .next t → halted t.dev.state = true)
  ∧ (∀ s : State, s.dev.state ≠ .loading → exec .loadingComplete s = .next s)

/-- R616: RESET_CAUSE reads CAUSE in [7:0], PREVIOUS in [15:8] and 0 above; after power-on it reads 0x01. Each reset
writes its own code of R602; a warm reset moves CAUSE to PREVIOUS, a cold one sets PREVIOUS to 0; a host write
changes neither. It states that these rows complete: deviceReset, powerOn, pinReset, watchdog, hiveMemoryError. -/
def Obligations.ResetCauseIsKept : Prop :=
  (∀ s : State, regWord s 0x0008 = s.dev.cause.toNat + 2 ^ 8 * s.dev.previous.toNat
    ∧ s.dev.cause.toNat < 2 ^ 8 ∧ s.dev.previous.toNat < 2 ^ 8)
  ∧ regWord State.reset 0x0008 = 0x01
  ∧ (∀ s : State, s.sup.lockout = true →
    ∃ t, exec .powerOn s = .next t ∧ t.dev.cause = 0x01 ∧ t.dev.previous = 0)
  ∧ (∀ (held : Nat) (s : State), s.sup.lockout = false → us 1 ≤ held →
    ∃ t, exec (.pinReset held) s = .next t ∧ t.dev.cause = 0x02 ∧ t.dev.previous = 0)
  ∧ (∀ (n : Fin 16) (s : State), accepted cmdDeviceReset n s = true → s.pow.state ≠ .d2 → s.pow.state ≠ .d3 →
    s.pow.phase ≠ .enteringD3 → byteAt (cmdArgs s n) 0 = 2 →
    ∃ t, exec (.deviceReset n) s = .next t ∧ t.dev.cause = 0x03 ∧ t.dev.previous = 0)
  ∧ (∀ (n : Fin 16) (s : State), accepted cmdDeviceReset n s = true → s.pow.state ≠ .d2 → s.pow.state ≠ .d3 →
    s.pow.phase ≠ .enteringD3 → byteAt (cmdArgs s n) 0 = 1 → s.dev.warm = false →
    ∃ t, exec (.deviceReset n) s = .next t ∧ t.dev.cause = 0x04 ∧ t.dev.previous = s.dev.cause)
  ∧ (∀ (l : Fin 32) (s : State), wardenRuns s = true → s.dev.warm = false →
    ∃ t, exec (.watchdog l) s = .next t ∧ t.dev.cause = 0x05 ∧ t.dev.previous = s.dev.cause)
  ∧ (∀ s : State, wardenRuns s = true → s.dev.warm = false →
    ∃ t, exec .hiveMemoryError s = .next t ∧ t.dev.cause = 0x06 ∧ t.dev.previous = s.dev.cause)
  ∧ (∀ (v : Word32) (s t : State), exec (.registerWrite 0x0008 v) s = .next t → t.dev = s.dev)

/-- R419: the word that reports device states holds the device state's code in [7:0], the power state's in [11:8],
the profile in force in [15:12] and 0 above. -/
def Obligations.StateWordReportsState : Prop :=
  (∀ s : State, stateWord s % 2 ^ 8 = s.dev.state.code ∧ stateWord s / 2 ^ 8 % 2 ^ 4 = s.pow.state.code
    ∧ stateWord s / 2 ^ 12 % 2 ^ 4 = s.dev.inForce.code ∧ stateWord s / 2 ^ 16 = 0)
  ∧ [DevState.cold, .loading, .standby, .active, .degraded, .safe, .maintenance].map DevState.code
    = [0x01, 0x02, 0x03, 0x04, 0x05, 0x06, 0x07]
  ∧ [PowerState.d0, .d1, .d2, .d3].map PowerState.code = [0, 1, 2, 3]
  ∧ [Profile.latency, .balanced, .depth, .economy].map Profile.code = [0, 1, 2, 3]

/-- R410: a ring of a mailbox that is not PENDING, while READY is set, makes all its changes in one step and touches
no other mailbox and no other byte of its own; a ring that R410 ignores (READY clear, a bit of [31:4] set, the
mailbox PENDING) changes nothing and is counted. It states that these rows complete: mbxDoorbell. -/
def Obligations.DoorbellRings : Prop :=
  (∀ (v : Word32) (s : State), s.dev.ready = true → v.toNat < 16 → isPending s v.toNat = false →
    exec (.mbxDoorbell v) s = .next (ringBell v.toNat s))
  ∧ (∀ (n : Nat) (s : State), n < 16 →
    let t := ringBell n s
    mbxRead t n 0x800 4 = mbxRead s n 0x000 4
    ∧ mbxField t n 0x804 4 = 1 ∧ mbxField t n 0x808 8 = 0
    ∧ (∀ i < 16, t.hif.done.getLsbD i = (s.hif.done.getLsbD i && i != n))
    ∧ t.hif.bells = s.hif.bells ++ [{ mbx := n, at_ := s.now, beryl := BitVec.ofNat 96 (timeWord s) }]
    ∧ (∀ a, (a < mbxAddr n 0x800 ∨ mbxAddr n 0x1000 ≤ a) → tget 0 t.hif.mbox a = tget 0 s.hif.mbox a)
    ∧ t.hif.journal = s.hif.journal ∧ t.dev = s.dev ∧ t.out = s.out
    ∧ t.count (ck 440 0 n) = s.count (ck 440 0 n) + 1)
  ∧ (∀ (v : Word32) (s : State), s.dev.ready = false →
    exec (.mbxDoorbell v) s = .next (bump (ck 440 1 (v.toNat % 16 * 4 + 0)) 1 s))
  ∧ (∀ (v : Word32) (s : State), s.dev.ready = true → 16 ≤ v.toNat →
    exec (.mbxDoorbell v) s = .next (bump (ck 440 1 (v.toNat % 16 * 4 + 2)) 1 s))
  ∧ (∀ (v : Word32) (s : State), s.dev.ready = true → v.toNat < 16 → isPending s v.toNat = true →
    exec (.mbxDoorbell v) s = .next (bump (ck 440 1 (v.toNat * 4 + 1)) 1 s))

/-- R417: the first read of a final status returns the word with REPEAT as it stood and sets REPEAT; a read of a
PENDING or never used mailbox changes nothing but what it returns. It states that these rows complete:
mbxStatusRead. -/
def Obligations.StatusReadSetsRepeat : Prop :=
  (∀ (n : Fin 16) (s : State), hasFinal s n = true →
    ∃ t, exec (.mbxStatusRead n) s = .next t
      ∧ t.out = Out.readData (mbxField s n 0x804 4) :: s.out
      ∧ mbxField t n 0x804 4 = setBit (mbxField s n 0x804 4) 8 true
      ∧ (∀ a, (a < mbxAddr n 0x804 ∨ mbxAddr n 0x808 ≤ a) → tget 0 t.hif.mbox a = tget 0 s.hif.mbox a)
      ∧ t.hif.done = s.hif.done ∧ t.hif.journal = s.hif.journal ∧ t.cnt = s.cnt)
  ∧ (∀ (n : Fin 16) (s : State), hasFinal s n = false →
      exec (.mbxStatusRead n) s = .next (emit (.readData (mbxField s n 0x804 4)) s))

/-- R401, R406, R409: enabled bytes of an accepted write land in the command area of a mailbox that is not PENDING
and nowhere else; writes of the response area, and every write while PENDING, are discarded and counted; any other
access is an Unsupported Request that writes nothing. It states that these rows complete: mailboxWrite. -/
def Obligations.MailboxWritesAreFiltered : Prop :=
  (∀ (n : Fin 16) (off : Nat) (data : List (Option Byte)) (s : State),
    off % 4 = 0 → data.length % 4 = 0 → 0 < data.length → data.length ≤ 256 → off + data.length ≤ 0x800 →
    isPending s n = false →
    ∃ t, exec (.mailboxWrite n off data) s = .next t
      ∧ (∀ i < data.length, tget 0 t.hif.mbox (mbxAddr n (off + i))
          = (data.getD i none).getD (tget 0 s.hif.mbox (mbxAddr n (off + i))))
      ∧ (∀ a, (a < mbxAddr n off ∨ mbxAddr n (off + data.length) ≤ a) →
          tget 0 t.hif.mbox a = tget 0 s.hif.mbox a)
      ∧ { t with hif := { t.hif with mbox := s.hif.mbox } } = s)
  ∧ (∀ (n : Fin 16) (off : Nat) (data : List (Option Byte)) (s : State),
    off % 4 = 0 → data.length % 4 = 0 → 0 < data.length → data.length ≤ 256 → off + data.length ≤ 0x800 →
    isPending s n = true →
    exec (.mailboxWrite n off data) s = .next (bump (ck 440 4 (n * 2 + 1)) 1 s))
  ∧ (∀ (n : Fin 16) (off : Nat) (data : List (Option Byte)) (s : State),
    off % 4 = 0 → data.length % 4 = 0 → 0 < data.length → data.length ≤ 256 → 0x800 ≤ off →
    off + data.length ≤ 0x1000 →
    exec (.mailboxWrite n off data) s = .next (bump (ck 440 4 (n * 2)) 1 s))
  ∧ (∀ (n : Fin 16) (off : Nat) (data : List (Option Byte)) (s : State),
    (off % 4 ≠ 0 ∨ data.length % 4 ≠ 0 ∨ data.length = 0 ∨ 256 < data.length ∨ 0x1000 < off + data.length) →
    exec (.mailboxWrite n off data) s = .next (emit (.unsupported .bar0) (bump (ck 440 7 0) 1 s)))

/-- Every mailbox row takes up the command whose opcode its mailbox holds, and cmdOf names that command;
with no ring of its mailbox next, or another opcode in it, it has no occasion (R412, log entry 3). -/
def Obligations.CommandRowsMatchOpcodes : Prop :=
  ∀ r ∈ commandRows,
    (cmdOf r.1.opcode).map (·.opcode) = some r.1.opcode
    ∧ (∀ (n : Fin 16) (s : State), frontBell s n = none → exec (r.2 n) s = .next s)
    ∧ (∀ (n : Fin 16) (s : State), mbxField s n 0x004 2 ≠ r.1.opcode → exec (r.2 n) s = .next s)

/-- The legality column of the reference (R446): class Q is legal in every state, class L in every state but
SAFE, class S in STANDBY only, class M in MAINTENANCE only; the commands that name their states are legal
in those. A generator of LANE_SET_TEST on lanes 16 to 19 and LANE_INJECT into live traffic are of class M. -/
def Obligations.LegalityColumn : Prop :=
  ∀ r ∈ commandRows, ∀ (s : State) (a : Bytes),
    (r.1.opcode ∈ [0x0101, 0x0105, 0x0109, 0x010A, 0x010B, 0x010C, 0x0209, 0x020A, 0x0309, 0x0405, 0x0409,
      0x0508, 0x0509, 0x0604, 0x0706, 0x070A, 0x0807, 0x0808, 0x0904, 0x0905, 0x0A04, 0x0B03,
      0x0B05, 0x0B08, 0x0C01, 0x0C02, 0x0C03, 0x0D01, 0x0D06] →
      r.1.legal s a = true)
    ∧ (r.1.opcode ∈ [0x0201, 0x0202, 0x0203, 0x0204, 0x0205, 0x0206, 0x0207, 0x0208, 0x0303, 0x0304, 0x0305,
      0x0306, 0x0307, 0x0308, 0x0401, 0x0402, 0x0403, 0x0404, 0x0406, 0x0407, 0x0408, 0x0501,
      0x0502, 0x0503, 0x0504, 0x0505, 0x0506, 0x0507, 0x0601, 0x0602, 0x0603, 0x0701, 0x0702,
      0x0703, 0x0704, 0x0705, 0x0707, 0x0708, 0x0709, 0x0801, 0x0802, 0x0803, 0x0804, 0x0805,
      0x0806, 0x0901, 0x0A02, 0x0A03, 0x0B01, 0x0B02, 0x0B06, 0x0B07, 0x0B09, 0x0D02, 0x0D03] →
      r.1.legal s a = (s.dev.state != .safe))
    ∧ (r.1.opcode ∈ [0x0102, 0x0104, 0x0301, 0x0302] → r.1.legal s a = (s.dev.state == .standby))
    ∧ (r.1.opcode ∈ [0x0107, 0x0D04, 0x0D05] → r.1.legal s a = (s.dev.state == .maintenance))
    ∧ (r.1.opcode = 0x0103 → r.1.legal s a = (s.dev.state == .active || s.dev.state == .degraded))
    ∧ (r.1.opcode = 0x0106 → r.1.legal s a
        = (s.dev.state == .standby || s.dev.state == .active || s.dev.state == .degraded))
    ∧ (r.1.opcode = 0x0108 → r.1.legal s a = (s.dev.state == .safe))
    ∧ (r.1.opcode = 0x0902 → r.1.legal s a
        = if 16 ≤ byteAt a 0 ∧ byteAt a 0 ≤ 19 ∧ byteAt a 1 ≠ 0 then s.dev.state == .maintenance
          else s.dev.state != .safe)
    ∧ (r.1.opcode = 0x0903 → byteAt a 3 < 2 → r.1.legal s a
        = if byteAt a 3 = 1 then s.dev.state == .maintenance else s.dev.state != .safe)
    ∧ (r.1.opcode = 0x0A01 → r.1.legal s a
        = (s.dev.state == .active || s.dev.state == .degraded
          || s.dev.state == .standby && byteAt a 0 != 2))
    ∧ (r.1.opcode = 0x0B04 → r.1.legal s a
        = if byteAt a 0 = 2 then s.dev.state == .degraded || s.dev.state == .maintenance
          else s.dev.state != .safe)

/-- R413, R414, R415: a rung command stops at the first step that fails, with that step's result and no
other effect: CMD_SEQ 0, a repeat, a stale sequence, a bad header, a bad deadline or argument, a command
not legal in the device state, and a deadline that has passed before step 6. -/
def Obligations.FirstFailingStepAnswers : Prop :=
  ∀ r ∈ commandRows, ∀ (n : Fin 16) (s : State) (b : Bell),
    frontBell s n = some b → mbxField s n 0x004 2 = r.1.opcode →
    let p := popBell s
    let reject : Nat → Nat → Bytes → Bool → State := fun k st d j =>
      finish n (cmdSeq s n) r.1.opcode (cmdArgs s n) j st false false d (rejectCommand k n p)
    (cmdSeq s n = 0 → exec (r.2 n) s = .next (finishBare n stFormat (leBytes 4 0x000) (rejectCommand 1 n p)))
    ∧ (∀ k, cmdSeq s n ≠ 0 → lastSeq s n = some (cmdSeq s n) → tget none s.hif.kept n = some k →
        exec (r.2 n) s = .next (represent n k p))
    ∧ (∀ l, cmdSeq s n ≠ 0 → lastSeq s n = some l →
        2 ^ 31 ≤ subMod 32 (cmdSeq s n).toNat l.toNat →
        exec (r.2 n) s = .next (finishBare n stStale (leBytes 4 l.toNat) (rejectCommand 2 n p)))
    ∧ (∀ off, seqNew s n = true →
        stepThree (some r.1) n (mbxField s n 0x006 2) (cmdArgs s n) p = some off →
        exec (r.2 n) s = .next (reject 3 stFormat (leBytes 4 off) true))
    ∧ (∀ st off, seqNew s n = true →
        stepThree (some r.1) n (mbxField s n 0x006 2) (cmdArgs s n) p = none →
        stepFour r.1 (mbxField s n 0x008 4) (cmdArgs s n) p = some (st, off) →
        exec (r.2 n) s = .next (reject 4 st (leBytes 4 off) true))
    ∧ (seqNew s n = true →
        stepThree (some r.1) n (mbxField s n 0x006 2) (cmdArgs s n) p = none →
        stepFour r.1 (mbxField s n 0x008 4) (cmdArgs s n) p = none →
        (r.1.legal p (cmdArgs s n) = false →
          exec (r.2 n) s = .next (reject 5 (if s.dev.state = .safe then stSafe else stState)
            (leBytes 4 (stateWord s)) false))
        ∧ (r.1.legal p (cmdArgs s n) = true → deadlineAt r.1 n b s < s.now →
          exec (r.2 n) s = .next (finish n (cmdSeq s n) r.1.opcode (cmdArgs s n) true stTimeout false false []
            (underWay n s))))

/-- R416, R417, R432: the result of an accepted command that is final at once. Its data, RSP_LEN,
RSP_JOURNAL_SEQ and status stand in its own mailbox, whose data beyond RSP_LEN reads 0; bit n of MBX_DONE is
set; the newest journal entry is the command's; LAST_SEQ is its CMD_SEQ; no other mailbox is touched. -/
def Obligations.ResultIsPresented : Prop :=
  ∀ r ∈ commandRows, ∀ (n : Fin 16) (s t : State) (st : Nat) (d : Bytes),
    accepted r.1 n s = true → r.1.run n (cmdArgs s n) (underWay n s) = .final st d t →
    st < 256 → d.length ≤ 1984 → t.hif.jrnHead + 1 < 2 ^ 64 →
    ∃ u, exec (r.2 n) s = .next u
      ∧ mbxField u n 0x804 4 = st + 2 ^ 16 * d.length ∧ mbxRead u n 0x840 d.length = d
      ∧ (∀ i, d.length ≤ i → i < 1984 → tget 0 u.hif.mbox (mbxAddr n (0x840 + i)) = 0)
      ∧ mbxField u n 0x808 8 = t.hif.jrnHead + 1 ∧ u.hif.jrnHead = t.hif.jrnHead + 1
      ∧ u.hif.done.getLsbD n = true ∧ lastSeq u n = some (cmdSeq s n)
      ∧ (∀ a, (a < mbxAddr n 0x804 ∨ mbxAddr n 0x1000 ≤ a) → tget 0 u.hif.mbox a = tget 0 t.hif.mbox a)
      ∧ u.hif.journal = ({
          jseq := t.hif.jrnHead + 1, time := BitVec.ofNat 96 (timeWord t), cmdSeq := cmdSeq s n
          opcode := r.1.opcode, mbx := n, isPartial := false, rolled := false
          status := BitVec.ofNat 8 st, argCrc := argCrc (cmdArgs s n)
          first32 := fit 32 (cmdArgs s n) } :: t.hif.journal).take 8192

/-- UNKNOWN_OPCODE answers a ring whose opcode names no command with FORMAT_REJECT at offset 0x004, journalled
(R414); COMMAND_DEADLINE_EXPIRY ends a waiting command with TIMEOUT and ROLLED_BACK unless it has taken an
irrevocable step, and a command next in line with no effect (R415). A command that handles its items in turn stops
between two of them and ends with PARTIAL; one that fails a step before the sixth gets that step's result, late or
not (R414). -/
def Obligations.UnknownAndLateCommandsEnd : Prop :=
  (∀ (n : Fin 16) (s : State) (b : Bell), frontBell s n = some b → cmdOf (mbxField s n 0x004 2) = none →
    seqNew s n = true →
    exec (.unknownOpcode n) s = .next (finish n (cmdSeq s n) (mbxField s n 0x004 2) (cmdArgs s n) true
      stFormat false false (leBytes 4 0x004) (rejectCommand 3 n (popBell s))))
  ∧ (∀ (n : Fin 16) (k : Nat) (s : State) (r : Running),
    s.hif.running.find? (fun r => r.mbx == n.val) = some r → irrevocable (passTo r.deadline s) r = false →
    exec (.commandDeadlineExpiry n k) s
      = .next (conclude n stTimeout (undoes r) false [] (undo r (passTo r.deadline s))))
  ∧ (∀ (n : Fin 16) (k : Nat) (s : State) (r : Running),
    s.hif.running.find? (fun r => r.mbx == n.val) = some r → irrevocable (passTo r.deadline s) r = true →
    exec (.commandDeadlineExpiry n k) s = .next (passTo r.deadline s))
  ∧ (∀ (n : Fin 16) (s : State) (b : Bell) (c : CmdSpec),
    s.hif.running.find? (fun r => r.mbx == n.val) = none → frontBell s n = some b →
    cmdOf (mbxField s n 0x004 2) = some c → seqNew s n = true →
    stepThree (some c) n (mbxField s n 0x006 2) (cmdArgs s n)
      (popBell (passTo (deadlineAt c n b s) s)) = none →
    stepFour c (mbxField s n 0x008 4) (cmdArgs s n) (popBell (passTo (deadlineAt c n b s) s)) = none →
    c.legal (popBell (passTo (deadlineAt c n b s) s)) (cmdArgs s n) = true →
    let u := underWay n (passTo (deadlineAt c n b s) s)
    exec (.commandDeadlineExpiry n 0) s = .next (finish n (cmdSeq s n) c.opcode (cmdArgs s n) true stTimeout
      false false [] u)
    ∧ (∀ (k : Nat) (f : Nat → Nat → Bytes → State → Ran) (st : Nat) (d : Bytes) (t : State),
      0 < k → c.items = some f → k < c.count (cmdArgs s n) → f k n (cmdArgs s n) u = .final st d t →
      exec (.commandDeadlineExpiry n k) s = .next (finish n (cmdSeq s n) c.opcode (cmdArgs s n) true
        (if st = stOk then stTimeout else st) false (st == stOk) d t)))

/-- The mailbox flag and event-ring control registers from READY (R7, R8, R420, R619 to R621): W1C of MBX_DONE,
MBX_IRQ_EN with its cause at once, ENABLE taken only with a legal EVT_ENTRIES, and a consumer index only up to the
producer; a write before READY, or one that a rule discards, is only counted. It states that these rows complete:
mbxDoneClear, mbxIrqEnWrite, evtEnable, evtDisable, evtConsumerWrite. -/
def Obligations.MailboxAndEventRegisters : Prop :=
  (∀ (v : Word32) (same : Word16) (s : State), s.dev.ready = true →
    exec (.mbxDoneClear v same) s = .next { s with hif := { s.hif with
      done := (s.hif.done &&& ~~~(v.setWidth 16)) ||| same } })
  ∧ (∀ (v : Word32) (s : State), s.dev.ready = true → v.setWidth 16 &&& s.hif.done = 0 →
    exec (.mbxIrqEnWrite v) s = .next { s with hif := { s.hif with irqEn := v.setWidth 16 } })
  ∧ (∀ (v : Word32) (s : State), s.dev.ready = true → v.setWidth 16 &&& s.hif.done ≠ 0 →
    exec (.mbxIrqEnWrite v) s = .next (causeVec 2 { s with hif := { s.hif with irqEn := v.setWidth 16 } }))
  ∧ (∀ (k : Nat) (s : State), s.dev.ready = true → 8 ≤ k → k ≤ 16 → s.hif.evtEntries.toNat = 2 ^ k →
    s.hif.evtEnable = false →
    exec .evtEnable s = .next { s with hif := { s.hif with
      evtEnable := true, evtProducer := 0, evtConsumer := 0, evtPhase := true } })
  ∧ (∀ s : State, s.dev.ready = true → (∀ k, 8 ≤ k → k ≤ 16 → s.hif.evtEntries.toNat ≠ 2 ^ k) →
    exec .evtEnable s = .next (bump (ck 440 11 0) 1 s))
  ∧ (∀ s : State, s.dev.ready = true →
    exec .evtDisable s = .next { s with hif := { s.hif with evtEnable := false } })
  ∧ (∀ (v : Word32) (s : State), s.dev.ready = true →
    (v - s.hif.evtConsumer).toNat ≤ (s.hif.evtProducer - s.hif.evtConsumer).toNat →
    exec (.evtConsumerWrite v) s = .next { s with hif := { s.hif with evtConsumer := v } })
  ∧ (∀ (v : Word32) (s : State), s.dev.ready = true →
    (s.hif.evtProducer - s.hif.evtConsumer).toNat < (v - s.hif.evtConsumer).toNat →
    exec (.evtConsumerWrite v) s = .next (bump (ck 440 11 0) 1 s))
  ∧ (∀ (v : Word32) (same : Word16) (s : State), s.dev.ready = false →
    (∀ c ∈ [Instr.mbxDoneClear v same, .mbxIrqEnWrite v, .evtEnable, .evtDisable, .evtConsumerWrite v],
      exec c s = .next (bump (ck 440 11 0) 1 s)))

/-- R421, R422, R424: an event takes the next SEQ and TIME of its moment; with room in the ring and nothing before
it, its 32-byte record is written at EVT_BASE + 32 × (PRODUCER mod ENTRIES) and PRODUCER advances; otherwise it
waits in the backlog of 256, and past that it is lost and the lowest lost SEQ is kept. The drain writes the oldest
waiting record first, and EVENTS_LOST once the backlog is empty. -/
def Obligations.EventsReachTheRing : Prop :=
  (∀ (typ idx : Nat) (urgent : Bool) (d : Bytes) (s : State),
    let e : Event := {
      seq := s.hif.evtSeq, typ := BitVec.ofNat 16 typ, urgent := urgent, index := BitVec.ofNat 8 idx
      time := BitVec.ofNat 96 (timeWord s), payload := d }
    let t := raise typ urgent idx d s
    let room := s.hif.evtEnable = true ∧ dmaOk s = true
      ∧ (s.hif.evtProducer - s.hif.evtConsumer).toNat < s.hif.evtEntries.toNat
    t.hif.evtSeq = s.hif.evtSeq + 1
    ∧ (room → s.hif.backlog = [] → s.hif.lost = none →
      t.hif.evtProducer = s.hif.evtProducer + 1 ∧ t.hif.backlog = []
      ∧ Out.hostWrite (s.hif.evtBase.toNat + 32 * (s.hif.evtProducer.toNat % s.hif.evtEntries.toNat))
          (eventBytes e s.hif.evtPhase) ∈ t.out
      ∧ t.hif.evtPhase = (if s.hif.evtProducer.toNat % s.hif.evtEntries.toNat + 1 = s.hif.evtEntries.toNat
          then !s.hif.evtPhase else s.hif.evtPhase))
    ∧ ((¬ room ∨ s.hif.backlog ≠ [] ∨ s.hif.lost ≠ none) → s.hif.backlog.length < 256 →
      t.hif.backlog = s.hif.backlog ++ [e] ∧ t.out = s.out ∧ t.hif.evtProducer = s.hif.evtProducer)
    ∧ (s.hif.backlog.length = 256 → urgent = false →
      t.hif.backlog = s.hif.backlog ∧ t.hif.lost = some (match s.hif.lost with
        | none => (s.hif.evtSeq, 1)
        | some (lo, k) => (if before 32 s.hif.evtSeq.toNat lo.toNat then s.hif.evtSeq else lo, k + 1))
      ∧ t.count (ck 440 5 0) = s.count (ck 440 5 0) + 1)
    ∧ (∀ (x : Event) (l : List Event), s.hif.backlog.length = 256 → urgent = true →
      takeNewest s.hif.backlog = some (x, l) →
      t.hif.backlog = l ++ [e] ∧ t.count (ck 440 5 0) = s.count (ck 440 5 0) + 1)
    ∧ (s.hif.backlog.length = 256 → urgent = true → takeNewest s.hif.backlog = none →
      t.hif.backlog = s.hif.backlog ∧ t.count (ck 440 5 0) = s.count (ck 440 5 0) + 1))
  ∧ (∀ s : State, s.hif.lost = none →
    exec .eventBacklogDrain s = .next (drainBacklog s.hif.backlog s))
  ∧ (∀ (e : Event) (l : List Event) (s : State), ringRoom s = true →
    drainBacklog (e :: l) s
      = drainBacklog l (writeRecord e { s with hif := { s.hif with backlog := l } }))
  ∧ (∀ (lo : Word32) (k : Nat) (s : State), s.hif.backlog = [] → s.hif.lost = some (lo, k) →
    ringRoom s = true →
    exec .eventBacklogDrain s = .next (raise 0x0100 false 0xFF (leBytes 4 lo.toNat ++ leBytes 4 k)
      { s with hif := { s.hif with lost := none } }))

/-- R404, R425, R426, R622: a vector that has met COUNT, or HOLDOFF since its first cause, fires: its message
leaves, or its pending bit is set while it is masked or DMA is not allowed; vector 1 fires at every cause. A write
of MSIX_MOD applies to the causes that wait; vectors without moderation ignore it. -/
def Obligations.VectorsAreModerated : Prop :=
  (∀ (v : Fin 32) (s : State),
    ((vecOf s v).masked = false → dmaOk s = true →
      (fireVec v s).out = Out.msix v :: s.out ∧ (vecOf (fireVec v s) v).pend = (vecOf s v).pend)
    ∧ (((vecOf s v).masked = true ∨ dmaOk s = false) →
      (fireVec v s).out = s.out ∧ (vecOf (fireVec v s) v).pend = true)
    ∧ (vecOf (fireVec v s) v).causes = 0 ∧ (vecOf (fireVec v s) v).first = none
    ∧ (∀ w : Fin 32, w ≠ v → vecOf (fireVec v s) w = vecOf s w))
  ∧ (∀ s : State, causeVec 1 s = fireVec 1 s)
  ∧ (∀ (v : Fin 32) (s : State), v ≠ 1 →
    let x := vecOf s v
    let y := { x with causes := x.causes + 1, first := some (x.first.getD s.now) }
    causeVec v s = if x.countM1.toNat + 1 ≤ x.causes + 1 ∨ x.first.getD s.now + us x.holdoff.toNat ≤ s.now
      then fireVec v (setVec v y s) else setVec v y s)
  ∧ (∀ (vec : Fin 32) (v : Word32) (s : State), s.dev.ready = true → moderated vec = true →
    let x := { vecOf s vec with countM1 := v.extractLsb' 16 8, holdoff := v.extractLsb' 0 10 }
    (vecDue (setVec vec x s) x = false → exec (.msixModWrite vec v) s = .next (setVec vec x s))
    ∧ (vecDue (setVec vec x s) x = true → exec (.msixModWrite vec v) s = .next (fireVec vec (setVec vec x s))))
  ∧ (∀ (vec : Fin 32) (v : Word32) (s : State), s.dev.ready = true → (vec = 1 ∨ 11 ≤ vec.val) →
    exec (.msixModWrite vec v) s = .next s)
  ∧ (∀ (vec : Fin 32) (s : State) (t : Nat), moderated vec = true → (vecOf s vec).first = some t →
    0 < (vecOf s vec).causes →
    exec (.msixHoldoffExpiry vec) s = .next (fireVec vec (passTo (t + us (vecOf s vec).holdoff.toNat) s)))

/-- The remaining BAR2 registers (R9 to R13, R435, R613, R623 to R625): tails, the held and latched words of 64-bit
registers, the journal window, event-ring setup, GPIO and MDIO fields, and a read of an RC field. A GPIO output's
level shows in GPIO_IN from 10 µs after its change (R631). It states that these rows complete: hringRxTailWrite,
hringTxTailWrite, jrnWindowSeqWrite, jrnWindowCopyDone, registerWrite, registerLowWordWrite, registerLowWordRead,
rcFieldRead. -/
def Obligations.RegisterAccessesTakeEffect : Prop :=
  (∀ (r : Fin 4) (v : Word32) (s : State), s.dev.ready = true → (rxRing s r).enable = true →
    (v - (rxRing s r).head).toNat ≤ (rxRing s r).entries →
    ((rxRing s r).tail - (rxRing s r).head).toNat ≤ (v - (rxRing s r).head).toNat →
    exec (.hringRxTailWrite r v) s = .next (setRx r { rxRing s r with tail := v } s))
  ∧ (∀ (r : Fin 4) (v : Word32) (s : State), s.dev.ready = true → (txRing s r).enable = true →
    (v - (txRing s r).head).toNat ≤ (txRing s r).entries →
    ((txRing s r).tail - (txRing s r).head).toNat ≤ (v - (txRing s r).head).toNat →
    exec (.hringTxTailWrite r v) s = .next (setTx r { txRing s r with tail := v } s))
  ∧ (∀ (r : Fin 4) (v : Word32) (s : State),
    (s.dev.ready = false ∨ (rxRing s r).enable = false
      ∨ (rxRing s r).entries < (v - (rxRing s r).head).toNat
      ∨ (v - (rxRing s r).head).toNat < ((rxRing s r).tail - (rxRing s r).head).toNat) →
    exec (.hringRxTailWrite r v) s = .next (bump (ck 440 11 0) 1 s))
  ∧ (∀ (off : Nat) (s : State), off ∈ [0x0208, 0x0500, 0x0508] →
    exec (.registerLowWordRead off) s = .next (emit (.readData (regWord s off)) { s with hif := { s.hif with
      highShadow := tset none s.hif.highShadow off (some (BitVec.ofNat 32 (regWord s (off + 4)))) } }))
  ∧ (∀ (off : Nat) (w : Word32) (s : State), off ∈ [0x0208, 0x0500, 0x0508] →
    tget none s.hif.highShadow off = some w →
    exec (.registerLowWordRead (off + 4)) s = .next (emit (.readData w.toNat) { s with hif := { s.hif with
      highShadow := tset none s.hif.highShadow off none } }))
  ∧ (∀ (off : Nat) (s : State), off ∈ [0x0208, 0x0500, 0x0508] → tget none s.hif.highShadow off = none →
    exec (.registerLowWordRead (off + 4)) s = .next (emit (.readData (regWord s (off + 4))) { s with
      hif := { s.hif with highShadow := tset none s.hif.highShadow off none } }))
  ∧ (∀ (off : Nat) (v : Word32) (s : State), s.dev.ready = true →
    (off = 0x0508 ∨ off = 0x0208 ∧ s.hif.evtEnable = false) →
    exec (.registerLowWordWrite off v) s
      = .next { s with hif := { s.hif with lowHeld := tset none s.hif.lowHeld off (some v) } })
  ∧ (∀ (v lo : Word32) (s : State), s.dev.ready = true → tget none s.hif.lowHeld 0x0508 = some lo →
    let j := BitVec.ofNat 64 (v.toNat * 2 ^ 32 + lo.toNat)
    exec (.jrnWindowSeqWrite v) s = .next { s with hif := { s.hif with
      jrnWindowSeq := j, copies := s.hif.copies ++ [j]
      lowHeld := tset none s.hif.lowHeld 0x0508 none } })
  ∧ (∀ (j : Word64) (rest : List Word64) (s : State), s.hif.copies = j :: rest →
    let t := wakeJournal s
    exec .jrnWindowCopyDone s = .next { t with hif := { t.hif with
      copies := t.hif.copies.drop 1
      jrnWindow := (List.range 16).flatMap (fun k => journalAt t (j.toNat + k)) } })
  ∧ (∀ (v lo : Word32) (s : State), s.dev.ready = true → s.hif.evtEnable = false →
    tget none s.hif.lowHeld 0x0208 = some lo →
    exec (.registerWrite 0x020C v) s = .next { s with hif := { s.hif with
      evtBase := BitVec.ofNat 64 ((v.toNat * 2 ^ 32 + lo.toNat) / 64 * 64)
      lowHeld := tset none s.hif.lowHeld 0x0208 none } })
  ∧ (∀ (v : Word32) (s : State), s.dev.ready = true → s.hif.evtEnable = false →
    exec (.registerWrite 0x0210 v) s = .next { s with hif := { s.hif with evtEntries := v.setWidth 17 } })
  ∧ (∀ (v : Word32) (s : State), s.dev.state ≠ .cold →
    exec (.registerWrite 0x0A00 v) s = .next (setGpio (v.setWidth 16) s.hif.gpioOut s)
    ∧ exec (.registerWrite 0x0A04 v) s = .next (setGpio s.hif.gpioDir (v.setWidth 16) s)
    ∧ exec (.registerWrite 0x0904 v) s = .next { s with hif := { s.hif with mdioData := v &&& 0xFFFF } })
  ∧ (∀ (dir out : Word16) (i : Nat) (s : State), i < 16 → bit dir.toNat i = true →
    (bit s.hif.gpioDir.toNat i = false ∨ bit out.toNat i ≠ bit s.hif.gpioOut.toNat i) → ∀ d,
    let t := { setGpio dir out s with now := s.now + d }
    gpioLevel t i = if us 10 ≤ d then bit out.toNat i else gpioLevel s i)
  ∧ (∀ (off : Nat) (v : Word32) (s : State), off % 4 ≠ 0 →
    exec (.registerWrite off v) s = .next (emit (.unsupported .bar2) (bump (ck 440 7 1) 1 s)))
  ∧ (∀ (l : Fin 21) (e : Nat) (s : State),
    exec (.rcFieldRead (.snrLow l) e) s
      = .next (emit (.readData (laneOf s l).snrLow) (modLane l (fun x => { x with snrLow := e }) s)))
  ∧ (∀ (f : RcField) (k e : Nat) (s : State), rcKey f = some k →
    exec (.rcFieldRead f e) s = .next (emit (.readData (s.count k)) (setCount k e s)))

/-- MDIO frames, the W1C bits of FAULT_STATUS, and Unsupported Requests (R8, R11, R586, R617, R630). The row of an
Unsupported Request also carries the accesses of the host that are none (R399 to R401): reads and writes of the three
BARs by their kinds, a vector's mask, and configuration space. It states that these rows complete: faultStatusClear,
mdioCmdGo, mdioFrameDone, unsupportedRequest. -/
def Obligations.MdioAndFaultRegisters : Prop :=
  (∀ (v : Word32) (s : State), v.getLsbD 31 = true → s.dev.state ≠ .cold →
    s.hif.mdioCmd.getLsbD 31 = false →
    exec (.mdioCmdGo v) s = .next (emit (.mdio (v &&& 0xFFFC0000) s.hif.mdioData)
      { s with hif := { s.hif with mdioCmd := v &&& 0xFFFC0000, mdioAt := s.now } }))
  ∧ (∀ (v : Word32) (s : State), v.getLsbD 31 = true →
    (s.dev.state = .cold ∨ s.hif.mdioCmd.getLsbD 31 = true) →
    exec (.mdioCmdGo v) s = .next (bump (ck 440 11 0) 1 s))
  ∧ (∀ (d : Word16) (s : State), s.hif.mdioCmd.getLsbD 31 = true → s.hif.mdioCmd.getLsbD 29 = true →
    exec (.mdioFrameDone true d) s = .next { s with hif := { s.hif with
      mdioCmd := s.hif.mdioCmd &&& 0x7FFFFFFF, mdioData := d.setWidth 32 } })
  ∧ (∀ (d : Word16) (s : State), s.hif.mdioCmd.getLsbD 31 = true → s.hif.mdioCmd.getLsbD 29 = true →
    let t := passTo (s.hif.mdioAt + ms 2) s
    exec (.mdioFrameDone false d) s = .next (bump (ck 547 13 0) 1 { t with hif := { t.hif with
      mdioCmd := s.hif.mdioCmd &&& 0x7FFFFFFF ||| 0x00020000, mdioData := 0 } }))
  ∧ (∀ (b : Bool) (d : Word16) (s : State), s.hif.mdioCmd.getLsbD 31 = true →
    s.hif.mdioCmd.getLsbD 29 = false →
    exec (.mdioFrameDone b d) s = .next { s with hif := { s.hif with
      mdioCmd := s.hif.mdioCmd &&& 0x7FFFFFFF } })
  ∧ (∀ (v same : Word32) (s : State),
    exec (.faultStatusClear v same) s = .next { s with hif := { s.hif with
      sensorFail := (s.hif.sensorFail && !v.getLsbD 10) || same.getLsbD 10
      refLoss := (s.hif.refLoss && !v.getLsbD 1) || same.getLsbD 1 } })
  ∧ (∀ (s : State),
    exec (.unsupportedRequest .bar0) s = .next (emit (.unsupported .bar0) (bump (ck 440 7 0) 1 s))
    ∧ exec (.unsupportedRequest .bar2) s = .next (emit (.unsupported .bar2) (bump (ck 440 7 1) 1 s))
    ∧ exec (.unsupportedRequest .bar4) s = .next (emit (.unsupported .bar4) (bump (ck 440 7 2) 1 s)))
  ∧ (∀ (off len : Nat) (s : State), bar0Reads off len = false →
    exec (.unsupportedRequest .bar0 (some (.read off len))) s = exec (.unsupportedRequest .bar0) s)
  ∧ (∀ (off len : Nat) (s : State), bar0Reads off len = true → (0x804 < off % 4096 ∨ off % 4096 + len ≤ 0x804) →
    exec (.unsupportedRequest .bar0 (some (.read off len))) s
      = .next (emit (.readData (le (mbxRead s (off / 4096 % 16) (off % 4096) len) 0 len)) s))
  ∧ (∀ (n : Fin 16) (off : Nat) (data : List (Option Byte)) (s : State), off < 4096 →
    exec (.unsupportedRequest .bar0 (some (.write (n * 4096 + off) data))) s = exec (.mailboxWrite n off data) s)
  ∧ (∀ (off : Nat) (v : Word32) (s : State), off % 4 = 0 → off < 65536 →
    exec (.unsupportedRequest .bar2 (some (.write off ((leBytes 4 v.toNat).map some)))) s = bar2Write off v s)
  ∧ (∀ (off len : Nat) (s : State), (len ≠ 4 ∨ off % 4 ≠ 0 ∨ 65536 ≤ off) →
    exec (.unsupportedRequest .bar2 (some (.read off len))) s = exec (.unsupportedRequest .bar2) s)
  ∧ (∀ (off len : Nat) (s : State), bar4Takes off len = false →
    exec (.unsupportedRequest .bar4 (some (.read off len))) s = exec (.unsupportedRequest .bar4) s)
  ∧ (∀ (v : Fin 32) (b : Bool) (s : State),
    let x := { vecOf s v with masked := b }
    exec (.unsupportedRequest .bar4 (some (.write (16 * v + 12) ((leBytes 4 (b2n b)).map some)))) s
      = .next (if dmaOk s then sendPending [v.val] (setVec v x s) else setVec v x s))
  ∧ (∀ (bar : Bar) (s : State), s.dev.released = true → s.dev.releasedAt + ms 100 ≤ s.now →
    exec (.unsupportedRequest bar (some (.configRead 0x00))) s = .next (emit (.readData 0x74401F6E) s)
    ∧ exec (.unsupportedRequest bar (some (.configRead 0x08))) s = .next (emit (.readData 0x02800010) s)
    ∧ exec (.unsupportedRequest bar (some (.configRead 0x2C))) s = .next (emit (.readData 0x74401F6E) s))
  ∧ (∀ (bar : Bar) (off : Nat) (s : State), s.dev.released = false →
    exec (.unsupportedRequest bar (some (.configRead off))) s = .next (emit .configRetry s))

/-- R404, R405, R604: losing Bus Master Enable, D3hot, a Function Level Reset and PERST_N stop DMA by disabling the
event ring and every packet ring, and leave mailboxes, journal, device state and forwarding alone; setting Bus
Master Enable sends the pending vectors that are not masked and re-enables nothing. PERST_N acts 100 ns after it
falls or rises; held for less it is counted and changes nothing else (R546). It states that these rows complete:
busMasterDisable, pciPmD3hot, busMasterEnable, functionLevelReset, perstNLow, perstNRelease. -/
def Obligations.FunctionStopsAndStarts : Prop :=
  (∀ s : State, exec .busMasterDisable s = .next (stopDma { s with hif := { s.hif with busMaster := false } }))
  ∧ (∀ s : State, exec .pciPmD3hot s = .next (stopDma { s with hif := { s.hif with d3hot := true } }))
  ∧ (∀ s : State, exec .functionLevelReset s = .next (functionReset s))
  ∧ (∀ (held : Nat) (s : State), 100000 ≤ held →
    let t := functionReset (passTo (s.now + 100000) s)
    exec (.perstNLow held) s = .next { t with hif := { t.hif with perst := true, linkUp := false } })
  ∧ (∀ (c : Instr) (s : State), (c ∈ [Instr.busMasterDisable, .pciPmD3hot, .functionLevelReset]
      ∨ ∃ held, 100000 ≤ held ∧ c = .perstNLow held) →
    ∃ t, exec c s = .next t ∧ dmaOk t = false ∧ t.hif.evtEnable = false
      ∧ (∀ r < 4, (rxRing t r).enable = false ∧ (txRing t r).enable = false)
      ∧ t.hif.mbox = s.hif.mbox ∧ t.hif.journal = s.hif.journal ∧ t.hif.bells = s.hif.bells
      ∧ t.hif.running = s.hif.running ∧ t.hif.done = s.hif.done ∧ t.hif.irqEn = s.hif.irqEn
      ∧ t.hif.backlog = s.hif.backlog ∧ t.hif.evtSeq = s.hif.evtSeq
      ∧ t.dev = s.dev ∧ t.fib = s.fib ∧ t.up = s.up ∧ t.cls = s.cls ∧ t.tab = s.tab ∧ t.tm = s.tm
      ∧ t.cip = s.cip ∧ t.prt = s.prt ∧ t.lan = s.lan ∧ t.pow = s.pow ∧ t.mem = s.mem
      ∧ (t.time = s.time ∨ t.time = (passTo (s.now + 100000) s).time ∧ s.now + 100000 ≤ t.now))
  ∧ (∀ (held : Nat) (s : State), held < 100000 → exec (.perstNLow held) s = .next (bump (ck 546 3 0) 1 s))
  ∧ (∀ (c : Instr) (s : State), (c = .functionLevelReset ∨ ∃ held, 100000 ≤ held ∧ c = .perstNLow held) →
    ∃ t, exec c s = .next t ∧ t.hif.msix = [] ∧ t.hif.busMaster = false ∧ t.hif.evtBase = 0
      ∧ t.hif.evtEntries = 0 ∧ t.hif.evtProducer = 0 ∧ t.hif.evtConsumer = 0 ∧ t.hif.evtPhase = true
      ∧ t.hif.linkUp = (s.hif.linkUp && decide (c = .functionLevelReset)))
  ∧ (∀ s : State, ∃ t, exec .busMasterEnable s = .next t ∧ dmaOk t = true
      ∧ t.hif.evtEnable = s.hif.evtEnable ∧ t.hif.rx = s.hif.rx ∧ t.hif.tx = s.hif.tx
      ∧ (∀ v : Fin 32, (vecOf t v).pend = ((vecOf s v).pend && (vecOf s v).masked))
      ∧ (∀ v : Fin 32, (vecOf s v).pend = true → (vecOf s v).masked = false → Out.msix v ∈ t.out))
  ∧ (∀ (held : Nat) (s : State), 100000 ≤ held →
    let t := passTo (s.now + 100000) s
    exec (.perstNRelease held) s
      = .next { t with hif := { t.hif with perst := false, linkUp := t.dev.state != .cold } })
  ∧ (∀ (held : Nat) (s : State), held < 100000 → exec (.perstNRelease held) s = .next (bump (ck 546 3 0) 1 s))

/-- The host packet rings (R247, R257, R428 to R431, R440): the receive queue whose turn it is delivers its oldest
frame and its shapers are charged, or it drops it as HOST_RING_FULL where no descriptor is posted; a fetched
descriptor is closed with its status, and its frame enters the pipeline or is dropped with its reason. It states
that these rows complete: hostRxDeliver, hostTxFetch. -/
def Obligations.HostRingsMoveFrames : Prop :=
  (∀ (r : Fin 4) (buf : Word64) (s : State) (c : Copy) (l : List Copy),
    let q := 640 + r.val
    let s1 := dropLate q { s with tm := { s.tm with hostTurn := (r.val + 1) % 4 } }
    rxTurn s r = true → (queueOf s1 q).pkts = c :: l →
    ((rxRing s1 r).head ≠ (rxRing s1 r).tail →
      exec (.hostRxDeliver r buf) s = .next (writeRx r buf.toNat c (crossPacket (linkNo 16 0)
        (entriesFor .packet c.pkt.stored) c.pkt.cport c.pkt.booked (chargeShapers q c.pkt.stored (popQueue q s1)))))
    ∧ ((rxRing s1 r).head = (rxRing s1 r).tail →
      exec (.hostRxDeliver r buf) s
        = .next (dropResident q 0x49 c (bump (ck 440 10 r) 1 (popQueue q s1)))))
  ∧ (∀ (r : Fin 4) (d : Bytes) (data : Option Bytes) (s : State), txReady s r = true →
    let stamp := stampOn 40 s
    let p := txPacket r d data stamp.1
    let s1 := book .input 17 p.stored stamp.2
    (txMalformed d data = true →
      exec (.hostTxFetch r d data) s = .next (dropPacket 0x70 p (closeTx r 0x70 d s1)))
    ∧ (txMalformed d data = false → s.dev.state = .safe →
      exec (.hostTxFetch r d data) s = .next (dropPacket 0x72 p (closeTx r 0x00 d s1)))
    ∧ (txMalformed d data = false → s.dev.state ≠ .safe → inService s = false →
      exec (.hostTxFetch r d data) s = .next (dropPacket 0x71 p (closeTx r 0x71 d s1)))
    ∧ (txMalformed d data = false → s.dev.state ≠ .safe → inService s = true →
      let a := admitFrame p (crossPacket (linkNo 16 1) (entriesFor .packet p.stored) 17 p.stored (closeTx r 0x00 d s1))
      exec (.hostTxFetch r d data) s = .next (offerCopy (644 + r.val) a.1 a.2)))

/-- The reads of the device group and DEVICE_NOP answer with what their entries list and change nothing else;
DEVICE_SET_PROFILE selects and leaves the profile in force alone; DEVICE_SET_RING takes a ring's descriptor, and
disabling a receive ring discards what waits in its queue (R40, R42, R419, R427, R428, R450, R454). It states that
these rows complete: deviceReadState, deviceSetProfile, deviceSetRing, deviceNop, deviceReadIdentity. -/
def Obligations.DeviceReadsAndSettings : Prop :=
  Completes cmdDeviceReadState .deviceReadState always
    (fun _ t => leBytes 4 (stateWord t) ++ leBytes 4 t.dev.causes.toNat ++ leBytes 4 t.dev.alarmLatch.toNat)
    unchanged
  ∧ Completes cmdDeviceNop .deviceNop always (fun a _ => a) unchanged
  ∧ Completes cmdDeviceReadIdentity .deviceReadIdentity always
    (fun _ _ => serialBytes ++ beBytes 96 Config.identityKey.toNat ++ beBytes 96 Config.attestation.toNat)
    unchanged
  ∧ Completes cmdDeviceSetProfile .deviceSetProfile
    (fun a t => byteAt a 0 ≠ 3 ∨ upperLanesUsed t = false) noData
    (fun a t => { t with dev := { t.dev with selected := profileOf (byteAt a 0) } })
  ∧ Completes cmdDeviceSetRing .deviceSetRing
    (fun a t => bit (byteAt a 0) 2 = true
      ∧ ((txRing t (byteAt a 0 % 4)).enable = false
        ∨ ringMoves (txRing t (byteAt a 0 % 4)) (ringFrom t (txRing t (byteAt a 0 % 4)) a) = false)) noData
    (fun a t => setTx (byteAt a 0 % 4) (ringFrom t (txRing t (byteAt a 0 % 4)) a) t)
  ∧ Completes cmdDeviceSetRing .deviceSetRing
    (fun a t => bit (byteAt a 0) 2 = false
      ∧ ((rxRing t (byteAt a 0 % 4)).enable = false
        ∨ ringMoves (rxRing t (byteAt a 0 % 4)) (ringFrom t (rxRing t (byteAt a 0 % 4)) a) = false)) noData
    (fun a t =>
      let y := ringFrom t (rxRing t (byteAt a 0 % 4)) a
      if y.enable then setRx (byteAt a 0 % 4) y t
      else flushQueue 0x47 (640 + byteAt a 0 % 4) (setRx (byteAt a 0 % 4) y t))

/-- The commands that change the device state (R42, R442, R444, R451 to R454, R487): in D0 or D1 with no entry to D3
running each has its effect and is answered; in D2 or D3 it waits for the exit it orders. DEVICE_RESET orders the
reset its KIND names and never becomes final; DEVICE_ERASE_KEYS is a Warden order, final once the erasure is done in
SAFE (R301, R302). It states that these rows complete: deviceStart, deviceStop, deviceEnterMaintenance,
deviceLeaveMaintenance, deviceLeaveSafe, deviceReset, deviceEraseKeys. -/
def Obligations.DeviceStateCommandsAct : Prop :=
  Completes cmdDeviceStart .deviceStart
    (fun _ t => t.pow.state ≠ .d2 ∧ t.pow.state ≠ .d3 ∧ t.pow.phase ≠ .enteringD3)
    (fun _ t => leBytes 4 (stateWord (startDevice t))) (fun _ t => startDevice t)
  ∧ Completes cmdDeviceStop .deviceStop
    (fun _ t => t.pow.state ≠ .d2 ∧ t.pow.state ≠ .d3 ∧ t.pow.phase ≠ .enteringD3) noData (fun _ t => stopDevice t)
  ∧ Completes cmdDeviceEnterMaintenance .deviceEnterMaintenance
    (fun _ t => t.pow.state ≠ .d2 ∧ t.pow.state ≠ .d3 ∧ t.pow.phase ≠ .enteringD3) noData
    (fun _ t => enterMaintenance t)
  ∧ HeldUp cmdDeviceStart .deviceStart
    (fun _ t => t.pow.state = .d2 ∨ t.pow.state = .d3 ∨ t.pow.phase = .enteringD3) true
    (fun _ t => requestWake .stateCommand t)
  ∧ HeldUp cmdDeviceStop .deviceStop
    (fun _ t => t.pow.state = .d2 ∨ t.pow.state = .d3 ∨ t.pow.phase = .enteringD3) true
    (fun _ t => requestWake .stateCommand t)
  ∧ HeldUp cmdDeviceEnterMaintenance .deviceEnterMaintenance
    (fun _ t => t.pow.state = .d2 ∨ t.pow.state = .d3 ∨ t.pow.phase = .enteringD3) true
    (fun _ t => requestWake .stateCommand t)
  ∧ Completes cmdDeviceLeaveMaintenance .deviceLeaveMaintenance
    (fun _ t => background? t ≠ some 0x0D04 ∧ background? t ≠ some 0x0D05)
    (fun _ t => leBytes 4 (stateWord (leaveMaintenance t))) (fun _ t => leaveMaintenance t)
  ∧ TurnedAway cmdDeviceLeaveMaintenance .deviceLeaveMaintenance stBusy
    (fun _ t => background? t = some 0x0D04 ∨ background? t = some 0x0D05) (fun _ _ => leBytes 4 1)
  ∧ Completes cmdDeviceLeaveSafe .deviceLeaveSafe (fun _ t => assertedMask t = 0) noData
    (fun _ t => leaveSafe t)
  ∧ TurnedAway cmdDeviceLeaveSafe .deviceLeaveSafe stBusy (fun _ t => assertedMask t ≠ 0)
    (fun _ t => leBytes 4 (assertedMask t))
  ∧ (∀ (n : Fin 16) (s : State), accepted cmdDeviceReset n s = true →
    s.pow.state ≠ .d2 → s.pow.state ≠ .d3 → s.pow.phase ≠ .enteringD3 → byteAt (cmdArgs s n) 0 = 1 →
    exec (.deviceReset n) s = .next (warmReset 0x04 (underWay n s)))
  ∧ (∀ (n : Fin 16) (s : State), accepted cmdDeviceReset n s = true →
    s.pow.state ≠ .d2 → s.pow.state ≠ .d3 → s.pow.phase ≠ .enteringD3 → byteAt (cmdArgs s n) 0 = 2 →
    let t := coldReset 0x03 (underWay n s)
    exec (.deviceReset n) s = .next { t with sup := { t.sup with releaseAt := t.now + ms 10 } })
  ∧ Completes cmdDeviceEraseKeys .deviceEraseKeys
    (fun _ t => (raiseAlarm 4 t).dev.erasing = false ∧ (raiseAlarm 4 t).dev.state = .safe) noData
    (fun _ t => raiseAlarm 4 t)
  ∧ HeldUp cmdDeviceEraseKeys .deviceEraseKeys
    (fun _ t => (raiseAlarm 4 t).dev.erasing = true ∨ (raiseAlarm 4 t).dev.state ≠ .safe) false
    (fun _ t => raiseAlarm 4 t)

/-- The fibre commands (R94, R118, R150, R455, R456): each accepted setting takes effect; the reads answer with the
channel's or the group's state and counters, and a group read clears the skew marks. It states that these rows
complete: fibreSetChannel, fibreSetBond, fibreSetGroups, fibreSetPortId, fibreSetUpstream, fibreSetAllocQueues,
fibreSetHeKey, fibreSetPolicy, fibreReadStatus, fibreReadCounters. -/
def Obligations.FibreCommandsComplete : Prop :=
  Completes cmdFibreSetChannel .fibreSetChannel always noData
    (fun a t => applyActivate (byteAt a 0) (bit (byteAt a 1) 0)
      (storeChannel (byteAt a 0) (byteAt a 1) (byteAt a 2) (byteAt a 3) t))
  ∧ Completes cmdFibreSetBond .fibreSetBond (fun a t => joinRefused t (byteAt a 0) = none) noData
    (fun a t => modBond (fun b => { b with working := chanOpt (byteAt a 1), standby := chanOpt (byteAt a 2) })
      (setMembers (byteAt a 0) t))
  ∧ Completes cmdFibreSetGroups .fibreSetGroups (fun a t => groupsBusy t a = false) noData
    (fun a t => setGroups a t)
  ∧ (∀ (r : Bytes) (u : State), Completes cmdFibreSetPortId .fibreSetPortId
    (fun a t => portItems (bit (le a 0 2) 15) a (List.range (fld (le a 0 2) 0 15)) [] t = some (r, u))
    (fun _ _ => r) (fun _ _ => u))
  ∧ (∀ u : State, Completes cmdFibreSetUpstream .fibreSetUpstream
    (fun a t => setUpstream (le a 0 2) (le a 2 2) (bit (byteAt a 4) 0) t = some u) noData (fun _ _ => u))
  ∧ Completes cmdFibreSetAllocQueues .fibreSetAllocQueues
    (fun a t => ∀ q ∈ queuesMoved t (le a 0 2) (listEntries a), queueHolds t q = false) noData
    (fun a t => setList (le a 0 2) (listEntries a) t)
  ∧ Completes cmdFibreSetHeKey .fibreSetHeKey always noData
    (fun a t => { t with fib := { t.fib with heKey := some (fit 96 a) } })
  ∧ Completes cmdFibreSetPolicy .fibreSetPolicy always noData
    (fun a t => { t with fib := { t.fib with policy := policyOf a } })
  ∧ Completes cmdFibreReadStatus .fibreReadStatus always
    (fun a t => fibreStatus (groupByte t (byteAt a 0)).2 (byteAt a 0) (groupByte t (byteAt a 0)).1)
    (fun a t => (groupByte t (byteAt a 0)).2)
  ∧ Completes cmdFibreReadCounters .fibreReadCounters (fun a _ => byteAt a 0 ≠ 4)
    (fun a t => (channelKeys (byteAt a 0)).flatMap (fun k => leBytes 8 (t.count k))) unchanged
  ∧ Completes cmdFibreReadCounters .fibreReadCounters (fun a _ => byteAt a 0 = 4)
    (fun _ t => groupKeys.flatMap (fun k => leBytes 8 (t.count k))) (fun _ t => clearSkewHigh t)

/-- PARSE_LOAD fills the load buffer, and PARSE_INSTALL copies it into the instruction store with the node table and
the positions (R171, R178, R457). A comparator no rule uses takes its descriptor; one rule version is staged at a
time; COMMIT makes the staged version current and the current one draining; READ answers with the entry, its
counters and the eight tags (R183 to R195, R458). It states that these rows complete: parseLoad, parseInstall,
rulesSetComparator, rulesBegin, rulesAdd, rulesRemove, rulesAbort, rulesCommit, rulesRead. -/
def Obligations.ParseAndRuleCommandsComplete : Prop :=
  Completes cmdParseLoad .parseLoad always noData
    (fun a t => { t with cls := { t.cls with load := ((List.range (le a 2 2)).foldl
      (fun l i => tset doneWord l (le a 0 2 + i) (BitVec.ofNat 64 (le a (8 + 8 * i) 8))) t.cls.load) } })
  ∧ Completes cmdParseInstall .parseInstall always noData
    (fun a t => recover (fun e => e.region == 5 && e.item % 8 == 0)
      { t with cls := { t.cls with
        store := t.cls.load, nodes := installNodes a
        pos := { l4Src := byteAt a 512, l4Dst := byteAt a 513, vid := byteAt a 514, dscp := byteAt a 515
                 zoneBase := byteAt a 516, zoneLen := byteAt a 517 } } })
  ∧ Completes cmdRulesSetComparator .rulesSetComparator
    (fun a t => comparatorUsed t (byteAt a 0) = false) noData
    (fun a t => rewriteItem 5 (item 1 (byteAt a 0)) { t with cls := { t.cls with
      comparators := tset 0 t.cls.comparators (byteAt a 0) (BitVec.ofNat 64 (le a 8 8)) } })
  ∧ Completes cmdRulesBegin .rulesBegin (fun _ t => tagIn t .staged = none)
    (fun _ t => leBytes 1 (nextTag t))
    (fun _ t => mapVersions (fun r =>
      if r.versions.getLsbD (currentTag t) then withTag (nextTag t) true r else r.versions)
      (setTag (nextTag t) .staged t))
  ∧ (∀ k : Nat, Completes cmdRulesAdd .rulesAdd
    (fun a t =>
      let l := (List.range (byteAt a 0)).map (fun i => ruleFrom a (8 + 176 * i) k)
      tagIn t .staged = some k ∧ usedPriority t k [] l 0 = none
        ∧ l.length ≤ (freeRules t l.length).length) noData
    (fun a t =>
      let l := (List.range (byteAt a 0)).map (fun i => ruleFrom a (8 + 176 * i) k)
      ((freeRules t l.length).zip l).foldl (fun s e => setRule e.1 (some e.2) (beginStream (ruleStream e.1) s)) t))
  ∧ (∀ k i : Nat, Completes cmdRulesRemove .rulesRemove
    (fun a t => tagIn t .staged = some k ∧ (ruleOf t k (le a 0 2)).map (·.1) = some i) noData
    (fun _ t => mapVersions (fun r => r.versions) (setRule i
      ((tget none t.cls.rules i).map (fun r => { r with versions := withTag k false r })) t)))
  ∧ (∀ k : Nat, Completes cmdRulesAbort .rulesAbort (fun _ t => tagIn t .staged = some k) noData
    (fun _ t => mapVersions (withTag k false) (setTag k .free t)))
  ∧ (∀ k : Nat, Completes cmdRulesCommit .rulesCommit
    (fun _ t => tagIn t .staged = some k ∧ tagIn t .draining = none)
    (fun _ t => leBytes 1 k ++ leBytes 1 (currentTag t))
    (fun _ t => setTag (currentTag t) .draining (setTag k .current t)))
  ∧ (∀ (i : Nat) (r : Rule), Completes cmdRulesRead .rulesRead
    (fun a t => ruleOf t (byteAt a 2) (le a 0 2) = some (i, r))
    (fun _ t => leBytes 8 r.control.toNat ++ leBytes 8 r.action.toNat ++ leBytes 8 r.pkts.toNat
      ++ leBytes 8 r.bytes.toNat ++ (List.range 8).map (fun k => BitVec.ofNat 8 (tagState t k).code))
    unchanged)

/-- The table commands (R206, R215 to R221, R229, R230, R459, R460): the entry commands handle their descriptors in
order; the settings take effect on the one entry they name. It states that these rows complete: tableSetProfile,
tableAdd, tableModify, tableDelete, tableRead, tableSetPort, tableSetVlan, tableSetAging, tableReadAged. -/
def Obligations.TableCommandsComplete : Prop :=
  let codes : EntryUse → Bytes → State → Bytes := fun u a t => (runItems u a (descCount a) (descCount a) t).1
  let records : EntryUse → Bytes → State → Bytes :=
    fun u a t => (runItems u a (descCount a) (descCount a) t).2.1
  let after : EntryUse → Bytes → State → State :=
    fun u a t => (runItems u a (descCount a) (descCount a) t).2.2
  Completes cmdTableAdd .tableAdd always (codes .add) (after .add)
  ∧ Completes cmdTableModify .tableModify always (codes .modify) (after .modify)
  ∧ Completes cmdTableDelete .tableDelete always
    (fun a t => fit 40 (codes .delete a t) ++ records .delete a t) (after .delete)
  ∧ Completes cmdTableRead .tableRead always
    (fun a t => fit 40 (codes .read a t) ++ records .read a t) (after .read)
  ∧ Completes cmdTableSetProfile .tableSetProfile (fun a t => profileUsed t (byteAt a 0) = false) noData
    (fun a t => rewriteItem 5 (item 2 (byteAt a 0)) { t with tab := { t.tab with
      profiles := tset {} t.tab.profiles (byteAt a 0) { dst := selectors a 8, src := selectors a 48 } } })
  ∧ Completes cmdTableSetPort .tableSetPort always noData
    (fun a t => rewriteItem 5 (item 3 (byteAt a 0)) { t with tab := { t.tab with
      ports := tset portReset t.tab.ports (byteAt a 0) (BitVec.ofNat 64 (le a 8 8)) } })
  ∧ Completes cmdTableSetVlan .tableSetVlan always noData
    (fun a t => rewriteItem 5 (item 4 (le a 0 2)) { t with tab := { t.tab with
      vlans := tset 0 t.tab.vlans (le a 0 2) (BitVec.ofNat 64 (le a 8 8)) } })
  ∧ Completes cmdTableSetAging .tableSetAging always noData
    (fun a t => { t with tab := { t.tab with
      agingS := if le a 0 2 = 0 then t.tab.agingS else le a 0 2
      limits := if byteAt a 2 = 0xFF then t.tab.limits
        else tset 524288 t.tab.limits (byteAt a 2) (le a 4 4) } })
  ∧ Completes cmdTableReadAged .tableReadAged always
    (fun a t => (List.range (byteAt a 4)).flatMap (fun i => agedBytes t (le a 0 4 + i))) unchanged

/-- The traffic commands (R235, R250, R256, R259, R264, R266, R269, R461). It states that these rows complete:
trafficSetQueue, trafficFlushQueue, trafficSetPolicer, trafficSetShaper, trafficSetPause, trafficSetGate,
trafficSetHistogram, trafficRead, trafficReadHistogram. -/
def Obligations.TrafficCommandsComplete : Prop :=
  let mode : Nat → FlowMode := fun v => match v with
    | 0 => .off
    | 1 => .pause
    | _ => .pfc
  let marks : Bytes → Nat → Tab Nat := fun a o =>
    (List.range 8).foldl (fun t c => tset 0 t c (le a (8 + 8 * c + o) 4)) []
  Completes cmdTrafficSetQueue .trafficSetQueue
    (fun a t => bit (le a 8 16) 127 = true ∨ held t (le a 0 2) = []) noData
    (fun a t => rewriteItem 3 (item 0 (le a 0 2))
      (modQueue (le a 0 2) (fun x => { x with desc := BitVec.ofNat 128 (le a 8 16) }) t))
  ∧ Completes cmdTrafficFlushQueue .trafficFlushQueue always
    (fun a t => leBytes 8 (queueOf t (le a 0 2)).pkts.length) (fun a t => flushQueue 0x47 (le a 0 2) t)
  ∧ Completes cmdTrafficSetPolicer .trafficSetPolicer always noData
    (fun a t => rewriteItem 3 (item 1 (le a 0 2))
      (setPolicer (le a 0 2) (writePolicer (policerOf t (le a 0 2)) (le a 8 16) (tickNo t)) t))
  ∧ Completes cmdTrafficSetShaper .trafficSetShaper always noData
    (fun a t => rewriteItem 3 (item 2 (shaperNo (le a 0 2))) (setShaper (shaperNo (le a 0 2))
      { shaperOf t (shaperNo (le a 0 2)) with pending := some (BitVec.ofNat 64 (le a 8 8)) } t))
  ∧ Completes cmdTrafficSetPause .trafficSetPause always noData
    (fun a t =>
      let p := byteAt a 0
      let same := mode (byteAt a 1) == (pauseOf t p).mode
      let u := modPause p (fun x => { x with
        mode := mode (byteAt a 1), obey := byteAt a 2 == 1, quanta := le a 4 2
        high := marks a 0, low := marks a 4
        xoff := if mode (byteAt a 1) == x.mode then x.xoff else 0
        until_ := if mode (byteAt a 1) == x.mode then x.until_ else []
        since := if mode (byteAt a 1) == x.mode then x.since else [] })
        (if same then t else forEach (List.range 8) (countPaused p) t)
      checkAccounts p (List.range 8) (if (pauseOf t p).xoff ≠ 0 ∧ same = false then noteIdle p u else u))
  ∧ Completes cmdTrafficSetGate .trafficSetGate always
    (fun a t => leBytes 12 (nsWord (switchInstant t (le a 14 6 * 1000000000 + le a 10 4) (le a 4 4))))
    (fun a t =>
      let base := le a 14 6 * 1000000000 + le a 10 4
      let list : Option GateList := if le a 2 2 = 0 then none
        else some { base := base, cycle := le a 4 4, entries := gateEntries a }
      rewriteItem 3 (item 3 (le a 0 2)) (modGate (le a 0 2) (fun x =>
        { x with pending := some (list, switchInstant t base (le a 4 4)) }) t))
  ∧ Completes cmdTrafficSetHistogram .trafficSetHistogram always noData
    (fun a t => { t with tm := { t.tm with hists := (tset {} t.tm.hists (byteAt a 0)
      { source := some (byteAt a 1, le a 2 2), bins := [] }) } })
  ∧ Completes cmdTrafficRead .trafficRead (fun a _ => byteAt a 0 ≠ 2)
    (fun a t => counterBytes t (trafficKeys (byteAt a 0) (le a 2 2)))
    (fun a t => if byteAt a 0 = 0 then
        setCount (ck 269 0 (le a 2 2)) 0 (setCount (ck 269 1 (le a 2 2)) 0 t)
      else t)
  ∧ Completes cmdTrafficRead .trafficRead (fun a _ => byteAt a 0 = 2)
    (fun a t => counterBytes (forEach (List.range 8) (countPaused (le a 2 2)) t) (trafficKeys 2 (le a 2 2)))
    (fun a t => forEach (List.range 8) (countPaused (le a 2 2)) t)
  ∧ Completes cmdTrafficReadHistogram .trafficReadHistogram always
    (fun a t => (List.range 32).flatMap (fun i =>
      leBytes 8 (tget 0 (tget ({} : Hist) t.tm.hists (byteAt a 0)).bins i))) unchanged

/-- The cipher commands (R285, R300, R363, R462, R463): CIPHER_SET_CAK needs the buffer that DMA read, and is turned
away with RESOURCE where DMA is not allowed. It states that these rows complete: cipherSetCak, cipherSetMacsec,
cipherSetThreshold, cipherReadStatus. -/
def Obligations.CipherCommandsComplete : Prop :=
  (∀ cak : Bytes, Completes (cmdCipherSetCak (some cak)) (fun n => .cipherSetCak n (some cak))
    (fun _ t => dmaOk t = true) noData
    (fun a t => writeCak (byteAt a 0) (slice a 8 (byteAt a 1)) (fit 32 cak) t))
  ∧ (∀ (n : Fin 16) (s : State) (cak : Option Bytes), accepted (cmdCipherSetCak cak) n s = true →
    dmaOk s = false → exec (.cipherSetCak n cak) s = .next (answered (cmdCipherSetCak cak) n s stResource
      (leBytes 4 (takeFree (underWay n s)).1) (takeFree (underWay n s)).2))
  ∧ Completes cmdCipherSetMacsec .cipherSetMacsec always noData
    (fun a t => modMacsec (byteAt a 0) (fun m => { m with
      xpn := byteAt a 1 == 1, offset := byteAt a 2, withSci := bit (byteAt a 3) 0
      integrityOnly := bit (byteAt a 3) 1, window := le a 4 4, sci := BitVec.ofNat 64 (be a 8 8) }) t)
  ∧ Completes cmdCipherSetThreshold .cipherSetThreshold always noData
    (fun a t => { t with cip := { t.cip with threshold := le a 0 4 } })
  ∧ Completes cmdCipherReadStatus .cipherReadStatus always (fun a t => cipherStatus t (byteAt a 0)) unchanged

/-- The time commands (R310, R314, R317 to R319, R321, R328, R341, R464). It states that these rows complete:
timeSet, timeStep, timeSetServo, timeSelectDomain, timeSetFibre, timeReadFibre, timeSetSource, timeSetIo,
timeSetPtp, timeReadStatus. -/
def Obligations.TimeCommandsComplete : Prop :=
  let dom : Bytes → TimeDomain := fun a => if byteAt a 0 = 0 then .a else .b
  Completes cmdTimeSet .timeSet always noData
    (fun a t =>
      let u := moveTime (((berylOfWord (le a 0 12)).total : Int) - (mainNow t).total) 9 t
      { u with time := { u.time with served := false } })
  ∧ Completes cmdTimeStep .timeStep
    (fun a t => withinTime (mainNow t) (nsUnits (sint 64 (le a 0 8))) = true
      ∧ withinTime (servoOf t (selected t)).shadow (nsUnits (sint 64 (le a 0 8))) = true) noData
    (fun a t => moveTime (nsUnits (sint 64 (le a 0 8))) 10 t)
  ∧ TurnedAway cmdTimeStep .timeStep stRange
    (fun a t => withinTime (mainNow t) (nsUnits (sint 64 (le a 0 8))) = false
      ∨ withinTime (servoOf t (selected t)).shadow (nsUnits (sint 64 (le a 0 8))) = false)
    (fun _ _ => leBytes 4 0x040)
  ∧ Completes cmdTimeSetServo .timeSetServo always noData
    (fun a t =>
      let u := modServo (dom a) (fun x => { x with
        kp := BitVec.ofNat 32 (le a 4 4), ki := BitVec.ofNat 32 (le a 8 4), lockNs := le a 12 2
        holdS := byteAt a 14, gainsSet := true }) t
      { u with time := { u.time with stepNs := le a 16 4, slewPpm := byteAt a 20 } })
  ∧ Completes cmdTimeSelectDomain .timeSelectDomain (fun a t => selected t = dom a) noData unchanged
  ∧ Completes cmdTimeSelectDomain .timeSelectDomain
    (fun a t => selected t ≠ dom a ∧ (servoOf t (dom a)).everLocked = true) noData
    (fun a t => switchTo (dom a) t)
  ∧ Completes cmdTimeSetFibre .timeSetFibre always noData
    (fun a t =>
      let delays := (List.range 4).foldl (fun (l : Tab FibreDelay) c => tset {} l c
        { lambdaD := le a (8 + 20 * c) 4, lambdaU := le a (8 + 20 * c + 4) 4
          delayRx := le a (8 + 20 * c + 8) 4, delayTx := le a (8 + 20 * c + 12) 4
          asym := sint 32 (le a (8 + 20 * c + 16) 4) }) t.time.fibre.delays
      sourceSet .a ((List.range 4).any (fun c => wavesSet (tget {} delays c)))
        { t with time := { t.time with fibre := { t.time.fibre with
          theta := le a 0 8, delays := delays, lambdaRef := le a 88 4, kappa := le a 92 4 } } })
  ∧ Completes cmdTimeReadFibre .timeReadFibre always
    (fun _ t => leBytes 8 (uint 64 t.time.fibre.pHat) ++ leBytes 4 t.time.fibre.validity
      ++ (List.range 4).flatMap (fun c => leBytes 4 (uint 32 (
        if wavesSet (fibreDelayOf t c) then asymOf t.time.fibre (fibreDelayOf t c) / 65536 else 0))))
    unchanged
  ∧ Completes cmdTimeSetSource .timeSetSource always noData
    (fun a t =>
      let src : DomBSource := match byteAt a 0 with
        | 0 => .none
        | 1 => .ptp
        | _ => .pps
      let changed := src != t.time.sourceB
      sourceSet .b (src != .none) { t with time := { t.time with
        sourceB := src, ref25 := byteAt a 1 == 1, ppsInDelay := sint 32 (le a 4 4), refTol := le a 8 4
        b := { t.time.b with
          ki := if t.time.b.gainsSet then t.time.b.ki
            else if src == .pps then 0x00010000 else 0x00001000
          pending := if changed then none else t.time.b.pending }
        edgeAt := if changed then none else t.time.edgeAt
        lastEdge := if changed then none else t.time.lastEdge } })
  ∧ Completes cmdTimeSetIo .timeSetIo always noData
    (fun a t => { t with time := { t.time with
      ppsEnable := bit (byteAt a 0) 0, ppsOffset := sint 32 (le a 4 4), ppsWidth := le a 8 4
      lastPps := if bit (byteAt a 0) 0 == t.time.ppsEnable && sint 32 (le a 4 4) == t.time.ppsOffset then
        t.time.lastPps else none
      todOut := byteAt a 12, todIn := byteAt a 13 } })
  ∧ Completes cmdTimeSetPtp .timeSetPtp
    (fun a t => ∀ p ∈ setBits 16 (le a 2 2), (portOf t p).mode ≠ 0) noData
    (fun a t => { t with time := { t.time with
      ptpDomain := byteAt a 0, ptpMask := BitVec.ofNat 16 (le a 2 2)
      ptpAsym := (List.range 16).foldl (fun l p => tset 0 l p (sint 32 (le a (8 + 4 * p) 4)))
        t.time.ptpAsym } })
  ∧ Completes cmdTimeReadStatus .timeReadStatus always
    (fun _ t => leBytes 12 (timeWord t) ++ leBytes 4 (ts32 t) ++ leBytes 12 (shadowNow t .a)
      ++ leBytes 12 (shadowNow t .b) ++ leBytes 4 (snapStatus t + 512) ++ leBytes 4 (snapBound t)
      ++ leBytes 8 (uint 64 t.time.a.rate) ++ leBytes 8 (uint 64 t.time.b.rate)) unchanged

/-- The port commands (R345 to R349, R358, R367, R368, R465). It states that these rows complete: portConfigure,
portSetFilter, portSetAddress, portSetAggregation, portSetMgmt, portSetLldp, portReadStatus, portReadCounters. -/
def Obligations.PortCommandsComplete : Prop :=
  Completes cmdPortConfigure .portConfigure
    (fun a t => portBusy t (byteAt a 0) (le a 8 8) = false
      ∧ (t.dev.selected ≠ .economy ∨ descMode (le a 8 8) = 0 ∨ byteAt a 0 < 8)
      ∧ (macsecRate (le a 8 8) = 0 ∨ macsecSum t (byteAt a 0) (le a 8 8) ≤ 1500)) noData
    (fun a t => writePort (byteAt a 0) (BitVec.ofNat 64 (le a 8 8)) t)
  ∧ Completes cmdPortSetFilter .portSetFilter always noData
    (fun a t => modPort (byteAt a 0) (fun x => { x with filters := ((List.range 8).foldl
      (fun l i => tset (0 : BitVec 48) l i (BitVec.ofNat 48 (be a (8 + 8 * i) 6))) []) }) t)
  ∧ Completes cmdPortSetAddress .portSetAddress always noData
    (fun a t => { t with prt := { t.prt with base := BitVec.ofNat 48 (be a 0 6) } })
  ∧ Completes cmdPortSetAggregation .portSetAggregation always noData
    (fun a t => setAgg (byteAt a 0) (if le a 2 2 = 0 then {} else {
      mask := BitVec.ofNat 16 (le a 2 2), priority := BitVec.ofNat 16 (le a 4 2)
      active := byteAt a 6 == 1
      distributing := BitVec.ofNat 16
        (Nat.land (aggOf t (byteAt a 0)).distributing.toNat (le a 2 2)) }) t)
  ∧ Completes cmdPortSetMgmt .portSetMgmt always noData
    (fun a t =>
      let falls := t.prt.mgmtSync && byteAt a 0 != t.prt.mgmtMode
      let u := syncLanes { t with prt := { t.prt with
        mgmtMode := byteAt a 0, mgmtSync := t.prt.mgmtSync && !falls } }
      if falls then raise 0x0801 false 16 (leBytes 1 0 ++ leBytes 1 (if byteAt a 0 = 0 then 5 else 1)) u else u)
  ∧ Completes cmdPortSetLldp .portSetLldp always noData
    (fun a t => { t with prt := { t.prt with lldp := (tset {} t.prt.lldp (byteAt a 0)
      { enable := bit (byteAt a 1) 0, eee := bit (byteAt a 1) 1, interval := le a 2 2 }) } })
  ∧ Completes cmdPortReadStatus .portReadStatus always (fun a t => portStatus t (byteAt a 0)) unchanged
  ∧ Completes cmdPortReadCounters .portReadCounters always
    (fun a t => (portRows (byteAt a 0)).flatMap (fun r =>
      leBytes 8 (portCount (countCoding (byteAt a 0) t) (byteAt a 0) r)))
    (fun a t => countCoding (byteAt a 0) t)

/-- The lane commands (R375, R376, R392 to R395, R466); both reads clear the SNR low-water mark (R9). It states that
these rows complete: laneConfigure, laneSetTest, laneInject, laneReadStatus, laneReadCounters. -/
def Obligations.LaneCommandsComplete : Prop :=
  Completes cmdLaneConfigure .laneConfigure always noData
    (fun a t => writeLane (byteAt a 0) (BitVec.ofNat 64 (le a 8 8)) t)
  ∧ Completes cmdLaneSetTest .laneSetTest
    (fun a t => (byteAt a 1 = 0 ∧ byteAt a 2 = 0 ∧ byteAt a 3 = 0) ∨ laneInUse t (byteAt a 0) = false) noData
    (fun a t => setTest (byteAt a 0) (byteAt a 1) (byteAt a 2) (byteAt a 3) (BitVec.ofNat 64 (le a 8 8)) t)
  ∧ Completes cmdLaneInject .laneInject always noData
    (fun a t => setInject (byteAt a 0) (byteAt a 1) (byteAt a 2) (byteAt a 3 == 1) t)
  ∧ Completes cmdLaneReadStatus .laneReadStatus always
    (fun a t =>
      let c := sampleCoeffs (byteAt a 0) (sampleSnr (byteAt a 0) t)
      let x := laneOf c.2 (byteAt a 0)
      leBytes 1 x.state.code ++ leBytes 1 (b2n x.los + 2 * b2n x.lol + 4 * b2n x.energy)
        ++ leBytes 2 x.snr ++ leBytes 2 x.snrLow ++ [0, 0] ++ c.1)
    (fun a t => clearSnrLow (byteAt a 0) (sampleCoeffs (byteAt a 0) (sampleSnr (byteAt a 0) t)).2)
  ∧ Completes cmdLaneReadCounters .laneReadCounters always
    (fun a t => (List.range 26).flatMap (fun i => leBytes 8 (laneCount
      (compensateIdle (byteAt a 0) (sampleSnr (byteAt a 0) (settleChecker (byteAt a 0) t))) (byteAt a 0) i)))
    (fun a t => clearSnrLow (byteAt a 0)
      (compensateIdle (byteAt a 0) (sampleSnr (byteAt a 0) (settleChecker (byteAt a 0) t))))

/-- The power commands (R467, R468, R479, R480, R488, R490): POWER_SET_STATE is OK at once in the state it names,
runs a transition between D0 and D1, asks Amber for the doze of D2, and orders the exit from D2 or D3. It states
that these rows complete: powerSetState, powerSetCap, powerSetDroop, powerReadStatus. -/
def Obligations.PowerCommandsComplete : Prop :=
  Completes cmdPowerSetState .powerSetState (fun a t => powerOf (byteAt a 0) = t.pow.state) noData unchanged
  ∧ HeldUp cmdPowerSetState .powerSetState
    (fun a t => powerOf (byteAt a 0) = .d1 ∧ t.pow.state = .d0) false
    (fun _ t => { t with pow := { t.pow with phase := .toD1 } })
  ∧ HeldUp cmdPowerSetState .powerSetState
    (fun a t => powerOf (byteAt a 0) = .d0 ∧ t.pow.state = .d1) false
    (fun _ t => { t with pow := { t.pow with phase := .fromD1 } })
  ∧ HeldUp cmdPowerSetState .powerSetState
    (fun a t => powerOf (byteAt a 0) = .d2 ∧ (t.pow.state = .d0 ∨ t.pow.state = .d1) ∧ background? t = none
      ∧ ∃ c ∈ List.range 4, (actOf t c).act = .f5)
    false (fun a t =>
      let u : State := { t with fib := { t.fib with
        doze := { phase := .requested, n := le a 2 2, start := 0, ch := byteAt a 4 } } }
      queueMessage 0x45 (groupIdOf u (byteAt a 4)) (byteAt a 4)
        (beBytes 2 (le a 2 2) ++ beBytes 1 (byteAt a 4)) u)
  ∧ TurnedAway cmdPowerSetState .powerSetState stResource
    (fun a t => powerOf (byteAt a 0) = .d2 ∧ (t.pow.state = .d0 ∨ t.pow.state = .d1) ∧ background? t = none
      ∧ ∀ c ∈ List.range 4, (actOf t c).act ≠ .f5) (fun _ _ => leBytes 4 2)
  ∧ HeldUp cmdPowerSetState .powerSetState
    (fun a t => powerOf (byteAt a 0) = .d3 ∧ (t.pow.state = .d0 ∨ t.pow.state = .d1) ∧ background? t = none)
    false (fun _ t => startD3 t)
  ∧ HeldUp cmdPowerSetState .powerSetState
    (fun a t => powerOf (byteAt a 0) = .d0 ∧ (t.pow.state = .d2 ∨ t.pow.state = .d3)) false
    (fun _ t => requestWake .hostOrder t)
  ∧ TurnedAway cmdPowerSetState .powerSetState stResource
    (fun a t => powerOf (byteAt a 0) ≠ .d0 ∧ powerOf (byteAt a 0) ≠ t.pow.state
      ∧ (t.pow.state = .d2 ∨ t.pow.state = .d3)) (fun _ _ => leBytes 4 3)
  ∧ Completes cmdPowerSetCap .powerSetCap always noData
    (fun a t =>
      let u : State := { t with pow := { t.pow with cap := le a 0 2 } }
      setCause 2 (decide (u.pow.level ≥ 1) && !economyCaps u) u)
  ∧ Completes cmdPowerSetDroop .powerSetDroop always noData
    (fun a t => forEach (if byteAt a 0 = 0xFF then List.range 48 else [byteAt a 0])
      (fun d s => modDetect d (fun x => { x with
        threshold := byteAt a 1, half := byteAt a 2 == 1, sustain := le a 4 4 }) s) t)
  ∧ Completes cmdPowerReadStatus .powerReadStatus always
    (fun _ t => leBytes 12 (domainMask t)
      ++ (List.range 24).flatMap (fun k => leBytes 2 (uint 16 (sensorOf t k).reading))
      ++ (List.range 48).flatMap (fun d => leBytes 4 (t.count (ck 495 16 d) % 2 ^ 32))) unchanged

/-- The observability commands (R201, R504, R512, R513, R525, R528, R539, R540, R542, R544, R469). It states that
these rows complete: obsSetCounter, obsSetDump, obsReadGroup, obsSetSampling, obsReadAudit, obsSetIpfix, obsSetTrap,
obsReadDrops, obsSetEcc. -/
def Obligations.ObservabilityCommandsComplete : Prop :=
  Completes cmdObsSetCounter .obsSetCounter always noData
    (fun a t => setObsCounter (byteAt a 0) (byteAt a 1)
      { code := BitVec.ofNat 16 (le a 2 2), level := bit (byteAt a 4) 0
        base := (eventSource t (byteAt a 0) (le a 2 2)).getD 0 } t)
  ∧ Completes cmdObsReadGroup .obsReadGroup always
    (fun a t => groupBytes (latchGroup (byteAt a 0) t) (byteAt a 0)) (fun a t => latchGroup (byteAt a 0) t)
  ∧ Completes cmdObsSetSampling .obsSetSampling always noData
    (fun a t => seedSlices { t with obs := { t.obs with mode := byteAt a 0, rateN := byteAt a 1 } })
  ∧ Completes cmdObsSetTrap .obsSetTrap always noData
    (fun a t => { t with cls := { t.cls with trap := BitVec.ofNat 256 (le a 0 32) } })
  ∧ Completes cmdObsReadDrops .obsReadDrops always (fun a t => dropBytes t (byteAt a 0)) unchanged
  ∧ Completes cmdObsSetEcc .obsSetEcc always noData
    (fun a t => modRegion (byteAt a 0) (fun x => { x with pending := some (le a 4 4, le a 8 4) }) t)
  ∧ Completes cmdObsReadAudit .obsReadAudit always
    (fun _ t => (List.range 51).flatMap (fun q => auditBytes (auditOf t q))) unchanged
  ∧ Completes cmdObsSetDump .obsSetDump always noData
    (fun a t => { t with obs := { t.obs with
      dumpPeriod := le a 0 2, dumpHost := byteAt a 2 == 1
      dumpAddr := BitVec.ofNat 64 (le a 8 8), dumpBytes := le a 16 4 } })
  ∧ Completes cmdObsSetIpfix .obsSetIpfix always noData
    (fun a t =>
      let old := t.obs.ipfix
      let on := bit (byteAt a 0) 0
      let u := modIpfix (fun x => { x with
        enable := on, mask := BitVec.ofNat 8 (byteAt a 1), collector := BitVec.ofNat 128 (be a 4 16)
        port := BitVec.ofNat 16 (le a 20 2), domain := BitVec.ofNat 32 (le a 24 4)
        active := le a 28 2, idle := le a 30 2
        templateAt := if on then x.templateAt else none
        sequence := if x.domain.toNat = le a 24 4 then x.sequence else 0 }) t
      let moved := u.obs.ipfix.collector != old.collector || !old.enable
      let v := if on && moved then startResolve (discardHeld u) else if on then u else discardHeld u
      if on && (!old.enable || u.obs.ipfix.mask != old.mask) then
        sendTemplates (modIpfix (fun x => { x with templateAt := none }) v)
      else v)

/-- The journal, recorder and maintenance commands (R412, R435, R448, R470 to R472, R555, R559, R564). It states
that these rows complete: journalRead, recorderSet, recorderRead, maintReadVersion, maintFlashWrite,
maintSelectImage, maintSelfTest, maintReplay, maintAbort. -/
def Obligations.MaintenanceCommandsComplete : Prop :=
  Completes cmdJournalRead .journalRead always
    (fun a t => (List.range (byteAt a 8)).flatMap (fun k => journalAt t (le a 0 8 + k))) unchanged
  ∧ Completes cmdRecorderSet .recorderSet always noData (fun a t => setRecorder (byteAt a 0) t)
  ∧ Completes cmdRecorderRead .recorderRead (fun _ t => t.mnt.recorder ≠ .running ∧ dmaOk t = true) noData
    (fun a t => copyRing (le a 0 8) (le a 8 4) (le a 12 4) t)
  ∧ HeldUp cmdRecorderRead .recorderRead (fun _ t => t.mnt.recorder ≠ .running ∧ dmaOk t = false) false unchanged
  ∧ Completes cmdMaintReadVersion .maintReadVersion always
    (fun _ t => leBytes 1 t.mnt.slot ++ zeros 3 ++ leBytes 4 (slotVersion t 0) ++ leBytes 4 (slotVersion t 1)
      ++ [0x10]) unchanged
  ∧ HeldUp cmdMaintFlashWrite .maintFlashWrite
    (fun a t => byteAt a 0 ≠ t.mnt.slot ∧ le a 16 4 ≤ imageMax) false (fun a t => eraseSlot (byteAt a 0) t)
  ∧ TurnedAway cmdMaintFlashWrite .maintFlashWrite stResource
    (fun a t => byteAt a 0 ≠ t.mnt.slot ∧ imageMax < le a 16 4) (fun _ _ => leBytes 4 2)
  ∧ Completes cmdMaintSelectImage .maintSelectImage
    (fun a t => slotWritten t (byteAt a 0) = false ∧ authentic t (slotImage t (byteAt a 0)) = true) noData
    (fun a t => selectSlot (byteAt a 0) t)
  ∧ TurnedAway cmdMaintSelectImage .maintSelectImage stAuth
    (fun a t => slotWritten t (byteAt a 0) = false ∧ authentic t (slotImage t (byteAt a 0)) = false) noData
  ∧ HeldUp cmdMaintSelfTest .maintSelfTest always false unchanged
  ∧ (∀ v : Nat, HeldUp cmdMaintReplay .maintReplay
    (fun a t => t.mnt.recorder ≠ .running ∧ startAt t (le a 0 8) = some v
      ∧ ∃ k ∈ [0, 1], slotVersion t k = v ∧ authentic t (slotImage t k) = true) false unchanged)
  ∧ TurnedAway cmdMaintReplay .maintReplay stRange
    (fun a t => t.mnt.recorder ≠ .running ∧ startAt t (le a 0 8) = none) (fun _ _ => leBytes 4 0x040)
  ∧ Completes cmdMaintAbort .maintAbort always (fun _ t => leBytes 2 ((background? t).getD 0))
    (fun _ t => abortBackground t)

/-- Frame delineation (R52 to R54, R95): a match in HUNT opens a free candidate slot; a confirmed candidate leads to
PRESYNC with the next counter value, a failed one frees its slot; PRESYNC leads to SYNC or back to HUNT; the third
consecutive miss leaves SYNC. In F0 nothing of it happens (R132). A test in SYNC comes at the bit time at which the
frame is expected (log entry 2). It states that these rows complete: huntMatch, candidateTest, presyncTest,
syncFrameTest. -/
def Obligations.DelineationMoves : Prop :=
  (∀ (ch : Fin 4) (off i : Nat) (w : Word64) (s : State), hasStream s ch = true → (rxOf s ch).delin = .hunt →
    windowMatches w = true → (rxOf s ch).slots.any (fun e => e.2 == some off) = false →
    freeCandidate (rxOf s ch) = some i →
    exec (.huntMatch ch off w) s
      = .next (modRx ch (fun x => { x with slots := tset none x.slots i (some off) }) s))
  ∧ (∀ (ch slot : Fin 4) (w w0 : Word64) (v : Nat) (s t : State), (rxOf s ch).delin = .hunt →
    (tget none (rxOf s ch).slots slot).isSome = true → windowMatches w = true →
    decideWord0 ch w0 s = (some v, t) →
    dark s ch = false → exec (.candidateTest ch slot w w0) s = .next (modRx ch (fun x => { x with
      delin := .presync, slots := [], sfc := BitVec.ofNat 51 (v + 1) }) t))
  ∧ (∀ (ch slot : Fin 4) (w w0 : Word64) (s : State), (rxOf s ch).delin = .hunt →
    (tget none (rxOf s ch).slots slot).isSome = true → windowMatches w = false → dark s ch = false →
    exec (.candidateTest ch slot w w0) s
      = .next (modRx ch (fun x => { x with slots := tset none x.slots slot none }) s))
  ∧ (∀ (ch : Fin 4) (w w0 : Word64) (e : Nat × Bool) (s : State), (rxOf s ch).delin = .presync →
    windowMatches w = true → hecDecode w0.toNat = some e → fld e.1 13 51 = (rxOf s ch).sfc.toNat →
    dark s ch = false → exec (.presyncTest ch w w0) s = .next (enterSync ch s))
  ∧ (∀ (ch : Fin 4) (w w0 : Word64) (s : State), (rxOf s ch).delin = .presync → windowMatches w = false →
    dark s ch = false → exec (.presyncTest ch w w0) s = .next (leaveSync ch s))
  ∧ (∀ (ch : Fin 4) (w : Word64) (s : State), (rxOf s ch).delin = .sync → dark s ch = false →
    windowMatches w = true →
    exec (.syncFrameTest ch w) s = .next (modRx ch (fun x => { x with misses := 0 }) (passTrx ch s)))
  ∧ (∀ (ch : Fin 4) (w : Word64) (s : State), (rxOf s ch).delin = .sync → dark s ch = false →
    windowMatches w = false →
    let t := bump (ck 97 1 ch) 1 (modRx ch (fun x => { x with misses := x.misses + 1 }) (passTrx ch s))
    ((rxOf s ch).misses + 1 < 3 → exec (.syncFrameTest ch w) s = .next t)
    ∧ (3 ≤ (rxOf s ch).misses + 1 → exec (.syncFrameTest ch w) s = .next (endDoze ch (leaveSync ch t))))

/-- What a channel in SYNC delivers (R46 to R83, R90, R98, R105, R132): each frame ends the one before, comes one
frame time after it, has its counter judged, and is descrambled, decoded and processed unless it is one that the
doze skips; a PFE frame that is no idle frame of its region is taken up. In F0 no frame is taken. It states that
these rows complete: downstreamFrame, pfeFrame. -/
def Obligations.FramesAreDelivered : Prop :=
  (∀ (ch : Fin 4) (f0 : RxFrame) (s : State), (rxOf s ch).delin = .sync → dark s ch = false →
    let f := { f0 with bytes := (laneOf s (16 + ch)).receive f0.bytes }
    let u := beginFrame ch (endFrame ch s)
    let w := decideWord0 ch (BitVec.ofNat 64 (be f.bytes 8 8)) u
    let a := judgeCounter ch w.1 w.2
    let n := (rxOf a ch).sfc.toNat
    let b := noteArrival ch n (arrivalOf (rxOf a ch) f) a
    let next : State → State := modRx ch (fun x => { x with sfc := BitVec.ofNat 51 (n + 1) })
    (dozedFrame b n = true → exec (.downstreamFrame ch f0) s = .next (next (dropOpen ch 0x12 b)))
    ∧ (dozedFrame b n = false →
      exec (.downstreamFrame ch f0) s = .next (next (processFrame ch n (takeApart f n) b))))
  ∧ (∀ (ch : Fin 4) (f : RxFrame) (s : State), dark s ch = true → exec (.downstreamFrame ch f) s = .next s)
  ∧ (∀ (ch : Fin 4) (w : Nat) (s : State), (rxOf s ch).inFrame = true → 8 ≤ (rxOf s ch).regionLeft →
    erasedIn (rxOf s ch).badWords (headerAt (rxOf s ch)) 8 = false →
    hecDecode (be (rxOf s ch).region 0 8) = some (w, false) →
    fld w 13 17 = 0 → pfeSize ((rxOf s ch).frameLabel == 0x11) w ≤ (rxOf s ch).regionLeft →
    let size := pfeSize ((rxOf s ch).frameLabel == 0x11) w
    (pfeIdle w = true → exec (.pfeFrame ch) s = .next (consume ch size (bump (ck 97 20 ch) (pfeLen w) s)))
    ∧ (pfeIdle w = false → exec (.pfeFrame ch) s = .next (consume ch size (takePfe ch w (pfeUnit (rxOf s ch) w)
      (crossLink (linkNo 0 ch) (entriesFor .packet size) s)))))
  ∧ (∀ (ch : Fin 4) (s : State), (rxOf s ch).inFrame = true → 8 ≤ (rxOf s ch).regionLeft →
    let x := rxOf s ch
    (erasedIn x.badWords (headerAt x) 8 = true → exec (.pfeFrame ch) s = .next (abandonRegion ch s))
    ∧ (erasedIn x.badWords (headerAt x) 8 = false → hecDecode (be x.region 0 8) = none →
      exec (.pfeFrame ch) s = .next (abandonRegion ch (bump (ck 97 16 ch) 1 s))))

/-- Windows and the bond (R91, R94, R95): three bad 1 ms windows in a row raise signal fail and ten good ones clear
it; the ratio of corrected bits to the bits received in the window against 10 to the power of minus n raises and
clears signal degrade; 250 µs after the first floor past NEXT the bond releases; a removed member gives its
reservation back. It states that these rows complete: signalFailWindow, signalDegradeWindow, bondWaitExpiry,
bondReservationFree. -/
def Obligations.WindowsAndBondAct : Prop :=
  (∀ (ch : Fin 4) (s : State), (rxOf s ch).delin = .sync →
    let x := rxOf s ch
    let n := runOf x.winBad x.sfBad x.sfRun
    let t := modRx ch (fun x => { x with sfBad := x.winBad, sfRun := n, winBad := false }) s
    (x.winBad = true → 3 ≤ n → exec (.signalFailWindow ch) s = .next (setDefect ch 6 true t))
    ∧ (x.winBad = false → 10 ≤ n → exec (.signalFailWindow ch) s = .next (setDefect ch 6 false t))
    ∧ ((x.winBad = true ∧ n < 3 ∨ x.winBad = false ∧ n < 10) →
      exec (.signalFailWindow ch) s = .next t))
  ∧ (∀ (ch : Fin 4) (s : State), (rxOf s ch).delin ≠ .sync →
    exec (.signalFailWindow ch) s = .next (modRx ch (fun x => { x with winBad := false, sfRun := 0 }) s))
  ∧ (∀ (ch : Fin 4) (s : State),
    let n := s.fib.policy.degradeExp
    let x := rxOf s ch
    let t := modRx ch (fun x => { x with winBits := 0, winRx := 0 }) s
    (x.winRx < x.winBits * 10 ^ n → exec (.signalDegradeWindow ch) s = .next (setDefect ch 5 true t))
    ∧ (x.winBits * 10 ^ (n + 1) < x.winRx → exec (.signalDegradeWindow ch) s = .next (setDefect ch 5 false t))
    ∧ (x.winBits * 10 ^ n ≤ x.winRx → x.winRx ≤ x.winBits * 10 ^ (n + 1) →
      exec (.signalDegradeWindow ch) s = .next t))
  ∧ (∀ s : State, s.fib.bond.started = true →
    exec .bondWaitExpiry s = .next (bondRelease (passSince (firstFloorTime s) (us 250) s)))
  ∧ (∀ (ch : Fin 4) (s : State), 0 < (rxOf s ch).reserved → bit s.fib.bond.members.toNat ch = false →
    (rxOf s ch).store = [] →
    exec (.bondReservationFree ch) s = .next (modRx ch (fun x => { x with reserved := 0 })
      { s with tm := { s.tm with free := s.tm.free + (rxOf s ch).reserved } }))

/-- Station messages (R133 to R158): the next message in the order of reception is judged once the one before has
had its effect: its MIC goes to the cipher complex where its epoch has a key, Amber records it, and each accepted
one has the effect of its own kind, once. It states that these rows complete: stationMessage, profile,
rangingParams, assignStation, rangingTime, deactivate, silence, allocation, heKey, keySwitch, dozeReply, dozeEnd. -/
def Obligations.StationMessagesTakeEffect : Prop :=
  (∀ (m : RxMsg) (l : List RxMsg) (s : State), s.fib.rxMsgs = m :: l → s.fib.accepted = none →
    actsRun s = true →
    exec .stationMessage s = .next (judgeMessage m (recordMessage m (checkMic m
      (bump (ck 166 0 m.ch) 1 { s with fib := { s.fib with rxMsgs := l } })))))
  ∧ (∀ (m : RxMsg) (s : State), s.fib.accepted = some m →
    let t : State := { s with fib := { s.fib with accepted := none } }
    (m.typ = 1 → exec .profile s = .next (applyProfile m t))
    ∧ (m.typ = 2 → exec .rangingParams s = .next (applyParams m t))
    ∧ (m.typ = 3 → exec .assignStation s = .next (applyAssign m t))
    ∧ (m.typ = 4 → exec .rangingTime s = .next (applyRanging m t))
    ∧ (m.typ = 5 → exec .deactivate s = .next (applyDeactivate m t))
    ∧ (m.typ = 6 → exec .silence s = .next (applySilence m t))
    ∧ (m.typ = 7 → exec .allocation s = .next (applyAllocation m t))
    ∧ (m.typ = 8 → exec .heKey s = .next (applyHeKey m t))
    ∧ (m.typ = 9 → exec .keySwitch s = .next (applyKeySwitch m t))
    ∧ (m.typ = 10 → exec .dozeReply s = .next (applyDozeReply m t))
    ∧ (m.typ = 11 → exec .dozeEnd s = .next (applyDozeEnd m t)))

/-- The activation timers and consequent actions (R39, R94, R133, R153 to R161): each has its effect when its
instant has come and no received message waits to be processed. It states that these rows complete:
registrationTimeout, epochSwitchApply, epochRetire, rangingTimerExpiry, f6TimerExpiry, rekeyInterval,
consequentAction, channelRestore. -/
def Obligations.ActivationTimersAct : Prop :=
  (∀ (g : Fin 4) (s : State) (at_ : Nat), (groupOf s g).segFirst = some at_ → actsRun s = true →
    processing s = false →
    exec (.registrationTimeout g) s = .next (abandonReg g (groupOf s g).segCh (groupOf s g).segSeq 1
      (passTo (at_ + ms 1000) s)))
  ∧ (∀ (g : Fin 4) (s : State) (w : EpochSwitch) (c : Nat), (groupOf s g).switch = some w → w.applied = false →
    reached s g w.sfc = some c →
    exec (.epochSwitchApply g) s = .next (applySwitch g w (passFrame c w.sfc s)))
  ∧ (∀ (g : Nat) (s : State) (w : EpochSwitch), sameIndex (groupOf s g) w = false → w.fromPending = false →
    applySwitch g w s = raise 0x0207 false g (leBytes 4 w.epoch ++ leBytes 8 w.sfc)
      (bump (ck 166 32 0) 1 (modGroup g (fun x => { x with
        upIndex := BitVec.ofNat 2 (epochIndex w.epoch), epoch := w.epoch, keyReqAt := s.now
        switch := some { w with applied := true } }) s)))
  ∧ (∀ (g : Fin 4) (s : State) (w : EpochSwitch) (c : Nat), (groupOf s g).switch = some w → w.applied = true →
    reached s g (w.sfc + 800) = some c →
    exec (.epochRetire g) s = .next (retireEpoch g w (passFrame c (w.sfc + 800) s)))
  ∧ (∀ (g : Fin 4) (s : State), s.fib.policy.rekeyS ≠ 0 → (groupOf s g).curRoot = true → actsRun s = true →
    let t := passTo ((groupOf s g).keyReqAt + ms (1000 * s.fib.policy.rekeyS)) s
    exec (.rekeyInterval g) s
      = .next (requestKey g 1 (modGroup g (fun x => { x with keyReqAt := t.now }) t)))
  ∧ (∀ (ch : Fin 4) (s : State), ((actOf s ch).act = .f3 ∨ (actOf s ch).act = .f4) → actsRun s = true →
    processing s = false → exec (.rangingTimerExpiry ch) s
      = .next (moveAct ch .f2 8 loseStation (passSince (actOf s ch).rangingEnd 0 s)))
  ∧ (∀ (ch : Fin 4) (s : State), (actOf s ch).act = .f6 → actsRun s = true → processing s = false →
    exec (.f6TimerExpiry ch) s = .next (moveAct ch .f1 14 loseStation (passSince (actOf s ch).f6End 0 s)))
  ∧ (∀ (ch : Fin 4) (g : Trigger) (s : State) (at_ : Nat),
    tget none s.fib.trigSince (ch * 8 + trigRow g) = some at_ → actionable s ch = true →
    let t := waitExit ch (passTo (at_ + ms (tget 0 s.fib.policy.holdoff (trigRow g))) s)
    (t.pow.state ≠ .d2 → exec (.consequentAction ch g) s = .next (applyAction ch g t))
    ∧ (t.pow.state = .d2 → t.pow.phase = .idle → t.fib.doze.ch = ch.val →
      exec (.consequentAction ch g) s = .next (startExit t)))
  ∧ (∀ (ch : Fin 4) (s : State) (g : Trigger) (at_ : Nat), (actOf s ch).withdrawn = some g →
    tget none s.fib.clearSince ch = some at_ → actsRun s = true → (actOf s ch).act = .f5 →
    canJoin s ch = true →
    exec (.channelRestore ch) s = .next (restoreChannel ch g (passTo (at_ + ms s.fib.policy.restoreMs) s)))

/-- The upstream side (R113 to R130): a staged packet leaves its queue in the order of its list, is stamped and
charged to its shapers; every grant due before the channel's next is committed, in the order of the instants, and
then that one; a burst is launched at its instant and ends at its last bit, where it is on the wire and counted. It
states that these rows complete: stagingAdmit, sectionCommit, burstLaunch, burstEnd. -/
def Obligations.UpstreamMoves : Prop :=
  (∀ (i : Nat) (a : Alloc) (k : Picked) (e : ListEntry) (c : Copy) (s : State),
    allocOf s i = some a → stagingOpen s a = true →
    let s1 := forEach (a.list.map (fun e => 128 + e.queue)) dropLate s
    pickEntry s1 a = some k → a.list[k.pos]? = some e → stagingHead s1 a k.pos = some c →
    let q := 128 + e.queue
    let s2 := modAlloc i (fun a => { a with turn := k.turn, deficits := k.deficits })
      (leaveQueue q c (popQueue q s1))
    exec (.stagingAdmit i) s = .next (stage i e.queue c.pkt (chargeShapers q
      (c.pkt.frame.length + 16 * b2n (tget {} s.up.queues e.queue).keyed)
      (stampAt c.pkt 7 9 q (returnCells c s2)))))
  ∧ (∀ (ch : Fin 4) (s : State), (nextCommit s ch).isSome = true →
    exec (.sectionCommit ch) s = .next (commitInOrder ch (waitingGrants s) s))
  ∧ (∀ (ch n due : Nat) (s : State), firstCommit s = some (ch, due) →
    commitInOrder ch (n + 1) s = commitOne ch s)
  ∧ (∀ (ch c n due : Nat) (s : State), firstCommit s = some (c, due) → c ≠ ch →
    commitInOrder ch (n + 1) s = commitInOrder ch n (commitOne c s))
  ∧ (∀ (ch : Fin 4) (b : Burst) (s : State), nextLaunch s ch = some b →
    exec (.burstLaunch ch) s = .next (launchBurst ch b s))
  ∧ (∀ (ch : Fin 4) (b : Burst) (s : State), nextEnd s ch = some b →
    exec (.burstEnd ch) s = .next (endBurst ch b
      ((b.sections.flatMap (·.frames)).foldl (fun s p => stampAt p 9 (4 + ch.val) ch s)
        (passTo (bitsPs b.endBit) s))))

/-- The packet pipeline (R26, R168 to R231, R226, R240, R253): the next packet of a slice takes one pass and is
acted on, and a slice that is off is woken; a decided packet is metered, slice 0 first at one instant, copied and
each copy offered to its queue; in a state that runs no traffic what stands in the slices and the traffic manager is
discarded with its reason. It states that these rows complete: pipelinePass, enqueue. -/
def Obligations.PipelineDecides : Prop :=
  (∀ (k : Fin 2) (r : List (Nat × EccVerdict)) (p : Pkt) (s t : State), sliceRuns s k = true →
    nextPacket k s = (some p, t) →
    (inService t = false → exec (.pipelinePass k r) s = .next (discardInSlice p t))
    ∧ (inService t = true →
      let b := beginPass k p t
      let d := decidePass k b.1 r (stampAt b.1 3 (sliceIsland k 0) b.1.pass (touchSlice k b.2))
      let u := stampAt d.1.pkt 4 (sliceIsland k 2) d.1.kind d.2
      exec (.pipelinePass k r) s = .next (actOn d.1 (countAction d.1 (samplePass k d.1 u)))))
  ∧ (∀ (k : Fin 2) (r : List (Nat × EccVerdict)) (s : State), sliceRuns s k = false →
    exec (.pipelinePass k r) s = .next (wantAll (sliceDomains k) s))
  ∧ (∀ (d : Decided) (l : List Decided) (s : State), nextDecided s.cls.decided = some (d, l) →
    let t := takePacket (linkNo 8 d.pkt.slice) 1 d.pkt.cport d.pkt.booked { s with cls := { s.cls with decided := l } }
    let m := meterPacket d.pkt t
    (inService t = true → m.2.1 = true → exec .enqueue s = .next (dropPacket 0x40 m.1 m.2.2))
    ∧ (inService t = true → m.2.1 = false →
      let ds := d.dests.map (fun e => (distribute m.2.2 m.1 e.1, e.2))
      let u := forEach ((ds.drop 1).map (·.1)) (fun _ s => book .repl m.1.cport m.1.booked s)
        (noteCopies m.1 (ds.length - 1) (addRefs m.1.fid (ds.length - 1) m.2.2))
      exec .enqueue s = .next ((copiesOf m.1 ds).foldl (fun s e => enqueueCopy e.1 e.2 s) u)))
  ∧ (∀ (d : Decided) (l : List Decided), d.pkt.slice = 0 → nextDecided (d :: l) = some (d, l))
  ∧ (∀ (d e f : Decided) (l m : List Decided), nextDecided (d :: l) = some (f, m) → e ∈ l →
    e.pkt.slice = 0 → e.at_ = d.at_ → f.pkt.slice = 0)

/-- The engines over the tables (R194, R216, R221, R223, R224): a draining version with no packet left retires with
its event; an aging visit counts an entry down and removes it at 0; a learning candidate is settled by a second
look-up, written, or passed to Knarrasar. It states that these rows complete: learnCandidate, learnCompletion,
agingVisit, rulesRetire. -/
def Obligations.TableEnginesRun : Prop :=
  (∀ (k : Nat) (s : State), tagIn s .draining = some k → tget 0 s.cls.refs k = 0 →
    tget 0 s.cls.refs (8 + k) = 0 →
    let freed := s.cls.rules.countP (fun e => match e.2 with
      | some r => withTag k false r == 0
      | none => false)
    exec .rulesRetire s = .next (raise 0x0301 false k (leBytes 4 freed)
      (mapVersions (withTag k false) (setTag k .free (endRules k s)))))
  ∧ (∀ (w : Fin 4) (i : Nat) (e : EmEntry) (s : State), servicesRun s = true → i < 131072 →
    emAt s (w.val * 131072 + i) = some e →
    let t := passSince e.visited (ms (1000 * s.tab.agingS)) s
    (e.static = true → exec (.agingVisit w i) s = .next t)
    ∧ (e.static = false → e.age = 0 → exec (.agingVisit w i) s = .next (ageOut (w.val * 131072 + i) e t))
    ∧ (e.static = false → e.age ≠ 0 → exec (.agingVisit w i) s
      = .next (setEm (w.val * 131072 + i) (some { e with age := e.age - 1, visited := some t.now }) t)))
  ∧ (∀ (w : Fin 4) (i : Nat) (s : State),
    (servicesRun s = false ∨ 131072 ≤ i ∨ emAt s (w.val * 131072 + i) = none) →
    exec (.agingVisit w i) s = .next s)
  ∧ (∀ (c : Candidate) (l : List Candidate) (s t : State), s.tab.pending = c :: l →
    let u : State := { s with tab := { s.tab with pending := l } }
    (settleCandidate c u = some t → exec .learnCandidate s = .next t)
    ∧ (settleCandidate c u = none → writeLearned c false u = some t → exec .learnCandidate s = .next t)
    ∧ (settleCandidate c u = none → writeLearned c false u = none →
      exec .learnCandidate s = .next (passCandidate c u)))
  ∧ (∀ (c : Candidate) (l : List Candidate) (s t : State), s.tab.learnQueue = c :: l → servicesRun s = true →
    let u : State := { s with tab := { s.tab with learnQueue := l } }
    (settleCandidate c u = some t → exec .learnCompletion s = .next t)
    ∧ (settleCandidate c u = none → writeLearned c true u = some t → exec .learnCompletion s = .next t)
    ∧ (settleCandidate c u = none → writeLearned c true u = none →
      exec .learnCompletion s = .next (countNoRoom u)))

/-- The traffic manager's timers (R196, R245, R248, R257, R258, R261, R262): one flow control frame refreshes every
account whose XOFF is due; the oldest spilled copy of a queue is read back. It states that these rows complete:
pauseTimerExpiry, xoffRefresh, sojournCheck, spillReadback, shaperRefill. -/
def Obligations.TrafficTimersAct : Prop :=
  (∀ s : State,
    let t := passTo ((s.now / 512000 + 1) * 512000) s
    exec .shaperRefill s = .next (forEach (t.tm.shapers.map (·.1))
      (fun n s => setShaper n (refillShaper (shaperOf s n)) s) t))
  ∧ (∀ (p : Fin 16) (c : Fin 8) (s : State), (pauseOf s p).mode ≠ .off →
    bit (pauseOf s p).xoff.toNat c = true → portOpen s p = true →
    let x := pauseOf s p
    let half := pausePs s p x.quanta / 2
    let t := passTo (tget 0 x.sentAt c + half) s
    let due := (setBits 8 x.xoff.toNat).filter (fun k => k == c.val || decide (tget 0 x.sentAt k + half ≤ t.now))
    exec (.xoffRefresh p c) s = .next (sendFlow p due x.quanta (bump (ck 271 16 p) 1
      (modPause p (fun x => { x with sentAt := due.foldl (fun u k => tset 0 u k t.now) x.sentAt }) t))))
  ∧ (∀ (p : Fin 16) (c : Fin 8) (s : State), ((pauseOf s p).mode = .off ∨ bit (pauseOf s p).xoff.toNat c = false
      ∨ portOpen s p = false) → exec (.xoffRefresh p c) s = .next s)
  ∧ (∀ (p : Fin 16) (e : Nat × Nat) (l : List (Nat × Nat)) (s : State), (pauseOf s p).until_ = e :: l →
    exec (.pauseTimerExpiry p) s = .next (forEach (List.range 8) (fun c s =>
      if tget 0 (pauseOf s p).until_ c ≠ 0 ∧ tget 0 (pauseOf s p).until_ c ≤ s.now then reloadPause p c 0 s
      else s) (passTo (l.foldl (fun m f => min m f.2) e.2) s)))
  ∧ (∀ (q : Nat) (c : Copy) (l : List Copy) (s : State), (q < 648 ∨ 656 ≤ q) → overSojourn s q c = true →
    (queueOf s q).pkts = c :: l → exec (.sojournCheck q) s = .next (dropResident q 0x45 c (modQueue q
      (fun x => { x with pkts := l, hold := none, deficit := if l.isEmpty then 0 else x.deficit }) s)))
  ∧ (∀ (q : Nat) (c d : Copy) (l m : List Copy) (s : State), 648 ≤ q → q < 656 →
    firstOf (sliceOwns q 0) (queueOf s q).pkts = some (c, l) → overSojourn s q c = false →
    firstOf (sliceOwns q 1) (queueOf s q).pkts = some (d, m) → overSojourn s q d = true →
    exec (.sojournCheck q) s = .next (dropResident q 0x45 d (modQueue q
      (fun x => { x with pkts := m, hold := none, deficit := if m.isEmpty then 0 else x.deficit }) s)))
  ∧ (∀ (q : Nat) (front rest : List Copy) (c : Copy) (s : State),
    readBack s (queueOf s q).pkts = some (front, c, rest) →
    let d : Copy := { c with spilled := false, prefetched := true, pkt := { c.pkt with fid := s.tm.nextFid } }
    let t := ownEvent 22 3 c.cells (crossCells (linkNo 15 1) (cellEntries c.cells) c.cells s)
    exec (.spillReadback q) s = .next (modQueue q (fun x => { x with pkts := front ++ d :: rest })
      { t with tm := { t.tm with
        free := s.tm.free - c.cells, spillFree := s.tm.spillFree + c.cells, nextFid := s.tm.nextFid + 1
        refs := tset {} s.tm.refs s.tm.nextFid { copies := 1, cells := c.cells } } }))

/-- Time-gated transmission (R265 to R267, R308, R461): the gates follow the list in force at each boundary, once
the replica of their island is aligned; a pending list takes effect at its instant and restarts the hold times; a
frame held for a whole cycle is dropped as GATE_HOLD, and the next head is tested. It states that these rows
complete: gateChange, gateListSwitch, gateHoldTest. -/
def Obligations.GatesFollowLists : Prop :=
  (∀ (x : Word16) (g : GateList) (s : State), (gateOf s x.toNat).active = some g →
    let u := awaitReplica x.toNat s
    let t := match nextBoundary g (nowNs u) with
      | some i => passMain (i * fracNs) u
      | none => u
    exec (.gateChange x) s = .next (modGate x.toNat (fun y => { y with gates := liveGates t x.toNat y }) t))
  ∧ (∀ (x : Word16) (l : Option GateList) (at_ : Nat) (s : State), (gateOf s x.toNat).pending = some (l, at_) →
    gateTargetLive s x.toNat = true →
    let u := passMain (at_ * fracNs) (awaitReplica x.toNat s)
    let t := modGate x.toNat (fun y =>
      { y with
        active := l, pending := none
        gates := liveGates u x.toNat { y with active := l, pending := none } }) u
    (bit x.toNat 15 = true → exec (.gateListSwitch x) s = .next t)
    ∧ (bit x.toNat 15 = false → exec (.gateListSwitch x) s
      = .next (forEach ((List.range 8).map (8 * (x.toNat % 16) + ·)) (fun q s =>
          modQueue q (fun y => { y with hold := y.hold.map (fun _ => s.now) }) s)
        (bump (ck 271 49 (x.toNat % 16)) 1 t))))
  ∧ (∀ (q h cyc : Nat) (c : Copy) (l : List Copy) (s : State), q < 128 → (queueOf s q).hold = some h →
    holdCycle s q = some cyc → windowOpen s (gateOf s (q / 8)) (q % 8) = none →
    let t := passTo (h + cyc * 1000) s
    h + cyc * 1000 ≤ t.now → (queueOf t q).pkts = c :: l →
    exec (.gateHoldTest q) s
      = .next (testHead q (bump (ck 271 (41 + q % 8) (q / 8)) 1 (dropResident q 0x44 c (popQueue q t)))))
  ∧ (∀ (q h cyc i : Nat) (s : State), (queueOf s q).hold = some h → holdCycle s q = some cyc →
    windowOpen s (gateOf s (q / 8)) (q % 8) = some i →
    s.now + (i - nowNs s) * 1000 < h + cyc * 1000 →
    (passMain (i * fracNs) s).now < h + cyc * 1000 →
    exec (.gateHoldTest q) s = .next (passMain (i * fracNs) s))

/-- Transmission on a client port (R36, R243, R246, R249, R263, R358, R362, R441): once the port has left LPI, a
frame of Knarrasar's own goes first unless class 7 is paused, else the scheduler picks; in SAFE what waits is
discarded; the last byte completes a good frame and stomps a bad one. It states that these rows complete:
transmitStart, egressFrameEnd. -/
def Obligations.PortsTransmit : Prop :=
  (∀ (p : Fin 16) (s : State), s.dev.state = .safe → exec (.transmitStart p) s
    = .next (forEach ((List.range 8).map (8 * p.val + ·)) (flushQueue 0x72) s))
  ∧ (∀ (p : Fin 16) (s : State), s.dev.state ≠ .safe → mayStart s p = true →
    let t := passTo (portOf s p).readyAt s
    ((portOf t p).inject = [] → exec (.transmitStart p) s = .next (startNextFrame p t))
    ∧ (∀ f l, (portOf t p).inject = f :: l →
      (paused t p 7 = true → exec (.transmitStart p) s = .next (startNextFrame p t))
      ∧ (paused t p 7 = false → exec (.transmitStart p) s
        = .next (sendOwn p f (modPort p (fun x => { x with inject := l }) t)))))
  ∧ (∀ (p : Fin 16) (bad : Bool) (l : Leaving) (s : State), tget none s.tm.leaving p = some l →
    l.waiting = false →
    let t : State := { s with tm := { s.tm with leaving := tset none s.tm.leaving p none } }
    ((bad || l.copy.pkt.bad) = true →
      exec (.egressFrameEnd p bad) s = .next (noteIdle p (stompLeaving p 0x4A l t)))
    ∧ ((bad || l.copy.pkt.bad) = false → l.copy.pkt.badFcs = true →
      exec (.egressFrameEnd p bad) s = .next (noteIdle p (stompLeaving p 0x01 l t)))
    ∧ ((bad || l.copy.pkt.bad) = false → l.copy.pkt.badFcs = false →
      exec (.egressFrameEnd p bad) s = .next (loopBack p l.bytes (noteIdle p (completeLeaving p l t)))))

/-- The cipher complex (R26, R277 to R289, R293, R298, R300): the oldest request of a source joins the pipeline with
the fewest queued bytes, wakes its domain, or fails at once after an erasure; a ready line request starts first and
suspends a bulk one; a result ends its request; derivations enter a cache of 512; sources over the threshold raise
their alarm event once a second. It states that these rows complete: cipherRequest, keyDerivationDone,
pipelineStart, bulkShare, cipherResult, tagFailureCheck. -/
def Obligations.CipherRequestsMove : Prop :=
  (∀ (src : Fin 11) (r : CipherReq) (l : List CipherReq) (p : Nat) (s : State),
    tget [] s.cip.waiting src = r :: l → leastLoaded s (pipesOf src) = some p →
    (complexErased s = true → exec (.cipherRequest src) s
      = .next (finishRequest { req := r, status := 4, bytes := [], pipe := p, taken := false }
        (popRequest src s)))
    ∧ (complexErased s = false → domainOn s (engineDomain p) = false →
      exec (.cipherRequest src) s = .next (want (engineDomain p) s))
    ∧ (complexErased s = false → requestFits s p r = true → domainOn s (engineDomain p) = true →
      exec (.cipherRequest src) s = .next (joinPipe p r (popRequest src s))))
  ∧ (∀ (k : Nat × Nat) (l : List (Nat × Nat)) (s : State), s.cip.derivations = k :: l →
    let t := bump (ck 305 33 0) 1 { s with cip := { s.cip with derivations := l } }
    (derivedEntry s k = none →
      exec .keyDerivationDone s = .next (forEach (List.range 16) lookAhead t))
    ∧ (∀ e, derivedEntry s k = some e →
      exec .keyDerivationDone s = .next (forEach (List.range 16) lookAhead (fillCache e t))))
  ∧ (∀ (e : KeyEntry) (s : State), (fillCache e s).cip.cache = (e :: s.cip.cache).take 512
    ∧ (fillCache e s).count (ck 305 32 0) = s.count (ck 305 32 0) + b2n (decide (512 ≤ s.cip.cache.length)))
  ∧ (∀ (p : Fin 16) (q : CipherReq) (s : State), complexErased s = false → engineRuns p s = true →
    readyLine s p = some q →
    ((pipeOf s p).running = none → exec (.pipelineStart p) s = .next (startRequest p q s))
    ∧ (∀ r, (pipeOf s p).running = some r → r.req.bulk = true →
      exec (.pipelineStart p) s = .next (startRequest p q (suspendBulk p r s))))
  ∧ (∀ (p : Fin 16) (s : State), complexErased s = false → engineRuns p s = true → readyLine s p = none →
    (pipeOf s p).running = none →
    (∀ r, (pipeOf s p).suspended = some r → exec (.pipelineStart p) s = .next (resumeBulk p r s))
    ∧ (∀ q, (pipeOf s p).suspended = none → readyBulk s p = some q →
      exec (.pipelineStart p) s = .next (startRequest p q s)))
  ∧ (∀ (p : Fin 16) (r : Result) (at_ : Nat) (s : State), (pipeOf s p).running = none →
    (pipeOf s p).share = false → (pipeOf s p).bulkWait = some at_ → (pipeOf s p).suspended = some r →
    engineRuns p s = true → exec (.bulkShare p) s = .next (bump (ck 305 29 p) 1 (modPipe p (fun x => { x with share := true })
      (passTo (at_ + us 20) s))))
  ∧ (∀ (p : Fin 16) (at_ : Nat) (s : State), (pipeOf s p).running = none → (pipeOf s p).share = false →
    (pipeOf s p).bulkWait = some at_ → (pipeOf s p).suspended = none → engineRuns p s = true →
    let t := bump (ck 305 29 p) 1 (modPipe p (fun x => { x with share := true }) (passTo (at_ + us 20) s))
    (readyBulk s p = none → exec (.bulkShare p) s = .next (lookAhead p s))
    ∧ (∀ q : CipherReq, (readyBulk s p).isSome = true → readyBulk t p = some q →
      let e := enterPipe p q t
      exec (.bulkShare p) s = .next (modPipe p (fun x => { x with
        suspended := some e.1, saved := some (savedAt e.2 q 0) }) e.2)))
  ∧ (∀ (p : Fin 16) (r : Result) (s : State), (pipeOf s p).running = some r → engineRuns p s = true →
    let t := modPipe p (fun x => { x with running := none }) s
    exec (.cipherResult p) s = .next (endRequest r (if r.req.bulk then endBulk p t else t)))
  ∧ (∀ (p : Fin 16) (r : Result) (s : State), (pipeOf s p).running = none → (pipeOf s p).suspended = some r →
    (pipeOf s p).share = true → engineRuns p s = true →
    exec (.cipherResult p) s
      = .next (endRequest r (endBulk p (modPipe p (fun x => { x with suspended := none, saved := none }) s))))
  ∧ (∀ s : State, afterLoading s = true →
    let u := passTo (s.cip.failuresAt + us 1000000) s
    exec .tagFailureCheck s = .next (forEach
      ((List.range 11).filter (fun i => decide (s.cip.threshold < tget 0 s.cip.failures i)))
      (fun i t => raise 0x0602 false i (leBytes 4 (min 0xFFFFFFFF (tget 0 s.cip.failures i))) t)
      { u with cip := { u.cip with failures := [], failuresAt := u.now } }))

/-- The time servos (R312 to R319, R323 to R327, R336, R342): a sample drives its servo, a domain without one for
HOLD_S goes to HOLDOVER, a slew ends when the difference is absorbed, fibre time-of-day fields and the asymmetry
estimate feed domain A, and the reference's qualification is reported. It states that these rows complete:
referenceInputChange, todFieldSample, asymmetryEstimate, servoSample, domainHoldover, slewEnd. -/
def Obligations.ServosAct : Prop :=
  (∀ s : State, s.time.slewing = true → s.time.sleep = none →
    let per : Nat := s.time.slewPpm * 4 * 2 ^ 40 / 5000000
    exec .slewEnd s = .next (endSlew (ticks
      (((shadowDelta s (selected s)).natAbs + 5 * per - 1) / (5 * per)) s)))
  ∧ (∀ (d : TimeDomain) (s : State), ((servoOf s d).state = .acquiring ∨ (servoOf s d).state = .locked) →
    s.time.sleep = none →
    exec (.domainHoldover d) s
      = .next (toHoldover .noSample d (passSince (servoOf s d).lastAt (ms (1000 * (servoOf s d).holdS)) s)))
  ∧ (∀ (d : TimeDomain) (e : Int) (age : Nat) (s : State),
    ((servoOf s d).pending = none → exec (.servoSample d e age) s = .next s)
    ∧ (∀ v at_, (servoOf s d).pending = some (v, at_) → exec (.servoSample d e age) s
      = .next (servoStep d v ((s.now - at_) / 1000)
        (modServo d (fun x => { x with pending := none }) s))))
  ∧ (∀ (k : Nat) (r : Nat × Capture) (l : List (Nat × Capture)) (s : State),
    latestChannels s s.time.fibre.sampledOf = (some k, r :: l) → s.time.fibre.sampled ≠ some k →
    let off : Nat × Capture → Int := fun e =>
      arrivalOff s e.1 e.2 - (roundTrip s e.1 + asymOf s.time.fibre (fibreDelayOf s e.1)) / 2
    let t := modServo .a (fun x => { x with pending := some (meanInt ((r :: l).map off) / 1000,
      s.now - (s.time.a.shadow.stamp - r.2.tc) * 1000 / 65536) }) s
    exec .todFieldSample s = .next (forEach ((r :: l).map (·.1)) (fun c s => bump (ck 344 15 c) 1 s)
      { t with time := { t.time with fibre := { t.time.fibre with
        sampled := some k, sampledOf := heldFields s } } }))
  ∧ (∀ s : State, afterLoading s = true →
    let t := passTo (s.time.fibre.estimatedAt + ms 1000) s
    (newChannels t).2.length < 2 →
    ∃ u, exec .asymmetryEstimate s = .next u
      ∧ u.time.fibre.estimated = ((newChannels t).1 <|> s.time.fibre.estimated)
      ∧ u.time.fibre.single = true ∧ u.time.fibre.pHat = s.time.fibre.pHat
      ∧ u.time.fibre.validity = (if s.time.fibre.validity = 0 then 0 else 2)
      ∧ u.time.fibre.history.length ≤ 16 ∧ u.hif = s.hif
      ∧ u.count (ck 344 17 0) = s.count (ck 344 17 0) + b2n (s.time.fibre.validity != 0))
  ∧ (∀ s : State, afterLoading s = true →
    let t := passTo (s.time.fibre.estimatedAt + ms 1000) s
    let l := (newChannels t).2
    let sums := estimateSums ((l.map (chanSecond t) :: t.time.fibre.history).take 16) (l.map (·.1))
    2 ≤ l.length → 4000000000000000000 ≤ sums.2 →
    ∃ u, exec .asymmetryEstimate s = .next u ∧ u.time.fibre.validity = 1 ∧ u.time.fibre.single = false
      ∧ u.time.fibre.pHat = sums.1 * 1000000000 / sums.2 ∧ u.hif = s.hif
      ∧ u.count (ck 344 16 0) = s.count (ck 344 16 0) + 1)
  ∧ (∀ s : State, s.time.refOk = false →
    exec (.referenceInputChange true) s = .next (raise 0x0707 false 0xFF (leBytes 1 1)
      (bump (ck 344 22 0) 1 { s with time := { s.time with refOk := true } })))
  ∧ (∀ s : State, s.time.refOk = true →
    let t := sleepOnOscillator s
    exec (.referenceInputChange false) s = .next (raise 0x0707 false 0xFF (leBytes 1 0)
      (bump (ck 344 23 0) 1 { t with time := { t.time with refOk := false } })))

/-- Time inputs and outputs (R310, R328 to R340, R473, R546, R547, R626): the snapshot latches one moment; PPS_OUT
and TOD_OUT follow the main counter; a pulse too narrow, or a message framed badly, is ignored and counted; an edge
in its window waits for its message, and the message makes the sample of domain B; timestamps waiting for the host
are delivered. It states that these rows complete: timeSnap, ppsInEdge, todInMessage, ppsOutEdge, todOutMessage,
timestampDrain. -/
def Obligations.TimeInputsAndOutputs : Prop :=
  (∀ (v : Word32) (s : State), v.getLsbD 0 = true → s.dev.ready = true →
    exec (.timeSnap v) s = .next { s with hif := { s.hif with snap := {
      seq := s.hif.snap.seq + 1, valid := true, status := BitVec.ofNat 9 (snapStatus s)
      main := BitVec.ofNat 96 (timeWord s), ts32 := BitVec.ofNat 32 (ts32 s)
      shadowA := BitVec.ofNat 96 (shadowNow s .a), shadowB := BitVec.ofNat 96 (shadowNow s .b)
      bound := BitVec.ofNat 32 (snapBound s) } } })
  ∧ (∀ (v : Word32) (s : State), v.getLsbD 0 = false → exec (.timeSnap v) s = .next s)
  ∧ (∀ s : State, s.time.ppsEnable = true → s.time.ppsHeld = false → s.time.sleep = none →
    let t := passTo s.time.ppsFall s
    let k := nextPps t.time
    let u := passMain ((k * secUnits : Nat) + nsUnits s.time.ppsOffset).toNat t
    exec .ppsOutEdge s = .next (emit (.pps s.time.ppsWidth) { u with time := { u.time with
      lastPps := some k, todDue := some (k, u.now), ppsFall := u.now + 1000 * s.time.ppsWidth } }))
  ∧ (∀ (k at_ : Nat) (s : State), s.time.todDue = some (k, at_) → s.time.sleep = none →
    let t := passTo (at_ + ms 100) s
    exec .todOutMessage s = .next (emit (.tod (todMessage t k)) { t with
      fresh := t.fresh + 1, time := { t.time with todDue := none } }))
  ∧ (∀ (w : Nat) (s : State), w < 100000 → exec (.ppsInEdge w) s = .next (bump (ck 546 5 0) 1 s))
  ∧ (∀ (w : Nat) (s : State), 100000 ≤ w → s.time.edgeAt = none → s.time.lastEdge = none →
    let t := passTo (s.now + 5000) s
    let edge := t.time.b.shadow.add (-nsUnits 5)
    exec (.ppsInEdge w) s = .next (bump (ck 344 18 0) 1 { t with time := { t.time with
      lastEdge := some edge, edgeAt := some (edge, t.now - 5000) } }))
  ∧ (∀ (w : Nat) (b : Beryl) (s : State), 100000 ≤ w → s.time.edgeAt = none → s.time.lastEdge = some b →
    let t := passTo (s.now + 5000) s
    100000 * fracNs < (((t.time.b.shadow.add (-nsUnits 5)).total : Int) - b.total - secUnits).natAbs →
    exec (.ppsInEdge w) s = .next (bump (ck 344 20 0) 1 { t with time := { t.time with edgeAt := none } }))
  ∧ (∀ (m : Bytes) (s : State), exec (.todInMessage m false) s = .next (bump (ck 547 16 0) 1 s))
  ∧ (∀ (m : Bytes) (edge : Beryl) (at_ : Nat) (s : State), todCrc m = be m 14 2 →
    s.time.edgeAt = some (edge, at_) → todShape m = true → s.now ≤ at_ + ms 900 →
    let e := ((edge.total : Int) - nsUnits s.time.ppsInDelay - (be m 4 6 * secUnits : Nat)) / (5 * 2 ^ 24)
    let t : State := { s with time := { s.time with edgeAt := none } }
    exec (.todInMessage m true) s = .next (if s.time.sourceB == .pps then
        modServo .b (fun x => { x with pending := some (e, at_) }) t
      else t))
  ∧ (∀ (m : Bytes) (s : State), todCrc m ≠ be m 14 2 →
    exec (.todInMessage m true) s = .next (bump (ck 344 21 0) 1 s))
  ∧ (∀ (p : Fin 16) (s : State), servicesRun s = true →
    exec (.timestampDrain p) s = .next ((tget [] s.time.lostTags p).foldl (fun s e => deliverLost p e s)
      ((tget [] s.time.txStamps p).foldl (fun s e => deliverStamp p e s) { s with time := { s.time with
        txStamps := tset [] s.time.txStamps p [], lostTags := tset [] s.time.lostTags p [] } })))

/-- The links of the ports and of the management lane (R241, R350, R351, R361, R362, R368, R369, R371, R387): a port
sends remote fault from the moment its own local fault begins, and a KR port negotiates again 500 ms after its last
start or the loss of its link. It states that these rows complete: linkUp, linkDown, anRestart, lpiEntry,
linkConditionChange, autoNegotiationComplete, mgmtSynchronisationChange, receiveLpi. -/
def Obligations.LinksChange : Prop :=
  (∀ (p : Fin 16) (al fec lf rf : Bool) (s : State), (portOf s p).mode ≠ 0 →
    let x := portOf s p
    let t := noteLink p (modPort p (fun x => { x with
        aligned := al, fecLock := fec, localFault := lf, remoteFault := rf })
      (bump (ck 369 45 p) (b2n (rf && !x.remoteFault)) (bump (ck 369 44 p) (b2n (lf && !x.localFault))
        (bump (ck 369 53 p) (b2n (x.aligned && !al)) s))))
    let u := syncFaults t
    exec (.linkConditionChange p al fec lf rf) s
      = .next (if (portOf u p).link && !linkGood (portOf u p) && (portOf u p).downHold == 0 then
          linkGoesDown p (failCause u p) u
        else u))
  ∧ (∀ (p : Fin 16) (at_ : Nat) (s : State), (portOf s p).link = false → linkGood (portOf s p) = true →
    portRuns s p = true → portsSend s = true → (portOf s p).goodSince = some at_ →
    exec (.linkUp p) s = .next (reportLink p 0 true (passTo (at_ + ms 10) s)))
  ∧ (∀ (p : Fin 16) (at_ : Nat) (s : State), (portOf s p).link = true → linkGood (portOf s p) = false →
    (portOf s p).badSince = some at_ →
    exec (.linkDown p) s
      = .next (linkGoesDown p (failCause s p) (passTo (at_ + ms (10 * (portOf s p).downHold)) s)))
  ∧ (∀ (p : Fin 16) (s : State), (portOf s p).kr = true → portRuns s p = true → (portOf s p).link = false →
    ((portOf s p).anFailed = true → exec (.anRestart p true) s
      = .next (noteLink p (startTraining p (bump (ck 369 58 p) 1 s))))
    ∧ exec (.anRestart p false) s = .next (noteLink p (startTraining p (bump (ck 369 58 p) 1
      (passTo (max (portOf s p).linkAt (portOf s p).anAt + ms 500) s)))))
  ∧ (∀ (p : Fin 16) (fec pre : Bool) (s : State), (portOf s p).kr = true → portRuns s p = true →
    (portOf s p).anDone = false → ((portOf s p).mode = 1 → fec = true) →
    exec (.autoNegotiationComplete p fec true pre) s = .next (noteLink p (modPort p (fun x => { x with
      anDone := true, anFailed := false, precode := pre && mayPrecode x }) (bump (ck 369 59 p) 1 s))))
  ∧ (∀ (p : Fin 16) (fec tr pre : Bool) (s : State), (portOf s p).kr = true → portRuns s p = true →
    (portOf s p).anDone = false →
    ((portOf s p).mode = 1 → fec = false → exec (.autoNegotiationComplete p fec tr pre) s
      = .next (bump (ck 369 60 p) 1 (modPort p (fun x => { x with anFailed := true }) s)))
    ∧ (((portOf s p).mode = 1 → fec = true) → tr = false → exec (.autoNegotiationComplete p fec tr pre) s
      = .next (bump (ck 369 61 p) 1 s)))
  ∧ (∀ (p : Fin 16) (s : State), (portOf s p).txLpi = false → mayIdle s p = true →
    let t := passSince (portOf s p).idleSince (us (portOf s p).lpiIdle) s
    exec (.lpiEntry p) s = .next (onWire p (.lpi p) (bump (ck 369 62 p) 1 (modPort p (fun x => { x with
      txLpi := true, lpiAt := t.now }) t))))
  ∧ (∀ (l : Fin 16) (p : Nat) (s : State), armed (laneOf s l) = true → ownerOf s l = some p →
    exec (.receiveLpi l .overdue) s = .next (modLane l (fun x => { x with losMasked := false }) s)
    ∧ exec (.receiveLpi l .refreshed) s
      = .next (endRxLpi p (modLane l (fun x => { x with unmaskAt := some (s.now + us 10), frozen := false }) s))
    ∧ ((portOf s p).rxLpi = false → exec (.receiveLpi l .quiet) s
      = .next (bump (ck 369 64 p) 1 (modPort p (fun x => { x with rxLpi := true, rxLpiAt := s.now })
        (modLane l (fun x => { freezeCoeffs x with losMasked := true, unmaskAt := none, frozen := true }) s)))))
  ∧ (∀ (b : Bool) (k c : Nat) (s : State), s.prt.mgmtMode ≠ 0 → s.prt.mgmtSync ≠ b →
    armed (laneOf s 20) = true → (b = false ∨ 3 ≤ k) →
    exec (.mgmtSynchronisationChange b k c) s = .next (raise 0x0801 false 16
      (leBytes 1 (b2n b) ++ leBytes 1 (1 - b2n b)) (bump (ck 398 (if b then 13 else 14) 20) (if b then c else 1)
        (countCodeErrors { s with prt := { s.prt with mgmtSync := b } }))))
  ∧ (∀ (k c : Nat) (s : State), s.prt.mgmtMode ≠ 0 → s.prt.mgmtSync = false → armed (laneOf s 20) = true → k < 3 →
    exec (.mgmtSynchronisationChange true k c) s = .next (bump (ck 398 13 20) c (countCodeErrors s)))

/-- Reception on a client port and on the management lane and Knarrasar's own protocols (R329, R352 to R358, R364,
R368, R369, R473, R547): a client frame is stamped, judged by the checks in their order and taken; the management
lane keeps what its filter passes; a diverted frame has its protocol's effect, and a protocol's timer sends its
frames. It states that these rows complete: clientFrameReceive, protocolFrame, ptpTimeout, protocolTimer. -/
def Obligations.ClientFramesAreJudged : Prop :=
  (∀ (p : Fin 17) (f : Bytes) (room pcs : Bool) (s : State), looped s p 3 = true →
    exec (.clientFrameReceive p f room pcs) s = .next (emit (.clientFrame p f false) s))
  ∧ (∀ (p : Fin 17) (f : Bytes) (room pcs : Bool) (s : State), p.val ≠ 16 → looped s p 3 = false →
    delineates s p = true →
    let d := stampOn (10 + p.val / 4) (bufferLanes p pcs s)
    let t := bump (ck 369 (5 + lengthBin f.length) p) 1 d.2
    (∀ r, earlyFault d.2 p room pcs = some r →
      exec (.clientFrameReceive p f room pcs) s = .next (refuseFrame p r f d.1 d.2))
    ∧ (∀ r, earlyFault d.2 p room pcs = none → lengthFault (portOf t p) f = some r →
      exec (.clientFrameReceive p f room pcs) s = .next (refuseFrame p r f d.1 t))
    ∧ (earlyFault d.2 p room pcs = none → lengthFault (portOf t p) f = none →
      exec (.clientFrameReceive p f room pcs) s = .next (judgeFrame p f d.1 t)))
  ∧ (∀ (p : Fin 17) (f : Bytes) (room pcs : Bool) (s : State), p.val ≠ 16 → looped s p 3 = false →
    delineates s p = false →
    exec (.clientFrameReceive p f room pcs) s = .next (countLaneErrors p s))
  ∧ (∀ (f : Bytes) (room : Bool) (s : State), looped s 16 3 = false → mgmtUp s = true →
    let b := unrepeat (sgmiiRepeat s.prt.mgmtMode) f
    let t := compensate 20 s
    fcsOk b = true →
    (passesMgmt s b = false →
      exec (.clientFrameReceive 16 f room true) s = .next (bump (ck 369 111 16) 1 t))
    ∧ (passesMgmt s b = true → 1522 < b.length →
      exec (.clientFrameReceive 16 f room true) s = .next (bump (ck 369 112 16) 1 t))
    ∧ (passesMgmt s b = true → b.length ≤ 1522 → divertOf s 16 b = none →
      exec (.clientFrameReceive 16 f room true) s
        = .next (bump (ck 369 1 16) b.length (bump (ck 369 0 16) 1 t))))
  ∧ (∀ (p : Fin 17) (a : ProtocolAct) (k : ProtocolKind) (f : Bytes) (at_ : Nat)
      (l : List (ProtocolKind × Bytes × Nat)) (s : State), (portOf s p).diverted = (k, f, at_) :: l →
    let t := modPort p (fun x => { x with diverted := l }) s
    let j := judged s k f a
    (serviceOn s p k = true → k ≠ .mka →
      exec (.protocolFrame p a) s = .next (protocolEffect p k j at_ (recordFrame p (j == .reject) f (countCheck p k f t))))
    ∧ (serviceOn s p k = true → k = .mka → (macsecOf s p).mkaUp = true →
      exec (.protocolFrame p a) s
        = .next (protocolEffect p k j at_ (recordFrame p (j == .reject) f (countCheck p k f (verifyIcv p f t)))))
    ∧ (serviceOn s p k = false → exec (.protocolFrame p a) s = .next t))
  ∧ (∀ (k : ProtocolKind) (p : Fin 17) (s : State), serviceOn s p k = true →
    (k = .mka → (macsecOf s p).mkaUp = true) →
    let x := portOf s p
    let t := passTo (tget 0 x.timerAt (divertRow k) + timerPeriod s p k) s
    let u := modPort p (fun x => { x with
      timerAt := tset 0 x.timerAt (divertRow k) t.now
      announces := if k == .ptp then !x.announces else x.announces }) t
    exec (.protocolTimer k p) s = .next ((timerFrames t p k).foldl
      (fun s f => if p.val = 16 then sendMgmt f s else injectFrame p f s) u))
  ∧ (∀ (p : Fin 16) (s : State), servicesRun s = true → s.time.slave = some p.val →
    exec (.ptpTimeout p) s = .next { s with time := { s.time with slave := none } })

/-- The serial lanes (R95, R384 to R393, R398): detectors act while a lane is READY; an energy report acts in DEEP
and is held during an entry; a lane becomes READY and raises LOS 2 µs later without a signal; a checker's counts end
with its lock. It states that these rows complete: laneDetector, energyDetect, laneDeepEntryDone, laneReady,
checkerLockChange. -/
def Obligations.LanesReport : Prop :=
  (∀ (l : Fin 21) (d : Detector) (b : Bool) (g : Option LaneSeen) (s : State), armed (laneOf s l) = true →
    bears (laneOf s l) d b g = true → (b = false ∨ d ≠ .los ∨ losMaskedNow s (laneOf s l) = false) →
    exec (.laneDetector l d b g) s = .next (setDetector l d b s))
  ∧ (∀ (l : Fin 21) (b : Bool) (d : Detector) (g : Option LaneSeen) (s : State),
    (armed (laneOf s l) = false ∨ bears (laneOf s l) d b g = false) →
    exec (.laneDetector l d b g) s = .next s)
  ∧ (∀ (x : Lane) (d : Detector) (b : Bool) (u t : Nat), bears x d b none = true
    ∧ bears x .los true (some (.amplitude u t)) = (decide (u < x.losAssert) && decide (2 ≤ t))
    ∧ bears x .los false (some (.amplitude u t)) = (decide (x.losDeassert < u) && decide (100 ≤ t)))
  ∧ (∀ (l : Fin 21) (g : Option LaneSeen) (s : State), stirs l (laneOf s l) g = true →
    (laneOf s l).entering = true →
    exec (.energyDetect l g) s = .next (modLane l (fun x => { x with energyHeld := true }) s))
  ∧ (∀ (l : Fin 21) (g : Option LaneSeen) (s : State), stirs l (laneOf s l) g = true →
    (laneOf s l).entering = false → (laneOf s l).state = .deep →
    exec (.energyDetect l g) s = .next (reportEnergy l s))
  ∧ (∀ (l : Fin 21) (g : Option LaneSeen) (s : State), stirs l (laneOf s l) g = false →
    exec (.energyDetect l g) s = .next s)
  ∧ (∀ (l : Fin 21) (s : State), (laneOf s l).entering = true → (laneOf s l).order ≠ some true →
    exec (.laneDeepEntryDone l) s = .next (releaseEnergy l (syncHoldover l (enterDeep l s))))
  ∧ (∀ (l : Fin 21) (n : Nat) (s : State), (laneOf s l).state = .exiting →
    exec (.laneReady l true n) s = .next (if isFibreLane l then noteSync (l - 16) (becomeReady l true n s)
      else becomeReady l true n s))
  ∧ (∀ (l : Fin 21) (n : Nat) (s : State), (laneOf s l).state = .exiting →
    (laneOf (becomeReady l false n s) l).entering = false →
    exec (.laneReady l false n) s = .next (setDetector l .los true
      (passTo ((becomeReady l false n s).now + us 2) (becomeReady l false n s))))
  ∧ (∀ (l : Fin 21) (b se : Nat) (s : State), (laneOf s l).checker ≠ 0 → (laneOf s l).checkLock = false →
    (laneOf s l).state = .ready → 64 ≤ b →
    exec (.checkerLockChange l true b 0 se) s = .next (modLane l (fun x => { x with
      checkLock := true, checkedTo := s.now, injectsSeen := s.count (ck 398 21 l) }) (settleInject l s)))
  ∧ (∀ (l : Fin 21) (b be_ se : Nat) (s : State), (b < 64 ∨ be_ ≠ 0) →
    exec (.checkerLockChange l true b be_ se) s = .next s)
  ∧ (∀ (l : Fin 21) (b be_ se : Nat) (s : State), be_ < 32 →
    exec (.checkerLockChange l false b be_ se) s = .next s)
  ∧ (∀ (l : Fin 21) (b be_ se : Nat) (s : State), (laneOf s l).checker ≠ 0 → (laneOf s l).checkLock = true →
    (laneOf s l).state = .ready → 32 ≤ be_ →
    ∃ t, exec (.checkerLockChange l false b be_ se) s = .next t ∧ (laneOf t l).checkLock = false
      ∧ t.count (ck 398 17 l) = s.count (ck 398 17 l) + b
      ∧ t.count (ck 398 18 l) = s.count (ck 398 18 l) + be_
      ∧ t.count (ck 398 20 l) = s.count (ck 398 20 l) + 1
      ∧ (∀ m : Fin 21, m ≠ l → laneOf t m = laneOf s m))

/-- Power domains, device power states, droop and the cap (R21, R26, R157, R342, R442, R443, R476 to R494). It
states that these rows complete: droopSag, droopStretchEnd, powerCapEvaluation, degradedEvaluation, domainWake,
domainIdleOff, d2Entry, wakeSource, d2ExitDone, d3EntryDone, d3ExitDone, powerStateChangeDone, sustainedSag. -/
def Obligations.PowerEventsAct : Prop :=
  (∀ (d : Fin 96) (ok : Bool) (s : State), s.pow.railsUp = true →
    exec (.domainWake d ok) s = .next (wakeDomain d ok s))
  ∧ (∀ (d : Fin 96) (s : State), domainBusy s d = false →
    let t := passTo (max (domainOf s d).access s.pow.changed + us 100) s
    (domainSetting s d = .gated → (domainOf s d).asleep = false →
      exec (.domainIdleOff d) s = .next (modDomain d (fun x => { x with asleep := true }) (loseDomain d t)))
    ∧ (domainSetting s d = .off → (domainOf s d).woken = true →
      exec (.domainIdleOff d) s = .next (modDomain d (fun x => { x with woken := false }) (loseDomain d t)))
    ∧ (∀ g, domainSetting s d = .retained → (domainOf s d).woken = true → bankOfDomain d = some g →
      exec (.domainIdleOff d) s = .next (retainBank g (modDomain d (fun x => { x with woken := false }) t))))
  ∧ (∀ s : State, s.fib.doze.phase = .scheduled → (s.pow.state = .d0 ∨ s.pow.state = .d1) →
    comesTo s s.fib.doze.ch s.fib.doze.start = true →
    exec .d2Entry s = .next (enterD2 (passFrame s.fib.doze.ch s.fib.doze.start s)))
  ∧ (∀ (w : WakeSource) (s : State), exec (.wakeSource w) s = .next (requestWake w s))
  ∧ (∀ s : State, s.pow.phase = .enteringD3 → exec .d3EntryDone s = .next (finishD3 s))
  ∧ (∀ s : State, s.pow.phase = .toD1 →
    exec .powerStateChangeDone s = .next (concludePower stOk false [] (enterPower .d1 s)))
  ∧ (∀ s : State, s.pow.phase = .fromD1 →
    exec .powerStateChangeDone s = .next (concludePower stOk false [] (enterPower .d0 s)))
  ∧ (∀ (l : List (Fin 24)) (s : State), s.pow.phase = .exitingD2 → exec (.d2ExitDone l) s = .next (endExit l s))
  ∧ (∀ (l : List (Fin 24)) (s : State), s.pow.phase = .exitingD3 → exec (.d3ExitDone l) s = .next (endExit l s))
  ∧ (∀ (d : Fin 48) (s : State), domainOn s (islandDomain (detectorIsland d)) = true →
    let x := detectOf s d
    let t := modDetect d (fun x => { x with
        recent := recentSags s (detectOf s d), stretching := !exemptIsland (detectorIsland d)
        since := s.now, low := s.now })
      (countIsland (detectorIsland d) (0x1100 + detectorIndex d) 1 (bump (ck 495 16 d) 1 s))
    (x.stretching = true → exec (.droopSag d) s = .next (modDetect d (fun x => { x with low := s.now }) s))
    ∧ (x.stretching = false → (recentSags s x).length < x.sustain → exec (.droopSag d) s = .next t)
    ∧ (x.stretching = false → x.sustain ≤ (recentSags s x).length →
      exec (.droopSag d) s = .next (answerSag d t)))
  ∧ (∀ (d : Fin 48) (s : State), (detectOf s d).stretching = true →
    let y := detectOf s d
    let t := passTo (y.low + us 1) s
    exec (.droopStretchEnd d) s = .next (modDetect d (fun x => { x with
      stretching := false, sustained := false, stretched := y.stretched + (t.now - y.since) }) t)
    ∧ ((detectOf s d).sustained = false →
      exec (.sustainedSag d) s = .next (answerSag d (passTo ((detectOf s d).since + us 100) s))))
  ∧ (∀ (mW : Nat) (s : State), s.dev.ready = true →
    exec (.powerCapEvaluation mW) s = .next (judgeCap mW (passTo (nextMs s) s)))
  ∧ (∀ s : State, s.dev.state = .active →
    (s.dev.causes ≠ 0 → exec .degradedEvaluation s = .next (changeState .degraded s))
    ∧ (s.dev.causes = 0 → exec .degradedEvaluation s = .next s))
  ∧ (∀ s : State, s.dev.state = .degraded →
    (s.dev.causes = 0 → exec .degradedEvaluation s = .next (changeState .active s))
    ∧ (s.dev.causes ≠ 0 → exec .degradedEvaluation s = .next s))

/-- Supply, clocks, reset and start-up (R442, R444, R546, R565 to R567, R578, R589 to R591, R600 to R605, R611, R612).
V1P8_OUT goes on with the supply and off with the lockout; a flash without the read mode and a slot whose image reads
too slowly boot nothing, and no slot is tried twice. It states that these rows complete: powerOn, underVoltageLockout,
resetRelease, pinReset, bootSelect, loadingComplete, imageConfirm, refclk156Qualify, refclk156Loss,
pgoodInTransition, dyingGaspClear, vinSample. -/
def Obligations.SupplyAndStartUpAct : Prop :=
  (∀ s : State, s.sup.lockout = true →
    let t := emit (.v1p8 true) (coldReset 0x01 s)
    exec .powerOn s = .next { t with
      cnt := [], sup := { t.sup with lockout := false, refOk := false, releaseAt := t.now + ms 1 } })
  ∧ (∀ s : State, exec .underVoltageLockout s = .next (emit (.v1p8 false) (showPins s { blank s with
      sup := { (blank s).sup with lockout := true, refOk := false, dyingGasp := false, goodSince := none } })))
  ∧ (∀ (held : Nat) (s : State), s.dev.state = .cold → s.dev.released = false → s.sup.lockout = false →
    s.sup.pgood = true → (s.dev.pinLow = false ∨ us 1 ≤ held) →
    let u := if s.dev.pinLow then passTo (s.now + us 1) s else s
    let t := passTo u.sup.releaseAt u
    exec (.resetRelease held) s = .next (enterLoading { t with
      dev := { t.dev with released := true, releasedAt := t.now, pinLow := false }
      pow := { t.pow with railsUp := true, changed := t.now, levelAt := t.now }
      hif := { t.hif with linkUp := !t.hif.perst } }))
  ∧ (∀ (held : Nat) (s : State), s.dev.state = .cold → s.dev.released = false → s.sup.lockout = false →
    s.sup.pgood = true → s.dev.pinLow = true → held < us 1 →
    exec (.resetRelease held) s = .next (bump (ck 546 2 0) 1 s))
  ∧ (∀ (held : Nat) (s : State), s.sup.lockout = false →
    let t := coldReset 0x02 (passTo (s.now + us 1) s)
    (us 1 ≤ held → exec (.pinReset held) s = .next { t with dev := { t.dev with pinLow := true } })
    ∧ (held < us 1 → exec (.pinReset held) s = .next (bump (ck 546 2 0) 1 s)))
  ∧ (∀ s : State, s.sup.lockout = false → s.sup.refOk = false →
    let t : State := { s with sup := { s.sup with refOk := true } }
    exec .refclk156Qualify s = .next (if s.dev.state == .cold then enterLoading t else bump (ck 612 2 0) 1 t))
  ∧ (∀ s : State, s.sup.refOk = true →
    exec .refclk156Loss s = .next (bump (ck 612 1 0) 1 { s with
      sup := { s.sup with refOk := false }, hif := { s.hif with refLoss := true } }))
  ∧ (∀ (b : Bool) (held : Nat) (s : State),
    let t := passTo (s.now + us 1) s
    let u := noteGood { t with sup := { t.sup with pgood := b } }
    (us 1 ≤ held → (b = true ∨ u.sup.lockout = true) → exec (.pgoodInTransition b held) s = .next u)
    ∧ (us 1 ≤ held → b = false → u.sup.lockout = false →
      exec (.pgoodInTransition b held) s = .next (dyingGaspOnset u))
    ∧ (held < us 1 → exec (.pgoodInTransition b held) s = .next (bump (ck 546 2 1) 1 s)))
  ∧ (∀ (at_ : Nat) (s : State), s.sup.dyingGasp = true → s.sup.goodSince = some at_ →
    let t := passTo (at_ + ms 10) s
    exec .dyingGaspClear s = .next { t with sup := { t.sup with dyingGasp := false } })
  ∧ (∀ (mV : Nat) (s : State), s.sup.lockout = false →
    let t := noteGood (markVin mV { s with sup := { s.sup with vinMv := mV } })
    (2600 ≤ mV → mV ≤ 5800 → exec (.vinSample mV) s = .next (assertSource 1 false t))
    ∧ (2500 ≤ mV → mV < 2600 → exec (.vinSample mV) s = .next (assertSource 1 false (dyingGaspOnset t)))
    ∧ (mV < 2500 → exec (.vinSample mV) s = .next (holdSource 1 (dyingGaspOnset t)))
    ∧ (5800 < mV → exec (.vinSample mV) s = .next (holdSource 1 t)))
  ∧ (∀ (late : List (Fin 2)) (k : Nat) (l : List Nat) (s t : State), s.dev.state = .loading →
    s.dev.bootTried = false → bootOrder s = k :: l →
    let x : State := { s with dev := { s.dev with bootTried := true } }
    (trySlot k late x = (true, t) → exec (.bootSelect true late) s = .next (bootSlot k k t))
    ∧ (trySlot k late x = (false, t) → l = [] → exec (.bootSelect true late) s = .next t)
    ∧ (∀ j m u, l = j :: m → trySlot k late x = (false, t) →
      (trySlot j late t = (true, u) → exec (.bootSelect true late) s = .next (bootSlot j k u))
      ∧ (trySlot j late t = (false, u) → exec (.bootSelect true late) s = .next u)))
  ∧ (∀ (b : Bool) (late : List (Fin 2)) (s : State), s.dev.state = .loading → s.dev.bootTried = false →
    (b = false ∨ bootOrder s = []) →
    exec (.bootSelect b late) s = .next { s with dev := { s.dev with bootTried := true } })
  ∧ (∀ s : State, s.dev.state = .loading → s.dev.booted = true →
    let a := forEach replicaIslands realign (markReset (reseed (rebuild s)))
    let b := showPins a (syncLanes (changeState .standby { a with
      dev := { a.dev with ready := true, readyAt := some a.now, warm := false }
      time := { a.time with ppsHeld := false } }))
    exec .loadingComplete s
      = .next (if assertedMask b ≠ 0 ∨ b.dev.alarmSinceReset = true then becomeSafe b else b))
  ∧ (∀ (at_ n : Nat) (s : State), s.dev.readyAt = some at_ → slotControl s s.mnt.slot = some (n, .trying) →
    let t := passTo (at_ + ms 60000) s
    exec .imageConfirm s = .next (blowFuses (writeControl t.mnt.slot .confirmed t)))

/-- Alarms, the Warden, sensors and pins (R38, R128, R301, R302, R507, R547 to R554, R576, R581, R585, R587). It
states that these rows complete: vioOptLow, vioOptRestore, alarm, eraseDone, tamperCheck, lockstepMismatch,
watchdog, hiveMemoryError, thermalConversion, throttleRelease, sensorFailed, txfaultTransition, gpioInputTransition,
opticDiagRead, randomReseed, jtagInstruction. -/
def Obligations.AlarmsAndFaultsAct : Prop :=
  (∀ (k : Fin 5) (s : State), exec (.alarm k) s = .next (raiseAlarm k s))
  ∧ (∀ s : State, s.dev.erasing = true → exec .eraseDone s = .next (concludeErase
      (raise 0x0103 true 0xFF [] (bump (ck 305 38 0) 1 { s with dev := { s.dev with erasing := false } }))))
  ∧ (∀ s : State,
    exec (.tamperCheck true) s = .next (assertSource 0 false { s with pow := { s.pow with tamperRun := 0 } })
    ∧ (s.pow.tamperRun < 2 → exec (.tamperCheck false) s
      = .next { s with pow := { s.pow with tamperRun := s.pow.tamperRun + 1 } })
    ∧ (2 ≤ s.pow.tamperRun → exec (.tamperCheck false) s
      = .next (holdSource 0 { s with pow := { s.pow with tamperRun := s.pow.tamperRun + 1 } })))
  ∧ (∀ s : State, s.dev.lockstep = false →
    exec .lockstepMismatch s = .next (raiseAlarm 4 { s with dev := { s.dev with lockstep := true } }))
  ∧ (∀ (l : Fin 32) (s : State), wardenRuns s = true →
    exec (.watchdog l) s = .next (warmReset 0x05 (amberRecord 0x000E false (leBytes 1 l) s)))
  ∧ (∀ s : State, wardenRuns s = true →
    let d := takeFree (bump (ck 511 5 14) 1 s)
    exec .hiveMemoryError s
      = .next (warmReset 0x06 (raise 0x0B03 true 14 (leBytes 8 (8 * (d.1 % 262144))) d.2)))
  ∧ (∀ s : State, afterLoading s = true →
    exec .randomReseed s = .next (reseed (passTo (s.mnt.seedAt + ms 60000) s)))
  ∧ (∀ (k : Fin 24) (t : Int) (s : State),
    ((t < -550 ∨ 1500 < t) → noteReading (k, t) s = bump (ck 547 0 k) 1 s)
    ∧ (-550 ≤ t → t ≤ 1500 → noteReading (k, t) s = modSensor k (takeReading t s.now) s))
  ∧ (∀ (k : Fin 24) (d : Int) (m : List (Fin 24 × Int)) (s : State),
    let l := (k, d) :: m
    let hot := crossing s l
    let u := l.foldl (fun s e => noteReading e s) s
    let v := if hot = [] then u else beginThrottle (lowest hot) u
    let high := ∃ e ∈ l, readingOk e.2 = true ∧ (sensorOf s e.1).overAlarm = true ∧ 1250 < e.2
    (high → exec (.thermalConversion k d m) s = .next (holdSource 2 v))
    ∧ (¬ high → (∃ j < 24, (sensorOf v j).overAlarm = true) → exec (.thermalConversion k d m) s = .next v)
    ∧ (¬ high → (∀ j < 24, (sensorOf v j).overAlarm = false) →
      exec (.thermalConversion k d m) s = .next (assertSource 2 false v)))
  ∧ (∀ (l : List (Fin 24 × Int)) (s : State), crossing s l ≠ [] →
    lowest (crossing s l) ∈ crossing s l ∧ ∀ k ∈ crossing s l, lowest (crossing s l) ≤ k)
  ∧ (∀ s : State, s.pow.throttle = true → (∀ k < 24, stillHot (sensorOf s k) = false) →
    let t := passTo ((lastToCool s).2 + ms 10) s
    exec .throttleRelease s = .next (raise 0x0A02 true (lastToCool s).1 (leBytes 1 0)
      (setCause 1 false { t with pow := { t.pow with throttle := false } })))
  ∧ (∀ (k : Fin 24) (s : State), (sensorOf s k).failed = false →
    let t := passTo ((sensorOf s k).at_ + ms 1) s
    exec (.sensorFailed k) s = .next { modSensor k (fun x => { x with failed := true }) t with
      hif := { t.hif with sensorFail := true } })
  ∧ (∀ (ch : Fin 4) (b : Bool) (held : Nat) (s : State), us 2 ≤ held →
    let u := passTo (s.now + us 2) s
    let t := modAct ch (fun x => { x with txPin := b }) u
    exec (.txfaultTransition ch b held) s = .next (if u.sup.vioLow then t else laserFault ch b t))
  ∧ (∀ (held : Nat) (s : State), s.sup.vioLow = false → us 10 ≤ held → exec (.vioOptLow held) s
    = .next (forEach (List.range 4) (fun c s => laserFault c true s)
      (isolateOptics true (passTo (s.now + us 10) s))))
  ∧ (∀ (held : Nat) (s : State), s.sup.vioLow = true → us 10 ≤ held → exec (.vioOptRestore held) s
    = .next (forEach (List.range 4) (fun c s => laserFault c (actOf s c).txPin s)
      (isolateOptics false (passTo (s.now + us 10) s))))
  ∧ (∀ (i : Fin 16) (b : Bool) (held : Nat) (s : State), bit s.hif.gpioDir.toNat i = false →
    bit s.hif.gpioIn.toNat i ≠ b → us 10 ≤ held →
    let t := passTo (s.now + us 10) s
    exec (.gpioInputTransition i b held) s = .next (countIsland 43 0x6000 1 { t with hif := { t.hif with
      gpioIn := BitVec.ofNat 16 (setBit t.hif.gpioIn.toNat i b) } }))
  ∧ (∀ (ch : Fin 4) (i : Fin 16) (b : Bool) (held : Nat) (s : State),
    (held < us 2 → exec (.txfaultTransition ch b held) s = .next (bump (ck 546 0 ch) 1 s))
    ∧ (s.sup.vioLow = false → held < us 10 → exec (.vioOptLow held) s = .next (bump (ck 546 4 0) 1 s))
    ∧ (s.sup.vioLow = true → held < us 10 → exec (.vioOptRestore held) s = .next (bump (ck 546 4 0) 1 s))
    ∧ (bit s.hif.gpioDir.toNat i = false → bit s.hif.gpioIn.toNat i ≠ b → held < us 10 →
      exec (.gpioInputTransition i b held) s = .next (bump (ck 546 1 i) 1 s)))
  ∧ (∀ (ch : Fin 4) (s : State), (laneOf s (16 + ch)).state = .ready → (actOf s ch).act ≠ .f0 →
    servicesRun s = true →
    exec (.opticDiagRead ch none) s = .next (opticFailure ch s)
    ∧ (∀ b, s.sup.vioLow = true → exec (.opticDiagRead ch (some b)) s = .next (opticFailure ch s))
    ∧ (∀ b, s.sup.vioLow = false → exec (.opticDiagRead ch (some b)) s
      = .next (amberRecord 0x0008 false (leBytes 1 ch ++ leBytes 1 0x51 ++ b) (setCount (ck 581 1 ch) 0
        { s with mnt := { s.mnt with optics := tset [] s.mnt.optics ch b } }))))
  ∧ (∀ (i : JtagInstr) (s : State),
    ((resetOnly i = false ∨ s.dev.pinLow = true) →
      exec (.jtagInstruction i) s = .next { s with mnt := { s.mnt with jtag := i } })
    ∧ (resetOnly i = true → s.dev.pinLow = false → exec (.jtagInstruction i) s
      = .next (bump (ck 585 0 0) 1 { s with mnt := { s.mnt with jtag := .bypass } })))

/-- Memory integrity (R497 to R510): the scrubber decides each word it reads, the buckets leak every millisecond,
filters expire, merge buffers take the narrow writes and retire whole code words, and lost items are restored
outside SAFE. It states that these rows complete: mergeRetire, scrubRead, eccBucketLeak, eccFilterExpiry,
restoration. -/
def Obligations.MemoryIsScrubbed : Prop :=
  (∀ (r : Fin 15) (a : Nat) (v : EccVerdict) (s : State), r ≠ 9 → a % wordBytes r = 0 → a < regionBytes r →
    regionReadable s r a = true →
    let t := bump (ck 511 18 r) 1 (moveScrubber r a s)
    (inMerge s r a = true → exec (.scrubRead r a v) s = .next t)
    ∧ (inMerge s r a = false → exec (.scrubRead r a v) s = .next (decideWord r a v t)))
  ∧ (∀ (r : Fin 15) (a : Nat) (v : EccVerdict) (s : State), a % wordBytes r = 0 → a < regionBytes r →
    exec (.scrubRead r a v true) s = .next (readByUser r a v s)
    ∧ ((r = 9 ∨ regionReadable s r a = false) → exec (.scrubRead r a v) s = .next s))
  ∧ (∀ (r a : Nat) (v : EccVerdict) (s : State),
    ((regionOf s r).poisoned.contains a = true → decideWord r a v s = badWord r a (bump (ck 511 6 r) 1 s))
    ∧ ((regionOf s r).poisoned.contains a = false →
      decideWord r a .clean s = s ∧ decideWord r a .correctable s = correctWord r a s
      ∧ decideWord r a .uncorrectable s = badWord r a (bump (ck 511 5 r) 1 s)))
  ∧ (∀ (r : Fin 15) (s : State), (regionOf s r).pending = none →
    ∃ t, exec (.eccBucketLeak r) s = .next t
      ∧ (regionOf t r).bucket = (regionOf s r).bucket - (regionOf s r).leak
      ∧ (regionOf t r).threshold = (regionOf s r).threshold ∧ (regionOf t r).leakAt = t.now
      ∧ (∀ q : Fin 15, q ≠ r → regionOf t q = regionOf s q) ∧ t.hif = s.hif
      ∧ (∀ k, k ≠ ck 511 16 r → t.count k = s.count k))
  ∧ (∀ (r : Fin 15) (th lk : Nat) (s : State), (regionOf s r).pending = some (th, lk) →
    ∃ t, exec (.eccBucketLeak r) s = .next t ∧ (regionOf t r).threshold = th ∧ (regionOf t r).leak = lk
      ∧ (regionOf t r).pending = none ∧ (regionOf t r).bucket = (regionOf s r).bucket - lk)
  ∧ (∀ (r : Fin 15) (a : Nat) (e : FilterEntry) (s : State),
    let t := settleBacks s
    let c := controllerOf r a
    let same := fun (f : FilterEntry) => f.region == r.val && f.addr == a
    (tget [] t.mem.filters c).find? same = some e →
    exec (.eccFilterExpiry r a) s
      = .next (setFilter c ((tget [] t.mem.filters c).filter (fun f => !same f)) (passTo (e.last + ms 1) t)))
  ∧ (∀ (c : Fin 25) (l : List MergeWrite) (why : RetireCause) (s : State),
    exec (.mergeRetire c why l) s = .next (execCause c why (l.foldl (fun s w => takeWrite c w s) s)))
  ∧ (∀ (c : Nat) (w : MergeWrite) (s : State),
    let r := regionOfCtl c w.region
    let whole := w.mask.toNat % 2 ^ wordBytes r = 2 ^ wordBytes r - 1
    writeFits c r w.addr = true →
    (whole → (mergeOf s c).find? (fun e => e.holds r w.addr) = none →
      takeWrite c w s = supersede r w.addr (goodWord r w.addr { s with mem := { s.mem with
        words := tset none s.mem.words (wordKey r w.addr) (some w.data) } }))
    ∧ (¬ whole → (mergeOf s c).find? (fun e => e.holds r w.addr) = none →
      takeWrite c w s = allocateEntry c r w (bump (ck 511 10 r) 1 s))
    ∧ (∀ e, ¬ whole → (mergeOf s c).find? (fun e => e.holds r w.addr) = some e →
      let j := joinEntry w s.now e
      let t := bump (ck 511 10 r) 1 s
      takeWrite c w s = if j.whole then retireEntry c j t
        else setMerge c ((mergeOf t c).map (fun x => if x.holds r w.addr then j else x)) t))
  ∧ (∀ (c : Nat) (e : MergeEntry) (s : State),
    let d := mergedData e s
    let w := supersede e.region e.addr { d.2 with mem := { d.2.mem with
      words := tset none d.2.mem.words (wordKey e.region e.addr) (some d.1) } }
    let t := setMerge c ((mergeOf w c).filter (fun x => !x.holds e.region e.addr)) w
    let u := if e.whole then bump (ck 511 11 e.region) 1 (goodWord e.region e.addr t)
      else if e.oldBad then
        modRegion e.region (fun x => { x with poisoned := e.addr :: x.poisoned.filter (· != e.addr) }) t
      else t
    retireEntry c e s = bump (ck 511 19 e.region) 1 u)
  ∧ (∀ (c : Fin 25) (e : MergeEntry) (s : State), mergeOf s c = [e] →
    exec (.mergeRetire c .timeout []) s = .next (retireEntry c e (passTo (e.at_ + mergeIdle s c) s)))
  ∧ (∀ (c : Fin 25) (r : Fin 15) (a : Nat) (e : MergeEntry) (s : State),
    (mergeOf s c).find? (fun e => e.holds (regionOfCtl c r) a) = some e →
    exec (.mergeRetire c (.sameWordRead r a) []) s
      = .next (emit (.merged e.region e.addr (mergedData e s).1) (retireEntry c e s)))
  ∧ (∀ (r : Fin 15) (a : Nat) (e : LostItem) (s : State),
    (∀ g, bankOfWord r a = some g → (bankOf s g).zeroed = false) →
    s.mem.lost.find? (fun e => e.region == r.val && e.addr == a) = some e →
    let t := retireHeld r a (wakeForWord r a s)
    (s.dev.state = .safe → ∀ ok, exec (.restoration r a ok) s = .next s)
    ∧ (s.dev.state ≠ .safe → exec (.restoration r a false) s = .next (failRestore e t))
    ∧ (s.dev.state ≠ .safe → exec (.restoration r a true) s
      = .next (bump (ck 511 7 r) 1 (restoredItem e (supersede r a (goodWord r a
        (recover (fun x => x.region == r.val && x.addr == a) t)))))))
  ∧ (∀ (r : Fin 15) (a g : Nat) (ok : Bool) (s : State), bankOfWord r a = some g → (bankOf s g).zeroed = true →
    (s.dev.state = .safe → exec (.restoration r a ok) s = .next s)
    ∧ (s.dev.state ≠ .safe → exec (.restoration r a ok) s = .next (restoreBank g (wakeForWord r a s))))

/-- The audit, flow export, dumps and Knarrasar's background work (R412, R518 to R527, R538, R540 to R544, R556,
R559, R561). It states that these rows complete: backgroundCommandDone, auditPoint, dumpDone, ipfixRecord,
ipfixTemplate, collectorResolve, checkpoint, counterAccumulation. -/
def Obligations.ObservabilityEventsAct : Prop :=
  (∀ s : State, auditRuns s = true →
    ∃ t, exec .auditPoint s = .next t ∧ t.obs.auditAt = some (nextPoint s))
  ∧ (∀ (at_ : Nat) (s : State), s.obs.ipfix.templateAt = some at_ → exportRuns s = true →
    exec .ipfixTemplate s = .next (sendTemplates (passTo (at_ + us 600000000) s)))
  ∧ (∀ s : State, s.obs.ipfix.templateAt = none → exec .ipfixTemplate s = .next (sendTemplates s))
  ∧ (∀ (b : Bool) (s : State), exportRuns s = true →
    (s.obs.ipfix.resolved = true → exec (.collectorResolve b) s = .next (sendHeld s))
    ∧ (s.obs.ipfix.resolved = false → s.obs.ipfix.asked = false →
      exec (.collectorResolve b) s = .next (startResolve s)))
  ∧ (∀ s : State, exportRuns s = true → s.obs.ipfix.resolved = false → s.obs.ipfix.asked = true →
    let at_ := s.obs.ipfix.resolveAt
    (s.obs.ipfix.failed = false → s.now ≤ at_ + us 3000000 → exec (.collectorResolve true) s
      = .next (sendHeld (modIpfix (fun x => { x with resolved := true }) s)))
    ∧ (s.obs.ipfix.failed = false → exec (.collectorResolve false) s
      = .next (discardHeld (modIpfix (fun x => { x with failed := true }) (passTo (at_ + us 3000000) s))))
    ∧ (s.obs.ipfix.failed = true → ∀ b, exec (.collectorResolve b) s
      = .next (startResolve (passTo (at_ + us 10000000) s))))
  ∧ (∀ (w : Fin 4) (i : Nat) (why : Byte) (x : EmEntry) (s : State), i < 131072 →
    emAt s (w.val * 131072 + i) = some x →
    let k := emStream x.profile x.key
    let read := fun (t : State) => accumulate k x.pkts.toNat x.bytes.toNat t
    let t := read (passTimeout k why.toNat (read s))
    (exports t 256 = true → recordDue t (streamOf t k) why.toNat = true →
      exec (.ipfixRecord (.exactMatch w i) why) s = .next (exportEntry w i why.toNat x t))
    ∧ ((exports t 256 && recordDue t (streamOf t k) why.toNat) = false →
      exec (.ipfixRecord (.exactMatch w i) why) s = .next s))
  ∧ (∀ (i : Nat) (why : Byte) (r : Rule) (s : State), tget none s.cls.rules i = some r →
    let read := fun (t : State) => accumulate (ruleStream i) r.pkts.toNat r.bytes.toNat t
    let t := read (passTimeout (ruleStream i) why.toNat (read s))
    (exports t 257 = true → recordDue t (streamOf t (ruleStream i)) why.toNat = true →
      exec (.ipfixRecord (.rule i) why) s = .next (orDefer (exportRule i why.toNat r) t))
    ∧ ((exports t 257 && recordDue t (streamOf t (ruleStream i)) why.toNat) = false →
      exec (.ipfixRecord (.rule i) why) s = .next s))
  ∧ (∀ s : State, (servicesRun s = true ∨ s.dev.state = .safe) →
    exec .counterAccumulation s = .next (s.tab.em.foldl (fun s e => match e.2 with
      | some x => accumulate (emStream x.profile x.key) x.pkts.toNat x.bytes.toNat s
      | none => s) s))
  ∧ (∀ (j : DumpJob) (s : State), s.obs.dumpWriting = some j → j.host = false →
    let t := bump (ck 545 3 0) 1 (ownEvent 42 1 (j.bytes.length / 8) { s with
      obs := { s.obs with
        dumpWriting := none, dumps := tset [] s.obs.dumps (j.gen % 16) j.bytes
        damaged := s.obs.damaged.filter (· != j.gen % 16) }
      hif := { s.hif with dumpGen := BitVec.ofNat 32 j.gen } })
    exec .dumpDone s = .next (exportDump j (raise 0x0B02 false 0xFF (leBytes 4 j.gen) t)))
  ∧ (∀ s : State, afterLoading s = true →
    (s.mnt.checkDue = true → exec .checkpoint s = .next (writeCheckpoint s))
    ∧ (s.mnt.checkDue = false →
      exec .checkpoint s = .next (writeCheckpoint (passTo (s.mnt.checkAt + ms 30000) s))))
  ∧ (∀ (n : Fin 16) (r : Running) (s : State),
    s.hif.running.find? (fun r => r.mbx == n.val && r.background) = some r →
    (∀ img, r.opcode = 0x0D02 → exec (.backgroundCommandDone n (.flash img)) s = .next (endFlashWrite r img s))
    ∧ (∀ l, r.opcode = 0x0D04 → exec (.backgroundCommandDone n (.selfTest l)) s
      = .next (conclude r.mbx stOk false false (fit (popCount 32 (le r.args 0 4)) l) s))
    ∧ (∀ d, r.opcode = 0x0D05 → exec (.backgroundCommandDone n (.replay d)) s
      = .next (conclude r.mbx stOk false false (leBytes 8 d.toNat) s))
    ∧ exec (.backgroundCommandDone n .internal) s = .next (conclude r.mbx stInternal (undoes r) false [] s))

/-- How the rows of moderation, of the drain and of the deadlines complete, on every state: a write of MSIX_MOD before
READY is only counted, and from READY it stores both fields and fires a vector whose waiting causes already meet them
(R622); HOLDOFF's end fires a vector that is then due (R426); the drain writes what the ring has room for and then
EVENTS_LOST (R424); an unknown opcode, a bad header and a stale or repeated sequence get the result of the step that
fails (R414); a passed deadline ends the waiting command, and before any command is taken up it changes nothing
(R415). It states that these rows complete: msixModWrite, msixHoldoffExpiry, eventBacklogDrain, unknownOpcode,
commandDeadlineExpiry. -/
def Obligations.ModerationDrainAndDeadlinesComplete : Prop :=
  (∀ (vec : Fin 32) (v : Word32) (s : State),
    let x := { vecOf s vec with countM1 := v.extractLsb' 16 8, holdoff := v.extractLsb' 0 10 }
    let due : Prop := 0 < x.causes ∧ (x.countM1.toNat + 1 ≤ x.causes
      ∨ ∃ t, x.first = some t ∧ t + us x.holdoff.toNat ≤ s.now)
    (s.dev.ready = false → exec (.msixModWrite vec v) s = .next (bump (ck 440 11 0) 1 s))
    ∧ (s.dev.ready = true → (vec = 1 ∨ 11 ≤ vec.val) → exec (.msixModWrite vec v) s = .next s)
    ∧ (s.dev.ready = true → vec ≠ 1 → vec.val < 11 → ¬ due →
      exec (.msixModWrite vec v) s = .next (setVec vec x s))
    ∧ (s.dev.ready = true → vec ≠ 1 → vec.val < 11 → due →
      exec (.msixModWrite vec v) s = .next (fireVec vec (setVec vec x s))))
  ∧ (∀ (vec : Fin 32) (s : State), (vec = 1 ∨ 11 ≤ vec.val ∨ (vecOf s vec).causes = 0) →
    exec (.msixHoldoffExpiry vec) s = .next s)
  ∧ (∀ (vec : Fin 32) (t : Nat) (s : State), vec ≠ 1 → vec.val < 11 → 0 < (vecOf s vec).causes →
    (vecOf s vec).first = some t →
    exec (.msixHoldoffExpiry vec) s = .next (fireVec vec (passTo (t + us (vecOf s vec).holdoff.toNat) s)))
  ∧ (∀ s : State, s.hif.lost = none → exec .eventBacklogDrain s = .next (drainBacklog s.hif.backlog s))
  ∧ (∀ (lo : Word32) (k : Nat) (s : State), s.hif.lost = some (lo, k) →
    let t := drainBacklog s.hif.backlog s
    exec .eventBacklogDrain s = .next (if t.hif.backlog = [] ∧ ringRoom t = true
      then raise 0x0100 false 0xFF (leBytes 4 lo.toNat ++ leBytes 4 k) { t with hif := { t.hif with lost := none } }
      else t))
  ∧ (∀ (n : Fin 16) (s : State) (b : Bell), frontBell s n = some b →
    let p := popBell s
    (cmdSeq s n = 0 →
      exec (.unknownOpcode n) s = .next (finishBare n stFormat (leBytes 4 0x000) (rejectCommand 1 n p)))
    ∧ (∀ k, cmdSeq s n ≠ 0 → lastSeq s n = some (cmdSeq s n) → tget none s.hif.kept n = some k →
      exec (.unknownOpcode n) s = .next (represent n k p))
    ∧ (∀ l, cmdSeq s n ≠ 0 → lastSeq s n = some l → 2 ^ 31 ≤ subMod 32 (cmdSeq s n).toNat l.toNat →
      exec (.unknownOpcode n) s = .next (finishBare n stStale (leBytes 4 l.toNat) (rejectCommand 2 n p)))
    ∧ (∀ off, seqNew s n = true →
      stepThree (cmdOf (mbxField s n 0x004 2)) n (mbxField s n 0x006 2) (cmdArgs s n) p = some off →
      exec (.unknownOpcode n) s = .next (finish n (cmdSeq s n) (mbxField s n 0x004 2) (cmdArgs s n) true
        stFormat false false (leBytes 4 off) (rejectCommand 3 n p)))
    ∧ (seqNew s n = true →
      stepThree (cmdOf (mbxField s n 0x004 2)) n (mbxField s n 0x006 2) (cmdArgs s n) p = none →
      exec (.unknownOpcode n) s = .next s))
  ∧ (∀ (n : Fin 16) (s : State), frontBell s n = none → exec (.unknownOpcode n) s = .next s)
  ∧ (∀ (n : Fin 16) (k : Nat) (i : Bool) (s : State) (r : Running),
    s.hif.running.find? (fun r => r.mbx == n.val) = some r →
    let u := if i then s else passTo r.deadline s
    exec (.commandDeadlineExpiry n k i) s = .next (if irrevocable u r then u
      else conclude n (if i then stInternal else stTimeout) (undoes r) false [] (undo r u)))
  ∧ (∀ (n : Fin 16) (k : Nat) (i : Bool) (s : State),
    s.hif.running.find? (fun r => r.mbx == n.val) = none → frontBell s n = none →
    exec (.commandDeadlineExpiry n k i) s = .next s)
  ∧ (∀ (n : Fin 16) (k : Nat) (s : State) (b : Bell) (c : CmdSpec),
    s.hif.running.find? (fun r => r.mbx == n.val) = none → frontBell s n = some b →
    cmdOf (mbxField s n 0x004 2) = some c → seqNew s n = true →
    let late := passTo (deadlineAt c n b s) s
    stepThree (some c) n (mbxField s n 0x006 2) (cmdArgs s n) (popBell late) = none →
    stepFour c (mbxField s n 0x008 4) (cmdArgs s n) (popBell late) = none →
    c.legal (popBell late) (cmdArgs s n) = true →
    exec (.commandDeadlineExpiry n k) s = .next (runCommand c n (cmdSeq s n) (cmdArgs s n) (deadlineAt c n b s)
      (if k = 0 then .early else if c.items.isSome then .items k else .rolledBack) (popBell late)))
end

