-- ==== Sys2Proof/Laws/Ledger.lean ====
section
/-! SUPPORT. What the shared operations leave alone: the queue of waiting commands, the mailbox memory, the journal
and the device state.
One lemma for each operation, which later proofs cite instead of unfolding it. -/

namespace Sys2Proof.Machine

open Sys2Proof

/-- What the queue, the mailboxes, the journal and the device state hold. -/
def State.ledger (s : State) : List Instr × List Host.Cell × List JEntry × Nat × DevState :=
  (s.pending, s.hif.mbox, s.hif.journal, s.hif.jrnHead, s.dev.state)

@[simp] theorem State.ledger_mk (p n f o c d h fi u cl ta tm ci ti pr la po me ob mn su br) :
    (State.mk p n f o c d h fi u cl ta tm ci ti pr la po me ob mn su br).ledger =
      (p, h.mbox, h.journal, h.jrnHead, d.state) := rfl

@[simp] theorem State.ledger_fold (s : State) :
    (s.pending, s.hif.mbox, s.hif.journal, s.hif.jrnHead, s.dev.state) = s.ledger := rfl

theorem foldl_ledger {α : Type} (l : List α) (f : State → α → State)
    (h : ∀ t a, (f t a).ledger = t.ledger) (s : State) : (l.foldl f s).ledger = s.ledger := by
  induction l generalizing s with
  | nil => rfl
  | cons a l ih => exact (ih _).trans (h _ _)

/-- A conditional answer leaves the queue, the mailboxes and the journal alone when both of its arms do. -/
theorem ledger_of_ite (s : State) (c : Prop) [Decidable c] (a b : Answer)
    (ha : ∀ t, a = .next t → t.ledger = s.ledger) (hb : ∀ t, b = .next t → t.ledger = s.ledger) :
    ∀ t, (if c then a else b) = .next t → t.ledger = s.ledger := by
  intro t; split
  · exact ha t
  · exact hb t

theorem next_inj {s t : State} (h : (.next s : Answer) = .next t) : s = t := by injection h

theorem ledger_of_next {s x : State} (e : x.ledger = s.ledger) :
    ∀ t, (.next x : Answer) = .next t → t.ledger = s.ledger := by
  intro t ht; rw [← next_inj ht]; exact e

/-- A change of host-interface fields other than the mailboxes and the journal. -/
theorem ledger_of_hif (s : State) (h : Hif) (e : h.mbox = s.hif.mbox)
    (f : h.journal = s.hif.journal) (g : h.jrnHead = s.hif.jrnHead) :
    ∀ t, (.next { s with hif := h } : Answer) = .next t → t.ledger = s.ledger := by
  refine ledger_of_next ?_; simp only [State.ledger_mk, e, f, g]; rfl

/-! ### Ops -/

@[simp] theorem bump_ledger (a1 : Nat) (a2 : Nat) (s : State) : (bump a1 a2 s).ledger = s.ledger := by
  unfold bump
  simp

@[simp] theorem setCount_ledger (a1 : Nat) (a2 : Nat) (s : State)
    : (setCount a1 a2 s).ledger = s.ledger := by
  unfold setCount
  simp

@[simp] theorem markHigh_ledger (a1 : Nat) (a2 : Nat) (s : State)
    : (markHigh a1 a2 s).ledger = s.ledger := by
  unfold markHigh
  split <;> simp

@[simp] theorem takeFree_ledger (s : State) : (takeFree s).2.ledger = s.ledger := by
  unfold takeFree
  simp

@[simp] theorem emit_ledger (a1 : Out) (s : State) : (emit a1 s).ledger = s.ledger := by
  unfold emit
  simp

@[simp] theorem setVec_ledger (a1 : Nat) (a2 : MsixVec) (s : State)
    : (setVec a1 a2 s).ledger = s.ledger := by
  unfold setVec
  simp

@[simp] theorem fireVec_ledger (a1 : Nat) (s : State) : (fireVec a1 s).ledger = s.ledger := by
  unfold fireVec
  simp
  (repeat' split) <;> simp

@[simp] theorem causeVec_ledger (a1 : Nat) (s : State) : (causeVec a1 s).ledger = s.ledger := by
  unfold causeVec
  simp
  (repeat' split) <;> simp

@[simp] theorem writeRecord_ledger (a1 : Event) (s : State) : (writeRecord a1 s).ledger = s.ledger := by
  unfold writeRecord
  simp

@[simp] theorem loseEvent_ledger (a1 : Word32) (s : State) : (loseEvent a1 s).ledger = s.ledger := by
  unfold loseEvent
  simp

@[simp] theorem backlogEvent_ledger (a1 : Event) (s : State)
    : (backlogEvent a1 s).ledger = s.ledger := by
  unfold backlogEvent
  (repeat' split) <;> simp

@[simp] theorem raiseAt_ledger (a1 : Nat) (a2 : Nat) (a3 : Bool) (a4 : Nat) (a5 : Bytes) (s : State)
    : (raiseAt a1 a2 a3 a4 a5 s).ledger = s.ledger := by
  unfold raiseAt
  simp
  (repeat' split) <;> simp

@[simp] theorem raise_ledger (a1 : Nat) (a2 : Bool) (a3 : Nat) (a4 : Bytes) (s : State)
    : (raise a1 a2 a3 a4 s).ledger = s.ledger := by
  unfold raise
  simp

@[simp] theorem setCause_ledger (a1 : Nat) (a2 : Bool) (s : State)
    : (setCause a1 a2 s).ledger = s.ledger := by
  unfold setCause
  simp

@[simp] theorem setLevel_ledger (a1 : Nat) (a2 : Nat) (s : State)
    : (setLevel a1 a2 s).ledger = s.ledger := by
  unfold setLevel
  simp

/-! ### Clock -/

@[simp] theorem idleTick_ledger (s : State) : (idleTick s).ledger = s.ledger := by
  unfold idleTick
  simp

@[simp] theorem ticks_ledger (a1 : Nat) (s : State) : (ticks a1 s).ledger = s.ledger := by
  unfold ticks
  simp

@[simp] theorem passTo_ledger (a1 : Nat) (s : State) : (passTo a1 s).ledger = s.ledger := by
  unfold passTo
  split <;> simp

@[simp] theorem passSince_ledger (a1 : Option Nat) (a2 : Nat) (s : State)
    : (passSince a1 a2 s).ledger = s.ledger := by
  unfold passSince
  split <;> simp

@[simp] theorem passMain_ledger (a1 : Nat) (s : State) : (passMain a1 s).ledger = s.ledger := by
  unfold passMain
  split <;> simp

@[simp] theorem deglitch_ledger (a1 : Nat) (a2 : Nat) (a3 : Nat) (a4 : Nat) (a5 : State → State)
    (s : State) (ha5 : ∀ x0, (a5 x0).ledger = x0.ledger)
    : (deglitch a1 a2 a3 a4 a5 s).ledger = s.ledger := by
  unfold deglitch
  (try simp only [])
  (repeat' (first | split | (refine (forEach_ledger _ _ _ ?_).trans ?_; intro _ _) | (refine (foldl_ledger _ _ ?_ _).trans ?_; intro _ _))) <;> simp_all

@[simp] theorem realign_ledger (a1 : Nat) (s : State) : (realign a1 s).ledger = s.ledger := by
  unfold realign
  simp

@[simp] theorem stampOn_ledger (a1 : Nat) (s : State) : (stampOn a1 s).2.ledger = s.ledger := by
  unfold stampOn
  split <;> simp

/-! ### Amber -/

@[simp] theorem forEach_ledger (a1 : List Nat) (a2 : Nat → State → State) (s : State)
    (ha2 : ∀ x0 x1, (a2 x0 x1).ledger = x1.ledger) : (forEach a1 a2 s).ledger = s.ledger := by
  unfold forEach
  exact foldl_ledger _ _ (fun t i => ha2 i t) s

@[simp] theorem want_ledger (a1 : Nat) (s : State) : (want a1 s).ledger = s.ledger := by
  unfold want
  split <;> simp

@[simp] theorem wantAll_ledger (a1 : List Nat) (s : State) : (wantAll a1 s).ledger = s.ledger := by
  unfold wantAll
  simp

@[simp] theorem putRecord_ledger (a1 : Nat) (a2 : Bool) (a3 : Bytes) (s : State)
    : (putRecord a1 a2 a3 s).ledger = s.ledger := by
  unfold putRecord
  simp only [State.ledger_mk, State.ledger_fold]
  split <;> simp [wantAll_ledger]

@[simp] theorem closeGap_ledger (s : State) : (closeGap s).ledger = s.ledger := by
  unfold closeGap
  split <;> simp

@[simp] theorem amberSkip_ledger (s : State) : (amberSkip s).ledger = s.ledger := by
  unfold amberSkip
  split <;> simp

@[simp] theorem ownEvent_ledger (island n k : Nat) (s : State) : (ownEvent island n k s).ledger = s.ledger := by
  unfold ownEvent
  simp

@[simp] theorem amberRecord_ledger (a1 : Nat) (a2 : Bool) (a3 : Bytes) (s : State)
    : (amberRecord a1 a2 a3 s).ledger = s.ledger := by
  unfold amberRecord
  simp
  (repeat' split) <;> simp

@[simp] theorem reseed_ledger (s : State) : (reseed s).ledger = s.ledger := by
  unfold reseed
  simp

/-! ### Mailbox -/

@[simp] theorem setDone_ledger (a1 : Nat) (s : State) : (setDone a1 s).ledger = s.ledger := by
  unfold setDone
  split <;> simp

@[simp] theorem recordCommand_ledger (a1 : Bool) (a2 : Nat) (s : State)
    : (recordCommand a1 a2 s).ledger = s.ledger := by
  unfold recordCommand
  simp

@[simp] theorem rejectCommand_ledger (a1 : Nat) (a2 : Nat) (s : State)
    : (rejectCommand a1 a2 s).ledger = s.ledger := by
  unfold rejectCommand
  simp

@[simp] theorem popBell_ledger (s : State) : (popBell s).ledger = s.ledger := by
  unfold popBell
  simp

/-! ### Access -/

@[simp] theorem modRx_ledger (a1 : Nat) (a2 : RxChan → RxChan) (s : State)
    : (modRx a1 a2 s).ledger = s.ledger := by
  unfold modRx
  simp

@[simp] theorem modBond_ledger (a1 : Bond → Bond) (s : State) : (modBond a1 s).ledger = s.ledger := by
  unfold modBond
  simp

@[simp] theorem modAct_ledger (a1 : Nat) (a2 : ActChan → ActChan) (s : State)
    : (modAct a1 a2 s).ledger = s.ledger := by
  unfold modAct
  simp

@[simp] theorem modGroup_ledger (a1 : Nat) (a2 : Group → Group) (s : State)
    : (modGroup a1 a2 s).ledger = s.ledger := by
  unfold modGroup
  simp

@[simp] theorem modTx_ledger (a1 : Nat) (a2 : TxChan → TxChan) (s : State)
    : (modTx a1 a2 s).ledger = s.ledger := by
  unfold modTx
  simp

@[simp] theorem modPort_ledger (a1 : Nat) (a2 : Port → Port) (s : State)
    : (modPort a1 a2 s).ledger = s.ledger := by
  unfold modPort
  simp

@[simp] theorem modLane_ledger (a1 : Nat) (a2 : Lane → Lane) (s : State)
    : (modLane a1 a2 s).ledger = s.ledger := by
  unfold modLane
  simp

@[simp] theorem modQueue_ledger (a1 : Nat) (a2 : Queue → Queue) (s : State)
    : (modQueue a1 a2 s).ledger = s.ledger := by
  unfold modQueue
  simp

@[simp] theorem modPause_ledger (a1 : Nat) (a2 : PauseCfg → PauseCfg) (s : State)
    : (modPause a1 a2 s).ledger = s.ledger := by
  unfold modPause
  simp

@[simp] theorem modMacsec_ledger (a1 : Nat) (a2 : Macsec → Macsec) (s : State)
    : (modMacsec a1 a2 s).ledger = s.ledger := by
  unfold modMacsec
  simp

@[simp] theorem modPipe_ledger (a1 : Nat) (a2 : Pipe → Pipe) (s : State)
    : (modPipe a1 a2 s).ledger = s.ledger := by
  unfold modPipe
  simp

@[simp] theorem modRegion_ledger (a1 : Nat) (a2 : Region → Region) (s : State)
    : (modRegion a1 a2 s).ledger = s.ledger := by
  unfold modRegion
  simp

@[simp] theorem settleLoss_ledger (s : State) : (settleLoss s).ledger = s.ledger := by
  unfold settleLoss
  simp

@[simp] theorem recover_ledger (a1 : LostItem → Bool) (s : State)
    : (recover a1 s).ledger = s.ledger := by
  unfold recover
  split <;> simp

@[simp] theorem freshWords_ledger (region i : Nat) (s : State) : (freshWords region i s).ledger = s.ledger := by
  unfold freshWords
  simp
  (repeat' split) <;> simp

@[simp] theorem rewriteItem_ledger (a1 : Nat) (a2 : Nat) (s : State)
    : (rewriteItem a1 a2 s).ledger = s.ledger := by
  unfold rewriteItem
  simp

@[simp] theorem modDetect_ledger (a1 : Nat) (a2 : Detect → Detect) (s : State)
    : (modDetect a1 a2 s).ledger = s.ledger := by
  unfold modDetect
  simp

@[simp] theorem modSensor_ledger (a1 : Nat) (a2 : Sensor → Sensor) (s : State)
    : (modSensor a1 a2 s).ledger = s.ledger := by
  unfold modSensor
  simp

@[simp] theorem modBank_ledger (a1 : Nat) (a2 : Bank → Bank) (s : State)
    : (modBank a1 a2 s).ledger = s.ledger := by
  unfold modBank
  simp

@[simp] theorem leaveLpi_ledger (a1 : Nat) (s : State) : (leaveLpi a1 s).ledger = s.ledger := by
  unfold leaveLpi
  split <;> simp

@[simp] theorem noteIdle_ledger (a1 : Nat) (s : State) : (noteIdle a1 s).ledger = s.ledger := by
  unfold noteIdle
  simp

@[simp] theorem wakePort_ledger (a1 : Nat) (s : State) : (wakePort a1 s).ledger = s.ledger := by
  unfold wakePort
  split <;> simp

@[simp] theorem injectFrame_ledger (a1 : Nat) (a2 : OwnFrame) (s : State)
    : (injectFrame a1 a2 s).ledger = s.ledger := by
  unfold injectFrame
  simp

/-! ### LaneOps -/

@[simp] theorem orderExit_ledger (a1 : Nat) (s : State) : (orderExit a1 s).ledger = s.ledger := by
  unfold orderExit
  simp

@[simp] theorem orderDeep_ledger (a1 : Nat) (s : State) : (orderDeep a1 s).ledger = s.ledger := by
  unfold orderDeep
  simp

@[simp] theorem dropMgmt_ledger (l : Nat) (s : State) : (dropMgmt l s).ledger = s.ledger := by
  unfold dropMgmt
  (repeat' split) <;> simp

@[simp] theorem endLos_ledger (l : Nat) (s : State) : (endLos l s).ledger = s.ledger := by
  unfold endLos
  simp
  (repeat' split) <;> simp

@[simp] theorem settleInject_ledger (a1 : Nat) (s : State) : (settleInject a1 s).ledger = s.ledger := by
  unfold settleInject
  simp
  (repeat' split) <;> simp

@[simp] theorem sampleSnr_ledger (a1 : Nat) (s : State) : (sampleSnr a1 s).ledger = s.ledger := by
  unfold sampleSnr
  simp
  (repeat' split) <;> simp

@[simp] theorem settleChecker_ledger (a1 : Nat) (s : State) : (settleChecker a1 s).ledger = s.ledger := by
  unfold settleChecker
  simp only []
  (repeat' split) <;> simp

@[simp] theorem laneOff_ledger (a1 : Nat) (s : State) : (laneOff a1 s).ledger = s.ledger := by
  unfold laneOff
  simp

@[simp] theorem syncLanes_ledger (s : State) : (syncLanes s).ledger = s.ledger := by
  unfold syncLanes
  (repeat' split) <;> simp [apply_ite State.ledger]

/-! ### Domains -/

@[simp] theorem modDomain_ledger (a1 : Nat) (a2 : Domain → Domain) (s : State)
    : (modDomain a1 a2 s).ledger = s.ledger := by
  unfold modDomain
  simp

/-! ### HostRegs -/

@[simp] theorem discardWrite_ledger (s : State) : (discardWrite s).ledger = s.ledger := by
  unfold discardWrite
  simp

@[simp] theorem afterReady_ledger (a1 : State → State) (s : State)
    (ha1 : ∀ x0, (a1 x0).ledger = x0.ledger) : (afterReady a1 s).ledger = s.ledger := by
  unfold afterReady; split
  · exact ha1 s
  · simp

theorem execMbxDoneClear_ledger (a1 : Word32) (a2 : Word16) (s : State)
    : ∀ t, (execMbxDoneClear a1 a2 s) = .next t → t.ledger = s.ledger := by
  unfold execMbxDoneClear
  (try split) <;> rintro t ⟨⟩ <;> (try rfl) <;> refine afterReady_ledger _ _ ?_ <;> intro x <;> (try simp only []) <;> (repeat' split) <;> simp

theorem execMbxIrqEnWrite_ledger (a1 : Word32) (s : State) : ∀ t, (execMbxIrqEnWrite a1 s)
    = .next t → t.ledger = s.ledger := by
  unfold execMbxIrqEnWrite
  (try split) <;> rintro t ⟨⟩ <;> (try rfl) <;> refine afterReady_ledger _ _ ?_ <;> intro x <;> (try simp only []) <;> (repeat' split) <;> simp

theorem execEvtEnable_ledger (s : State) : ∀ t, (execEvtEnable s) = .next t → t.ledger = s.ledger := by
  unfold execEvtEnable
  (try split) <;> rintro t ⟨⟩ <;> (try rfl) <;> refine afterReady_ledger _ _ ?_ <;> intro x <;> (try simp only []) <;> (repeat' split) <;> simp

theorem execEvtDisable_ledger (s : State) : ∀ t, (execEvtDisable s)
    = .next t → t.ledger = s.ledger := by
  unfold execEvtDisable
  (try split) <;> rintro t ⟨⟩ <;> (try rfl) <;> refine afterReady_ledger _ _ ?_ <;> intro x <;> (try simp only []) <;> (repeat' split) <;> simp

theorem execEvtConsumerWrite_ledger (a1 : Word32) (s : State) : ∀ t, (execEvtConsumerWrite a1 s)
    = .next t → t.ledger = s.ledger := by
  unfold execEvtConsumerWrite
  (try split) <;> rintro t ⟨⟩ <;> (try rfl) <;> refine afterReady_ledger _ _ ?_ <;> intro x <;> (try simp only []) <;> (repeat' split) <;> simp

@[simp] theorem drainBacklog_ledger (a1 : List Event) (s : State)
    : (drainBacklog a1 s).ledger = s.ledger := by
  induction a1 generalizing s with
  | nil => rfl
  | cons e l ih =>
    unfold drainBacklog
    split
    · rw [ih, writeRecord_ledger]; rfl
    · rfl

theorem execEventBacklogDrain_ledger (s : State) : ∀ t, (execEventBacklogDrain s)
    = .next t → t.ledger = s.ledger := by
  unfold execEventBacklogDrain
  intro t
  simp only []
  (repeat' split) <;> (rintro ⟨⟩; simp)

theorem execMsixModWrite_ledger (a1 : Fin 32) (a2 : Word32) (s : State)
    : ∀ t, (execMsixModWrite a1 a2 s) = .next t → t.ledger = s.ledger := by
  unfold execMsixModWrite
  (try split) <;> rintro t ⟨⟩ <;> (try rfl) <;> refine afterReady_ledger _ _ ?_ <;> intro x <;> (try simp only []) <;> (repeat' split) <;> simp

theorem execMsixHoldoffExpiry_ledger (a1 : Fin 32) (s : State) : ∀ t, (execMsixHoldoffExpiry a1 s)
    = .next t → t.ledger = s.ledger := by
  unfold execMsixHoldoffExpiry
  intro t
  simp only []
  (repeat' split) <;> (rintro ⟨⟩; simp)

theorem execHringRxTailWrite_ledger (a1 : Fin 4) (a2 : Word32) (s : State)
    : ∀ t, (execHringRxTailWrite a1 a2 s) = .next t → t.ledger = s.ledger := by
  unfold execHringRxTailWrite
  (try split) <;> rintro t ⟨⟩ <;> (try rfl) <;> refine afterReady_ledger _ _ ?_ <;> intro x <;> (try simp only []) <;> (repeat' split) <;> simp

theorem execHringTxTailWrite_ledger (a1 : Fin 4) (a2 : Word32) (s : State)
    : ∀ t, (execHringTxTailWrite a1 a2 s) = .next t → t.ledger = s.ledger := by
  unfold execHringTxTailWrite
  (try split) <;> rintro t ⟨⟩ <;> (try rfl) <;> refine afterReady_ledger _ _ ?_ <;> intro x <;> (try simp only []) <;> (repeat' split) <;> simp

@[simp] theorem setGpio_ledger (a1 : Word16) (a2 : Word16) (s : State)
    : (setGpio a1 a2 s).ledger = s.ledger := by
  unfold setGpio
  simp

theorem execRegisterLowWordRead_ledger (a1 : Nat) (s : State) : ∀ t, (execRegisterLowWordRead a1 s)
    = .next t → t.ledger = s.ledger := by
  unfold execRegisterLowWordRead
  intro t
  (repeat' split) <;> (rintro ⟨⟩; simp)

@[simp] theorem discardRingSetup_ledger (s : State) : (discardRingSetup s).ledger = s.ledger := by
  unfold discardRingSetup
  simp

theorem execRegisterLowWordWrite_ledger (a1 : Nat) (a2 : Word32) (s : State)
    : ∀ t, (execRegisterLowWordWrite a1 a2 s) = .next t → t.ledger = s.ledger := by
  unfold execRegisterLowWordWrite; split
  · rintro t ⟨⟩; rfl
  · rintro t ⟨⟩; refine afterReady_ledger _ _ ?_; intro x; try simp only []; split <;> simp

theorem execJrnWindowSeqWrite_ledger (a1 : Word32) (s : State) : ∀ t, (execJrnWindowSeqWrite a1 s)
    = .next t → t.ledger = s.ledger := by
  unfold execJrnWindowSeqWrite; intro t h; rw [← next_inj h]
  have key : ∀ (x : State) (j : Word64) (c : List Word64) (l : Tab (Option Word32)), ({ x with hif := { x.hif with jrnWindowSeq := j, copies := c, lowHeld := l } } : State).ledger = x.ledger := fun _ _ _ _ => rfl
  refine afterReady_ledger _ _ (fun x => ?_)
  exact key x _ _ _

@[simp] theorem countStall_ledger (d ns : Nat) (s : State) : (countStall d ns s).ledger = s.ledger := by
  unfold countStall
  simp

@[simp] theorem clocksMayRun_ledger (s : State) : (clocksMayRun s).ledger = s.ledger := by
  unfold clocksMayRun
  simp

@[simp] theorem mailboxesFromJournal_ledger (s : State)
    : (mailboxesFromJournal s).ledger = s.ledger := by
  unfold mailboxesFromJournal
  simp

@[simp] theorem bankContents_ledger (a1 : Nat) (s : State) : (bankContents a1 s).ledger = s.ledger := by
  unfold bankContents
  simp only []
  (repeat' (first | split | (refine (forEach_ledger _ _ _ ?_).trans ?_; intro _ _) | (refine (foldl_ledger _ _ ?_ _).trans ?_; intro _ _))) <;> simp

@[simp] theorem settleBanks_ledger (s : State) : (settleBanks s).ledger = s.ledger := by
  unfold settleBanks
  simp

@[simp] theorem loseBank_ledger (a1 : Nat) (s : State) : (loseBank a1 s).ledger = s.ledger := by
  unfold loseBank
  split <;> simp

@[simp] theorem wakeBank_ledger (a1 : Nat) (a2 : Bool) (s : State)
    : (wakeBank a1 a2 s).ledger = s.ledger := by
  unfold wakeBank
  (repeat' split) <;> simp

@[simp] theorem wakeFrom_ledger (t0 d : Nat) (intact : Bool) (s : State) : (wakeFrom t0 d intact s).ledger = s.ledger := by
  unfold wakeFrom
  split
  · simp
  · simp only []
    split <;> simp [forEach_ledger]

@[simp] theorem touchFrom_ledger (t0 d : Nat) (s : State) : (touchFrom t0 d s).ledger = s.ledger := by
  unfold touchFrom
  split
  · simp
  · split <;> simp

@[simp] theorem wakeJournal_ledger (s : State) : (wakeJournal s).ledger = s.ledger := by
  unfold wakeJournal
  split <;> simp

@[simp] theorem copyWindow_ledger (j : Nat) (s : State) : (copyWindow j s).ledger = s.ledger := by
  unfold copyWindow
  simp

theorem execJrnWindowCopyDone_ledger (s : State) : ∀ t, (execJrnWindowCopyDone s)
    = .next t → t.ledger = s.ledger := by
  unfold execJrnWindowCopyDone
  intro t
  (repeat' split) <;> (rintro ⟨⟩; simp)

@[simp] theorem refuseAccess_ledger (b : Bar) (s : State) : (refuseAccess b s).ledger = s.ledger := by
  unfold refuseAccess
  simp

theorem execRegisterWrite_ledger (a1 : Nat) (a2 : Word32) (s : State) : ∀ t, (execRegisterWrite a1 a2 s)
    = .next t → t.ledger = s.ledger := by
  unfold execRegisterWrite
  apply ledger_of_ite
  · exact ledger_of_next ((emit_ledger _ _).trans (bump_ledger _ _ _))
  apply ledger_of_ite
  · exact ledger_of_next rfl
  apply ledger_of_ite
  · exact ledger_of_next (discardWrite_ledger _)
  apply ledger_of_ite
  · apply ledger_of_ite
    · exact ledger_of_next (discardRingSetup_ledger _)
    · exact ledger_of_hif _ _ rfl rfl rfl
  apply ledger_of_ite
  · apply ledger_of_ite
    · exact ledger_of_next (discardRingSetup_ledger _)
    · exact ledger_of_hif _ _ rfl rfl rfl
  apply ledger_of_ite
  · exact ledger_of_hif _ _ rfl rfl rfl
  apply ledger_of_ite
  · exact ledger_of_hif _ _ rfl rfl rfl
  apply ledger_of_ite
  · exact ledger_of_hif _ _ rfl rfl rfl
  apply ledger_of_ite
  · exact ledger_of_hif _ _ rfl rfl rfl
  · exact ledger_of_next rfl

theorem execFaultStatusClear_ledger (a1 : Word32) (a2 : Word32) (s : State)
    : ∀ t, (execFaultStatusClear a1 a2 s) = .next t → t.ledger = s.ledger := by
  unfold execFaultStatusClear
  rintro t ⟨⟩
  simp

theorem execMdioCmdGo_ledger (a1 : Word32) (s : State) : ∀ t, (execMdioCmdGo a1 s)
    = .next t → t.ledger = s.ledger := by
  unfold execMdioCmdGo
  intro t
  (repeat' split) <;> (rintro ⟨⟩; simp)

theorem execMdioFrameDone_ledger (a1 : Bool) (a2 : Word16) (s : State)
    : ∀ t, (execMdioFrameDone a1 a2 s) = .next t → t.ledger = s.ledger := by
  unfold execMdioFrameDone
  dsimp only
  have key : ∀ (x : State) (w v : Word32),
      ({ x with hif := { x.hif with mdioCmd := w, mdioData := v } } : State).ledger = x.ledger := fun _ _ _ => rfl
  apply ledger_of_ite
  · exact ledger_of_next rfl
  apply ledger_of_ite
  · exact ledger_of_next rfl
  apply ledger_of_ite
  · exact ledger_of_next (by rw [bump_ledger, key, passTo_ledger])
  · exact ledger_of_next rfl

theorem execUnsupportedRequest_ledger (a1 : Bar) (s : State) : ∀ t, (execUnsupportedRequest a1 s)
    = .next t → t.ledger = s.ledger := by
  unfold execUnsupportedRequest
  rintro t ⟨⟩
  simp

@[simp] theorem stopDma_ledger (s : State) : (stopDma s).ledger = s.ledger := by
  unfold stopDma
  simp

theorem execBusMasterDisable_ledger (s : State) : ∀ t, (execBusMasterDisable s)
    = .next t → t.ledger = s.ledger := by
  unfold execBusMasterDisable
  rintro t ⟨⟩
  simp

theorem execPciPmD3hot_ledger (s : State) : ∀ t, (execPciPmD3hot s)
    = .next t → t.ledger = s.ledger := by
  unfold execPciPmD3hot
  rintro t ⟨⟩
  simp

@[simp] theorem sendPending_ledger (a1 : List Nat) (s : State)
    : (sendPending a1 s).ledger = s.ledger := by
  induction a1 generalizing s with
  | nil => rfl
  | cons v l ih =>
    unfold sendPending
    dsimp only
    split
    · rw [ih, emit_ledger, setVec_ledger]
    · exact ih s

theorem execBusMasterEnable_ledger (s : State) : ∀ t, (execBusMasterEnable s)
    = .next t → t.ledger = s.ledger := by
  unfold execBusMasterEnable
  rintro t ⟨⟩
  simp

@[simp] theorem functionReset_ledger (s : State) : (functionReset s).ledger = s.ledger := by
  unfold functionReset
  simp

theorem execFunctionLevelReset_ledger (s : State) : ∀ t, (execFunctionLevelReset s)
    = .next t → t.ledger = s.ledger := by
  unfold execFunctionLevelReset
  rintro t ⟨⟩
  simp

theorem execPerstNLow_ledger (s : State) (a1 : Nat) : ∀ t, (execPerstNLow s a1)
    = .next t → t.ledger = s.ledger := by
  unfold execPerstNLow
  rintro t ⟨⟩
  simp

theorem execPerstNRelease_ledger (s : State) (h : Nat) : ∀ t, (execPerstNRelease s h)
    = .next t → t.ledger = s.ledger := by
  unfold execPerstNRelease
  rintro t ⟨⟩
  exact deglitch_ledger _ _ _ _ _ _ (fun _ => rfl)

/-! ### Bridges -/

@[simp] theorem storeBridge_ledger (n : Nat) (b : Bridge) (s : State) : (storeBridge n b s).ledger = s.ledger := by
  unfold storeBridge
  simp

@[simp] theorem setBridge_ledger (a1 : Nat) (a2 : Bridge) (s : State)
    : (setBridge a1 a2 s).ledger = s.ledger := by
  unfold setBridge
  simp

@[simp] theorem nextSeq_ledger (a1 : Nat) (s : State) : (nextSeq a1 s).2.ledger = s.ledger := by
  unfold nextSeq
  simp

@[simp] theorem offer_ledger (a1 : Nat) (a2 : CipherReq) (s : State)
    : (offer a1 a2 s).ledger = s.ledger := by
  unfold offer
  simp

@[simp] theorem writeLink_ledger (a1 : Nat) (a2 : Nat) (s : State)
    : (writeLink a1 a2 s).ledger = s.ledger := by
  unfold writeLink
  simp

@[simp] theorem readLink_ledger (a1 : Nat) (a2 : Nat) (s : State)
    : (readLink a1 a2 s).ledger = s.ledger := by
  unfold readLink
  simp

@[simp] theorem crossLink_ledger (a1 : Nat) (a2 : Nat) (s : State)
    : (crossLink a1 a2 s).ledger = s.ledger := by
  unfold crossLink
  simp

/-! ### TrafficOps -/

@[simp] theorem zeroQuarantine_ledger (s : State) : (zeroQuarantine s).ledger = s.ledger := by
  unfold zeroQuarantine
  simp

@[simp] theorem admitFrame_ledger (a1 : Pkt) (s : State) : (admitFrame a1 s).2.ledger = s.ledger := by
  unfold admitFrame
  simp

@[simp] theorem setInput_ledger (a1 : Nat) (a2 : Nat) (a3 : List Pkt) (s : State)
    : (setInput a1 a2 a3 s).ledger = s.ledger := by
  unfold setInput
  simp

@[simp] theorem noteFlow_ledger (n cport len : Nat) (wr rd : Bool) (s : State) : (noteFlow n cport len wr rd s).ledger = s.ledger := by
  unfold noteFlow
  simp

@[simp] theorem sendPacket_ledger (n k cport len : Nat) (s : State) : (sendPacket n k cport len s).ledger = s.ledger := by
  unfold sendPacket
  simp

@[simp] theorem crossPacket_ledger (n k cport len : Nat) (s : State) : (crossPacket n k cport len s).ledger = s.ledger := by
  unfold crossPacket
  (repeat' split) <;> simp

@[simp] theorem toSlice_ledger (a1 : Pkt) (s : State) : (toSlice a1 s).ledger = s.ledger := by
  unfold toSlice
  simp

@[simp] theorem setRef_ledger (a1 : Nat) (a2 : FrameRef) (s : State)
    : (setRef a1 a2 s).ledger = s.ledger := by
  unfold setRef
  simp

@[simp] theorem addRefs_ledger (a1 : Nat) (a2 : Nat) (s : State)
    : (addRefs a1 a2 s).ledger = s.ledger := by
  unfold addRefs
  simp

@[simp] theorem giveCells_ledger (heir n : Nat) (s : State) : (giveCells heir n s).ledger = s.ledger := by
  unfold giveCells
  simp
  (repeat' split) <;> simp

@[simp] theorem freeFrame_ledger (a1 : Nat) (s : State) : (freeFrame a1 s).ledger = s.ledger := by
  unfold freeFrame
  simp
  (repeat' split) <;> simp

@[simp] theorem dropRef_ledger (a1 : Nat) (s : State) : (dropRef a1 s).ledger = s.ledger := by
  unfold dropRef
  simp
  (repeat' split) <;> simp

@[simp] theorem trimCells_ledger (a1 : Nat) (a2 : Nat) (s : State)
    : (trimCells a1 a2 s).2.ledger = s.ledger := by
  unfold trimCells
  simp
  (repeat' split) <;> simp

@[simp] theorem book_ledger (a1 : Term) (a2 : Nat) (a3 : Nat) (s : State)
    : (book a1 a2 a3 s).ledger = s.ledger := by
  unfold book
  simp

@[simp] theorem stampAt_ledger (a1 : Pkt) (a2 : Nat) (a3 : Nat) (a4 : Nat) (s : State)
    : (stampAt a1 a2 a3 a4 s).ledger = s.ledger := by
  unfold stampAt
  split <;> simp

@[simp] theorem endTrace_ledger (a1 : Pkt) (a2 : Nat) (s : State)
    : (endTrace a1 a2 s).ledger = s.ledger := by
  unfold endTrace
  (repeat' split) <;> simp

@[simp] theorem pushStamp_ledger (a1 : Nat) (a2 : TsEntry) (s : State)
    : (pushStamp a1 a2 s).ledger = s.ledger := by
  unfold pushStamp
  simp
  (repeat' split) <;> simp

@[simp] theorem lostStamp_ledger (a1 : Pkt) (a2 : Nat) (a3 : Nat) (s : State)
    : (lostStamp a1 a2 a3 s).ledger = s.ledger := by
  unfold lostStamp
  split <;> simp

@[simp] theorem stampOutcome_ledger (a1 : Pkt) (a2 : Nat) (a3 : Nat) (a4 : Nat) (s : State)
    : (stampOutcome a1 a2 a3 a4 s).ledger = s.ledger := by
  unfold stampOutcome
  split <;> simp

@[simp] theorem onWire_ledger (a1 : Nat) (a2 : Out) (s : State)
    : (onWire a1 a2 s).ledger = s.ledger := by
  unfold onWire
  (repeat' split) <;> simp

@[simp] theorem queueCount_ledger (a1 : Nat) (a2 : Nat) (a3 : Nat) (s : State)
    : (queueCount a1 a2 a3 s).ledger = s.ledger := by
  unfold queueCount
  simp

@[simp] theorem countRefused_ledger (a1 : Nat) (a2 : Nat) (a3 : Nat) (s : State)
    : (countRefused a1 a2 a3 s).ledger = s.ledger := by
  unfold countRefused
  simp

@[simp] theorem countResident_ledger (a1 : Nat) (a2 : Nat) (a3 : Nat) (s : State)
    : (countResident a1 a2 a3 s).ledger = s.ledger := by
  unfold countResident
  simp

@[simp] theorem releaseTag_ledger (a1 : Pkt) (s : State) : (releaseTag a1 s).ledger = s.ledger := by
  unfold releaseTag
  simp

@[simp] theorem sendFlow_ledger (a1 : Nat) (a2 : List Nat) (a3 : Nat) (s : State)
    : (sendFlow a1 a2 a3 s).ledger = s.ledger := by
  unfold sendFlow
  dsimp only
  split
  · rw [onWire_ledger, noteIdle_ledger, foldl_ledger _ _ (fun t a => bump_ledger _ _ t), wakePort_ledger]
  · rfl

@[simp] theorem checkAccounts_ledger (a1 : Nat) (a2 : List Nat) (s : State)
    : (checkAccounts a1 a2 s).ledger = s.ledger := by
  unfold checkAccounts
  simp
  (repeat' split) <;> simp

@[simp] theorem charge_ledger (a1 : Option (Nat × Nat)) (a2 : Nat) (s : State)
    : (charge a1 a2 s).ledger = s.ledger := by
  unfold charge
  split <;> simp

@[simp] theorem discharge_ledger (a1 : Option (Nat × Nat)) (a2 : Nat) (s : State)
    : (discharge a1 a2 s).ledger = s.ledger := by
  unfold discharge
  split <;> simp

@[simp] theorem crossCells_ledger (n k cells : Nat) (s : State) : (crossCells n k cells s).ledger = s.ledger := by
  unfold crossCells
  simp

@[simp] theorem joinQueue_ledger (a1 : Nat) (a2 : Pkt) (s : State)
    : (joinQueue a1 a2 s).ledger = s.ledger := by
  unfold joinQueue
  simp
  (repeat' split) <;> simp

@[simp] theorem countDrop_ledger (a1 : Nat) (a2 : Pkt) (s : State)
    : (countDrop a1 a2 s).ledger = s.ledger := by
  unfold countDrop
  simp

@[simp] theorem ringThreeCopy_ledger (a1 : CopyKind) (a2 : Nat) (a3 : Nat) (a4 : Pkt) (s : State)
    : (ringThreeCopy a1 a2 a3 a4 s).ledger = s.ledger := by
  unfold ringThreeCopy
  simp
  (repeat' split) <;> simp

@[simp] theorem trapCopy_ledger (a1 : Nat) (a2 : Pkt) (s : State)
    : (trapCopy a1 a2 s).ledger = s.ledger := by
  unfold trapCopy
  split <;> simp

@[simp] theorem dropPacket_ledger (a1 : Nat) (a2 : Pkt) (s : State)
    : (dropPacket a1 a2 s).ledger = s.ledger := by
  unfold dropPacket
  simp

@[simp] theorem refuseCopy_ledger (a1 : Nat) (a2 : Nat) (a3 : Pkt) (s : State)
    : (refuseCopy a1 a2 a3 s).ledger = s.ledger := by
  unfold refuseCopy
  simp

@[simp] theorem offerCopy_ledger (a1 : Nat) (a2 : Pkt) (s : State)
    : (offerCopy a1 a2 s).ledger = s.ledger := by
  unfold offerCopy
  (repeat' split) <;> simp

@[simp] theorem binSojourn_ledger (a1 : Nat) (a2 : Nat) (s : State)
    : (binSojourn a1 a2 s).ledger = s.ledger := by
  unfold binSojourn
  simp

@[simp] theorem unaccount_ledger (a1 : Nat) (a2 : Copy) (s : State)
    : (unaccount a1 a2 s).ledger = s.ledger := by
  unfold unaccount
  (repeat' split) <;> simp

@[simp] theorem leaveQueue_ledger (a1 : Nat) (a2 : Copy) (s : State)
    : (leaveQueue a1 a2 s).ledger = s.ledger := by
  unfold leaveQueue
  simp

@[simp] theorem returnCells_ledger (a1 : Copy) (s : State) : (returnCells a1 s).ledger = s.ledger := by
  unfold returnCells
  split <;> simp

@[simp] theorem dropResident_ledger (a1 : Nat) (a2 : Nat) (a3 : Copy) (s : State)
    : (dropResident a1 a2 a3 s).ledger = s.ledger := by
  unfold dropResident
  (repeat' split) <;> simp

@[simp] theorem flushQueue_ledger (a1 : Nat) (a2 : Nat) (s : State)
    : (flushQueue a1 a2 s).ledger = s.ledger := by
  unfold flushQueue
  simp only []
  (repeat' (first | split | (refine (forEach_ledger _ _ _ ?_).trans ?_; intro _ _) | (refine (foldl_ledger _ _ ?_ _).trans ?_; intro _ _))) <;> simp

@[simp] theorem flushAll_ledger (a1 : Nat) (s : State) : (flushAll a1 s).ledger = s.ledger := by
  unfold flushAll
  simp

@[simp] theorem popQueue_ledger (a1 : Nat) (s : State) : (popQueue a1 s).ledger = s.ledger := by
  unfold popQueue
  simp

@[simp] theorem abandonLeaving_ledger (a1 : Nat) (a2 : Nat) (s : State)
    : (abandonLeaving a1 a2 s).ledger = s.ledger := by
  unfold abandonLeaving
  split <;> simp

@[simp] theorem egressDown_ledger (a1 : Nat) (s : State) : (egressDown a1 s).ledger = s.ledger := by
  unfold egressDown
  simp

/-! ### CipherOps -/

@[simp] theorem setRoot_ledger (a1 : Nat) (a2 : BitVec 256) (s : State)
    : (setRoot a1 a2 s).ledger = s.ledger := by
  unfold setRoot
  simp

@[simp] theorem keepCache_ledger (a1 : Nat × Nat → Bool) (s : State)
    : (keepCache a1 s).ledger = s.ledger := by
  unfold keepCache
  simp

@[simp] theorem writeSlot_ledger (a1 : Nat) (a2 : Nat) (s : State)
    : (writeSlot a1 a2 s).ledger = s.ledger := by
  unfold writeSlot
  simp

@[simp] theorem forgetEpoch_ledger (a1 : Nat) (a2 : Nat) (s : State)
    : (forgetEpoch a1 a2 s).ledger = s.ledger := by
  unfold forgetEpoch
  simp

@[simp] theorem forgetPending_ledger (a1 : Nat) (s : State)
    : (forgetPending a1 s).ledger = s.ledger := by
  unfold forgetPending
  (try simp only [])
  (repeat' (first | split | (refine (forEach_ledger _ _ _ ?_).trans ?_; intro _ _) | (refine (foldl_ledger _ _ ?_ _).trans ?_; intro _ _))) <;> simp

@[simp] theorem forgetGroup_ledger (a1 : Nat) (s : State) : (forgetGroup a1 s).ledger = s.ledger := by
  unfold forgetGroup
  simp

@[simp] theorem replaceRoot_ledger (a1 : Nat) (a2 : BitVec 256) (s : State)
    : (replaceRoot a1 a2 s).ledger = s.ledger := by
  unfold replaceRoot
  simp

@[simp] theorem restartCounters_ledger (a1 : Nat) (a2 : Nat) (s : State)
    : (restartCounters a1 a2 s).ledger = s.ledger := by
  unfold restartCounters
  simp

@[simp] theorem offerRequest_ledger (a1 : Nat) (a2 : Nat) (a3 : Nat) (a4 : CipherOp) (a5 : Bytes)
    (a6 : Bytes) (a7 : BitVec 96) (a8 : BitVec 128) (a9 : CipherRef) (s : State)
    : (offerRequest a1 a2 a3 a4 a5 a6 a7 a8 a9 s).ledger = s.ledger := by
  unfold offerRequest
  simp

@[simp] theorem offerClear_ledger (a1 : Nat) (a2 : Bytes) (a3 : CipherRef) (s : State)
    : (offerClear a1 a2 a3 s).ledger = s.ledger := by
  unfold offerClear
  simp

@[simp] theorem setFreeDescriptors_ledger (a1 : Nat) (a2 : Nat) (s : State)
    : (setFreeDescriptors a1 a2 s).ledger = s.ledger := by
  unfold setFreeDescriptors
  simp

@[simp] theorem touchKey_ledger (a1 : Nat × Nat) (s : State) : (touchKey a1 s).ledger = s.ledger := by
  unfold touchKey
  split <;> simp

@[simp] theorem touchRequest_ledger (a1 : CipherReq) (s : State)
    : (touchRequest a1 s).ledger = s.ledger := by
  unfold touchRequest
  split <;> simp

@[simp] theorem lookUp_ledger (a1 : CipherReq) (s : State) : (lookUp a1 s).ledger = s.ledger := by
  unfold lookUp
  (repeat' split) <;> simp

@[simp] theorem lookAhead_ledger (a1 : Nat) (s : State) : (lookAhead a1 s).ledger = s.ledger := by
  unfold lookAhead
  (try simp only [])
  (repeat' (first | split | (refine (forEach_ledger _ _ _ ?_).trans ?_; intro _ _) | (refine (foldl_ledger _ _ ?_ _).trans ?_; intro _ _))) <;> simp

@[simp] theorem offerCmac_ledger (a1 : Nat) (a2 : Nat) (a3 : Bytes) (a4 : Option (BitVec 128))
    (s : State) : (offerCmac a1 a2 a3 a4 s).ledger = s.ledger := by
  unfold offerCmac
  simp

@[simp] theorem offerMic_ledger (a1 : Nat) (a2 : Nat) (a3 : Nat) (a4 : Nat) (a5 : Bytes) (s : State)
    : (offerMic a1 a2 a3 a4 a5 s).ledger = s.ledger := by
  unfold offerMic
  simp

/-! ### FibreOps -/

@[simp] theorem noteTriggers_ledger (a1 : Nat) (s : State) : (noteTriggers a1 s).ledger = s.ledger := by
  unfold noteTriggers
  simp

@[simp] theorem setDefect_ledger (a1 : Nat) (a2 : Nat) (a3 : Bool) (s : State)
    : (setDefect a1 a2 a3 s).ledger = s.ledger := by
  unfold setDefect
  simp
  (repeat' split) <;> simp

@[simp] theorem setSkewDefect_ledger (a1 : Bool) (a2 : Nat) (s : State)
    : (setSkewDefect a1 a2 s).ledger = s.ledger := by
  unfold setSkewDefect
  split <;> simp

@[simp] theorem applyRun_ledger (a1 : Nat) (a2 : Nat) (a3 : Bool) (a4 : Nat) (s : State)
    : (applyRun a1 a2 a3 a4 s).ledger = s.ledger := by
  unfold applyRun
  split <;> simp

@[simp] theorem discardFrame_ledger (a1 : Nat) (a2 : Reasm) (s : State)
    : (discardFrame a1 a2 s).ledger = s.ledger := by
  unfold discardFrame
  simp

@[simp] theorem discardOpen_ledger (a1 : Nat) (a2 : Reasm) (s : State)
    : (discardOpen a1 a2 s).ledger = s.ledger := by
  unfold discardOpen
  simp

@[simp] theorem sendDecrypt_ledger (a1 : Reasm) (s : State) : (sendDecrypt a1 s).ledger = s.ledger := by
  unfold sendDecrypt
  (repeat' split) <;> simp

@[simp] theorem closeFrame_ledger (a1 : Reasm) (s : State) : (closeFrame a1 s).ledger = s.ledger := by
  unfold closeFrame
  (repeat' split) <;> simp

@[simp] theorem takeFragment_ledger (a1 : Option Reasm) (a2 : Frag) (s : State)
    : (takeFragment a1 a2 s).2.ledger = s.ledger := by
  unfold takeFragment
  (repeat' split) <;> simp

@[simp] theorem dropOpen_ledger (a1 : Nat) (a2 : Nat) (s : State)
    : (dropOpen a1 a2 s).ledger = s.ledger := by
  unfold dropOpen
  split <;> simp

@[simp] theorem stepNext_ledger (s : State) : (stepNext s).ledger = s.ledger := by
  unfold stepNext
  simp

@[simp] theorem dropGroup_ledger (s : State) : (dropGroup s).ledger = s.ledger := by
  unfold dropGroup
  split <;> simp

@[simp] theorem resolveMissing_ledger (a1 : Nat) (s : State)
    : (resolveMissing a1 s).ledger = s.ledger := by
  unfold resolveMissing
  simp

@[simp] theorem releaseStored_ledger (a1 : Nat) (a2 : Stored) (s : State)
    : (releaseStored a1 a2 s).ledger = s.ledger := by
  unfold releaseStored
  split <;> simp

theorem bondTurn_ledger (s : State) : ∀ t, (bondTurn s) = some t → t.ledger = s.ledger := by
  unfold bondTurn
  intro t
  simp only []
  (repeat' split) <;> (intro h; simp at h; try (subst h; simp))

@[simp] theorem bondLoop_ledger (a1 : Nat) (s : State) : (bondLoop a1 s).ledger = s.ledger := by
  induction a1 generalizing s with
  | zero => rfl
  | succ n ih =>
    unfold bondLoop; split
    · rfl
    · exact (ih _).trans (bondTurn_ledger _ _ ‹_›)

@[simp] theorem bondRelease_ledger (s : State) : (bondRelease s).ledger = s.ledger := by
  unfold bondRelease
  simp
  (repeat' split) <;> simp

@[simp] theorem removeMember_ledger (a1 : Nat) (s : State) : (removeMember a1 s).ledger = s.ledger := by
  unfold removeMember
  split <;> simp

@[simp] theorem addMember_ledger (a1 : Nat) (s : State) : (addMember a1 s).ledger = s.ledger := by
  unfold addMember
  split <;> simp

@[simp] theorem startNext_ledger (a1 : Nat) (s : State) : (startNext a1 s).ledger = s.ledger := by
  unfold startNext
  simp

@[simp] theorem finishFloor_ledger (a1 : Nat) (s : State) : (finishFloor a1 s).ledger = s.ledger := by
  unfold finishFloor
  simp
  (repeat' split) <;> simp

@[simp] theorem passTrx_ledger (a1 : Nat) (s : State) : (passTrx a1 s).ledger = s.ledger := by
  unfold passTrx
  split <;> simp

@[simp] theorem passFrame_ledger (a1 : Nat) (a2 : Nat) (s : State)
    : (passFrame a1 a2 s).ledger = s.ledger := by
  unfold passFrame
  split <;> simp

@[simp] theorem noteSync_ledger (a1 : Nat) (s : State) : (noteSync a1 s).ledger = s.ledger := by
  unfold noteSync
  simp
  (repeat' split) <;> simp

/-! ### UpOps -/

@[simp] theorem modAlloc_ledger (a1 : Nat) (a2 : Alloc → Alloc) (s : State)
    : (modAlloc a1 a2 s).ledger = s.ledger := by
  unfold modAlloc
  simp

@[simp] theorem purgeFrame_ledger (a1 : Nat) (s : State) : (purgeFrame a1 s).ledger = s.ledger := by
  unfold purgeFrame
  simp

@[simp] theorem dropStaged_ledger (a1 : Nat) (a2 : Pkt) (s : State)
    : (dropStaged a1 a2 s).ledger = s.ledger := by
  unfold dropStaged
  simp

@[simp] theorem flushStaging_ledger (a1 : Nat) (a2 : Nat) (s : State)
    : (flushStaging a1 a2 s).ledger = s.ledger := by
  unfold flushStaging; split
  · rfl
  · exact (foldl_ledger _ _ (fun t a => dropStaged_ledger _ _ _) _).trans (modAlloc_ledger _ _ _)

@[simp] theorem flushAllStaging_ledger (a1 : Nat) (s : State)
    : (flushAllStaging a1 s).ledger = s.ledger := by
  unfold flushAllStaging
  exact foldl_ledger _ _ (fun t a => flushStaging_ledger _ _ _) s

@[simp] theorem dropStale_ledger (s : State) : (dropStale s).ledger = s.ledger := by
  unfold dropStale
  simp only []
  (repeat' (first | split | (refine (forEach_ledger _ _ _ ?_).trans ?_; intro _ _) | (refine (foldl_ledger _ _ ?_ _).trans ?_; intro _ _))) <;> simp

@[simp] theorem refuseGrant_ledger (a1 : Nat) (a2 : Nat) (a3 : Nat) (a4 : Bool) (a5 : MapRefusal)
    (s : State) : (refuseGrant a1 a2 a3 a4 a5 s).ledger = s.ledger := by
  unfold refuseGrant
  split <;> simp

@[simp] theorem cancelFrame_ledger (a1 : Nat) (a2 : Nat) (a3 : Pkt) (s : State)
    : (cancelFrame a1 a2 a3 s).ledger = s.ledger := by
  unfold cancelFrame
  simp

@[simp] theorem bookExecuted_ledger (a1 : Nat) (a2 : Section) (s : State)
    : (bookExecuted a1 a2 s).ledger = s.ledger := by
  unfold bookExecuted
  simp

@[simp] theorem cancelSection_ledger (a1 : Nat) (a2 : Nat) (a3 : Section) (s : State)
    : (cancelSection a1 a2 a3 s).ledger = s.ledger := by
  unfold cancelSection
  simp only []
  (repeat' (first | split | (refine (forEach_ledger _ _ _ ?_).trans ?_; intro _ _) | (refine (foldl_ledger _ _ ?_ _).trans ?_; intro _ _))) <;> simp

@[simp] theorem refuseLate_ledger (a1 : Nat) (a2 : MapRefusal) (a3 : Grant) (s : State)
    : (refuseLate a1 a2 a3 s).ledger = s.ledger := by
  unfold refuseLate
  split <;> simp

@[simp] theorem cancelSections_ledger (a1 : Nat) (a2 : Nat) (a3 : Nat) (s : State)
    : (cancelSections a1 a2 a3 s).ledger = s.ledger := by
  induction a3 generalizing s with
  | zero => rfl
  | succ n ih =>
    unfold cancelSections
    dsimp only
    repeat' split
    · rfl
    · rfl
    · rw [ih, cancelSection_ledger, modTx_ledger]

@[simp] theorem cancelChannel_ledger (a1 : Nat) (a2 : Nat) (a3 : MapRefusal) (s : State)
    : (cancelChannel a1 a2 a3 s).ledger = s.ledger := by
  unfold cancelChannel
  simp only []
  (repeat' (first | split | (refine (forEach_ledger _ _ _ ?_).trans ?_; intro _ _) | (refine (foldl_ledger _ _ ?_ _).trans ?_; intro _ _))) <;> simp

@[simp] theorem settleGrants_ledger (s : State) : (settleGrants s).ledger = s.ledger := by
  unfold settleGrants
  (try simp only [])
  (repeat' (first | split | (refine (forEach_ledger _ _ _ ?_).trans ?_; intro _ _) | (refine (foldl_ledger _ _ ?_ _).trans ?_; intro _ _))) <;> simp

@[simp] theorem showPins_ledger (a1 : State) (s : State) : (showPins a1 s).ledger = s.ledger := by
  unfold showPins
  refine forEach_ledger _ _ _ (fun i t => ?_)
  split
  · rfl
  · exact emit_ledger _ _

@[simp] theorem movePin_ledger (a1 : Nat) (a2 : State → State) (s : State)
    (ha2 : ∀ x0, (a2 x0).ledger = x0.ledger) : (movePin a1 a2 s).ledger = s.ledger := by
  unfold movePin
  (try simp only [])
  (repeat' (first | split | (refine (forEach_ledger _ _ _ ?_).trans ?_; intro _ _) | (refine (foldl_ledger _ _ ?_ _).trans ?_; intro _ _))) <;> simp_all

@[simp] theorem sealNow_ledger (a1 : TxMsg) (a2 : Nat) (a3 : Nat) (s : State)
    : (sealNow a1 a2 a3 s).2.ledger = s.ledger := by
  unfold sealNow
  split <;> simp

@[simp] theorem newMessage_ledger (a1 : Nat) (a2 : Nat) (a3 : Bytes) (s : State)
    : (newMessage a1 a2 a3 s).2.ledger = s.ledger := by
  unfold newMessage
  simp

@[simp] theorem putMessage_ledger (a1 : Nat) (a2 : TxMsg) (s : State)
    : (putMessage a1 a2 s).ledger = s.ledger := by
  unfold putMessage
  split <;> simp

@[simp] theorem queueMessage_ledger (a1 : Nat) (a2 : Nat) (a3 : Nat) (a4 : Bytes) (s : State)
    : (queueMessage a1 a2 a3 a4 s).ledger = s.ledger := by
  unfold queueMessage
  simp

@[simp] theorem queueChannelState_ledger (a1 : Nat) (s : State)
    : (queueChannelState a1 s).ledger = s.ledger := by
  unfold queueChannelState
  simp
  (repeat' split) <;> simp

/-! ### ActOps -/

@[simp] theorem zeroGroup_ledger (a1 : Nat) (s : State) : (zeroGroup a1 s).ledger = s.ledger := by
  unfold zeroGroup
  simp

@[simp] theorem endLone_ledger (a1 : Nat) (s : State) : (endLone a1 s).ledger = s.ledger := by
  unfold endLone
  split <;> simp

@[simp] theorem endGroups_ledger (s : State) : (endGroups s).ledger = s.ledger := by
  unfold endGroups
  (repeat' split) <;> simp [apply_ite State.ledger]

@[simp] theorem discardAlloc_ledger (a1 : Nat) (s : State) : (discardAlloc a1 s).ledger = s.ledger := by
  unfold discardAlloc
  simp only []
  (repeat' (first | split | (refine (forEach_ledger _ _ _ ?_).trans ?_; intro _ _) | (refine (foldl_ledger _ _ ?_ _).trans ?_; intro _ _))) <;> simp

@[simp] theorem endAllocs_ledger (s : State) : (endAllocs s).ledger = s.ledger := by
  unfold endAllocs
  simp
  (repeat' (first | split | (refine (forEach_ledger _ _ _ ?_).trans ?_; intro _ _) | (refine (foldl_ledger _ _ ?_ _).trans ?_; intro _ _))) <;> simp_all

@[simp] theorem moveAct_ledger (a1 : Nat) (a2 : Act) (a3 : Nat) (a4 : ActChan → ActChan) (s : State)
    : (moveAct a1 a2 a3 a4 s).ledger = s.ledger := by
  unfold moveAct
  simp

@[simp] theorem checkProfiled_ledger (a1 : Nat) (s : State)
    : (checkProfiled a1 s).ledger = s.ledger := by
  unfold checkProfiled
  simp
  (repeat' split) <;> simp

@[simp] theorem lightUp_ledger (a1 : Nat) (s : State) : (lightUp a1 s).ledger = s.ledger := by
  unfold lightUp
  (repeat' split) <;> simp

@[simp] theorem actEnterSync_ledger (a1 : Nat) (s : State) : (actEnterSync a1 s).ledger = s.ledger := by
  unfold actEnterSync
  (repeat' split) <;> simp

@[simp] theorem actLeaveSync_ledger (a1 : Nat) (s : State) : (actLeaveSync a1 s).ledger = s.ledger := by
  unfold actLeaveSync
  (repeat' split) <;> simp

@[simp] theorem leaveSync_ledger (a1 : Nat) (s : State) : (leaveSync a1 s).ledger = s.ledger := by
  unfold leaveSync
  simp
  (repeat' split) <;> simp

@[simp] theorem stopRx_ledger (a1 : Nat) (s : State) : (stopRx a1 s).ledger = s.ledger := by
  unfold stopRx
  split <;> simp

@[simp] theorem goDark_ledger (a1 : Nat) (s : State) : (goDark a1 s).ledger = s.ledger := by
  unfold goDark
  split <;> simp

@[simp] theorem syncTx_ledger (a1 : Nat) (s : State) : (syncTx a1 s).ledger = s.ledger := by
  unfold syncTx
  simp

@[simp] theorem noteWithdrawn_ledger (s : State) : (noteWithdrawn s).ledger = s.ledger := by
  unfold noteWithdrawn
  simp

@[simp] theorem withdraw_ledger (a1 : Nat) (a2 : Trigger) (a3 : Nat) (s : State)
    : (withdraw a1 a2 a3 s).ledger = s.ledger := by
  unfold withdraw
  simp

@[simp] theorem switchOver_ledger (a1 : Nat) (a2 : Trigger) (s : State)
    : (switchOver a1 a2 s).ledger = s.ledger := by
  unfold switchOver
  simp
  (repeat' split) <;> simp

/-! ### TimeOps -/

@[simp] theorem modServo_ledger (a1 : TimeDomain) (a2 : Servo → Servo) (s : State)
    : (modServo a1 a2 s).ledger = s.ledger := by
  unfold modServo
  split <;> simp

@[simp] theorem awaitReplica_ledger (a1 : Nat) (s : State) : (awaitReplica a1 s).ledger = s.ledger := by
  unfold awaitReplica
  simp

@[simp] theorem recomputeGates_ledger (s : State) : (recomputeGates s).ledger = s.ledger := by
  unfold recomputeGates
  simp only []
  (repeat' (first | split | (refine (forEach_ledger _ _ _ ?_).trans ?_; intro _ _) | (refine (foldl_ledger _ _ ?_ _).trans ?_; intro _ _))) <;> simp

@[simp] theorem timeSetEvent_ledger (a1 : Nat) (s : State) : (timeSetEvent a1 s).ledger = s.ledger := by
  unfold timeSetEvent
  simp

@[simp] theorem moveTime_ledger (a1 : Int) (a2 : Nat) (s : State)
    : (moveTime a1 a2 s).ledger = s.ledger := by
  unfold moveTime
  simp

@[simp] theorem setDomState_ledger (a1 : DomCause) (a2 : TimeDomain) (a3 : DomState) (s : State)
    : (setDomState a1 a2 a3 s).ledger = s.ledger := by
  unfold setDomState
  simp
  (repeat' split) <;> simp

@[simp] theorem reachLocked_ledger (a1 : TimeDomain) (s : State)
    : (reachLocked a1 s).ledger = s.ledger := by
  unfold reachLocked
  simp

@[simp] theorem judgeLock_ledger (a1 : TimeDomain) (a2 : Int) (s : State)
    : (judgeLock a1 a2 s).ledger = s.ledger := by
  unfold judgeLock
  simp
  (repeat' split) <;> simp

@[simp] theorem servoStep_ledger (a1 : TimeDomain) (a2 : Int) (a3 : Nat) (s : State)
    : (servoStep a1 a2 a3 s).ledger = s.ledger := by
  unfold servoStep
  simp
  (repeat' split) <;> simp

@[simp] theorem toHoldover_ledger (a1 : DomCause) (a2 : TimeDomain) (s : State)
    : (toHoldover a1 a2 s).ledger = s.ledger := by
  unfold toHoldover
  simp

@[simp] theorem sourceSet_ledger (a1 : TimeDomain) (a2 : Bool) (s : State)
    : (sourceSet a1 a2 s).ledger = s.ledger := by
  unfold sourceSet
  (repeat' split) <;> simp

@[simp] theorem enterSleep_ledger (s : State) : (enterSleep s).ledger = s.ledger := by
  unfold enterSleep
  simp

@[simp] theorem sleepOnOscillator_ledger (s : State) : (sleepOnOscillator s).ledger = s.ledger := by
  unfold sleepOnOscillator
  (repeat' split) <;> simp

@[simp] theorem endSlew_ledger (s : State) : (endSlew s).ledger = s.ledger := by
  unfold endSlew
  simp

@[simp] theorem passEdge_ledger (s : State) : (passEdge s).ledger = s.ledger := by
  unfold passEdge
  (repeat' split) <;> simp

@[simp] theorem leaveSleep_ledger (s : State) : (leaveSleep s).ledger = s.ledger := by
  unfold leaveSleep
  split
  · rfl
  · rw [raise_ledger, passTo_ledger]
    have key : ∀ (x : State) (u : Time), ({ x with time := u } : State).ledger = x.ledger := fun _ _ => rfl
    rw [apply_ite State.ledger, endSlew_ledger, ite_self]
    simp only [toHoldover_ledger, timeSetEvent_ledger]
    exact key _ _

/-! ### Time -/

@[simp] theorem switchTo_ledger (a1 : TimeDomain) (s : State) : (switchTo a1 s).ledger = s.ledger := by
  unfold switchTo
  simp
  (repeat' split) <;> simp

theorem execSlewEnd_ledger (s : State) : ∀ t, (execSlewEnd s) = .next t → t.ledger = s.ledger := by
  unfold execSlewEnd
  intro t
  (repeat' split) <;> (rintro ⟨⟩; simp)

theorem execDomainHoldover_ledger (a1 : TimeDomain) (s : State) : ∀ t, (execDomainHoldover a1 s)
    = .next t → t.ledger = s.ledger := by
  unfold execDomainHoldover
  intro t
  simp only []
  (repeat' split) <;> (rintro ⟨⟩; simp)

theorem execServoSample_ledger (a1 : TimeDomain) (a2 : Int) (a3 : Nat) (s : State)
    : ∀ t, (execServoSample a1 a2 a3 s) = .next t → t.ledger = s.ledger := by
  unfold execServoSample
  intro t
  (repeat' split) <;> (rintro ⟨⟩; simp)

theorem execTodFieldSample_ledger (s : State) : ∀ t, (execTodFieldSample s)
    = .next t → t.ledger = s.ledger := by
  unfold execTodFieldSample
  intro t
  (repeat' split) <;> (rintro ⟨⟩; simp)

@[simp] theorem estimate_ledger (s : State) : (estimate s).ledger = s.ledger := by
  unfold estimate
  simp
  (repeat' split) <;> simp

theorem execAsymmetryEstimate_ledger (s : State) : ∀ t, (execAsymmetryEstimate s)
    = .next t → t.ledger = s.ledger := by
  unfold execAsymmetryEstimate
  intro t
  (repeat' split) <;> (rintro ⟨⟩; simp)

theorem execTimeSnap_ledger (a1 : Word32) (s : State) : ∀ t, (execTimeSnap a1 s)
    = .next t → t.ledger = s.ledger := by
  unfold execTimeSnap
  (try split) <;> rintro t ⟨⟩ <;> (try rfl) <;> refine afterReady_ledger _ _ ?_ <;> intro x <;> (try simp only []) <;> (repeat' split) <;> simp

theorem execReferenceInputChange_ledger (a1 : Bool) (s : State) : ∀ t, (execReferenceInputChange a1 s)
    = .next t → t.ledger = s.ledger := by
  unfold execReferenceInputChange
  intro t
  (repeat' split) <;> (rintro ⟨⟩; simp)

theorem execPpsOutEdge_ledger (s : State) : ∀ t, (execPpsOutEdge s)
    = .next t → t.ledger = s.ledger := by
  unfold execPpsOutEdge
  intro t
  (repeat' split) <;> (rintro ⟨⟩; simp)

theorem execTodOutMessage_ledger (s : State) : ∀ t, (execTodOutMessage s)
    = .next t → t.ledger = s.ledger := by
  have key : ∀ (x : State) (n : Nat) (u : Time),
      ({ x with fresh := n, time := u } : State).ledger = x.ledger := fun _ _ _ => rfl
  unfold execTodOutMessage
  split
  · apply ledger_of_ite
    · exact ledger_of_next (by rw [emit_ledger, key, passTo_ledger])
    · exact ledger_of_next rfl
  · exact ledger_of_next rfl

@[simp] theorem takeEdge_ledger (s : State) : (takeEdge s).ledger = s.ledger := by
  unfold takeEdge
  simp
  (repeat' split) <;> simp

theorem execPpsInEdge_ledger (s : State) (a1 : Nat) : ∀ t, (execPpsInEdge s a1)
    = .next t → t.ledger = s.ledger := by
  unfold execPpsInEdge
  intro t
  (repeat' split) <;> (rintro ⟨⟩; simp)

theorem execTodInMessage_ledger (a1 : Bytes) (s : State) (a2 : Bool) : ∀ t, (execTodInMessage a1 s a2)
    = .next t → t.ledger = s.ledger := by
  unfold execTodInMessage
  intro t
  (repeat' split) <;> (rintro ⟨⟩; simp)

@[simp] theorem deliverStamp_ledger (a1 : Nat) (a2 : TsEntry) (s : State)
    : (deliverStamp a1 a2 s).ledger = s.ledger := by
  unfold deliverStamp
  (repeat' split) <;> simp

@[simp] theorem deliverLost_ledger (a1 : Nat) (a2 : Bool × Nat) (s : State)
    : (deliverLost a1 a2 s).ledger = s.ledger := by
  unfold deliverLost
  split <;> simp

theorem execTimestampDrain_ledger (a1 : Fin 16) (s : State) : ∀ t, (execTimestampDrain a1 s)
    = .next t → t.ledger = s.ledger := by
  unfold execTimestampDrain
  intro t
  simp only []
  (repeat' split) <;> (rintro ⟨⟩; (repeat' (first | split | (refine (forEach_ledger _ _ _ ?_).trans ?_; intro _ _) | (refine (foldl_ledger _ _ ?_ _).trans ?_; intro _ _))) <;> simp)

/-! ### BurstOps -/

@[simp] theorem addBurst_ledger (a1 : Nat) (a2 : Burst) (s : State)
    : (addBurst a1 a2 s).ledger = s.ledger := by
  unfold addBurst
  simp

@[simp] theorem takeGrant_ledger (a1 : Nat) (a2 : Nat) (a3 : Word64) (s : State)
    : (takeGrant a1 a2 a3 s).ledger = s.ledger := by
  unfold takeGrant
  simp
  (repeat' split) <;> simp

@[simp] theorem takeWindow_ledger (a1 : Nat) (a2 : Nat) (a3 : Word64) (s : State)
    : (takeWindow a1 a2 a3 s).ledger = s.ledger := by
  unfold takeWindow
  simp
  (repeat' split) <;> simp

@[simp] theorem processMap_ledger (a1 : Nat) (a2 : Nat) (a3 : List Word64) (s : State)
    : (processMap a1 a2 a3 s).ledger = s.ledger := by
  unfold processMap
  exact foldl_ledger _ _ (fun t a => by (repeat' split) <;> simp) _

@[simp] theorem emitPfe_ledger (a1 : Staged) (a2 : Bool) (a3 : Bool) (a4 : Bool) (a5 : Bytes)
    (s : State) : (emitPfe a1 a2 a3 a4 a5 s).2.ledger = s.ledger := by
  unfold emitPfe
  (repeat' split) <;> simp

@[simp] theorem fillSection_ledger (a1 : Nat) (a2 : Bool) (a3 : Nat) (a4 : Fill) (s : State)
    : (fillSection a1 a2 a3 a4 s).2.ledger = s.ledger := by
  induction a3 generalizing a4 s with
  | zero => rfl
  | succ n ih =>
    unfold fillSection
    dsimp only
    repeat' split
    all_goals first | rfl | simp [ih]

@[simp] theorem takeMessage_ledger (a1 : Nat) (a2 : Nat) (a3 : Nat) (s : State)
    : (takeMessage a1 a2 a3 s).2.2.ledger = s.ledger := by
  unfold takeMessage
  split <;> simp

@[simp] theorem commitGrant_ledger (a1 : Nat) (a2 : Bool) (a3 : Nat) (a4 : Nat) (a5 : Grant) (s : State)
    : (commitGrant a1 a2 a3 a4 a5 s).2.ledger = s.ledger := by
  unfold commitGrant
  simp
  (repeat' split) <;> simp

@[simp] theorem windowSection_ledger (a1 : Nat) (a2 : Nat) (a3 : Nat) (a4 : Grant) (s : State)
    : (windowSection a1 a2 a3 a4 s).2.ledger = s.ledger := by
  unfold windowSection
  simp

@[simp] theorem modBurst_ledger (a1 : Nat) (a2 : Nat) (a3 : Burst → Burst) (s : State)
    : (modBurst a1 a2 a3 s).ledger = s.ledger := by
  unfold modBurst
  simp

@[simp] theorem refuseRest_ledger (a1 : Nat) (a2 : Burst) (a3 : MapRefusal) (s : State)
    : (refuseRest a1 a2 a3 s).ledger = s.ledger := by
  unfold refuseRest
  simp only []
  (repeat' (first | split | (refine (forEach_ledger _ _ _ ?_).trans ?_; intro _ _) | (refine (foldl_ledger _ _ ?_ _).trans ?_; intro _ _))) <;> simp

@[simp] theorem commitNext_ledger (a1 : Nat) (s : State) : (commitNext a1 s).ledger = s.ledger := by
  unfold commitNext
  simp
  (repeat' split) <;> simp

@[simp] theorem levelZero_ledger (a1 : Nat) (s : State) : (levelZero a1 s).ledger = s.ledger := by
  unfold levelZero
  split <;> simp

@[simp] theorem driveBen_ledger (a1 : Nat) (a2 : Bool) (s : State)
    : (driveBen a1 a2 s).ledger = s.ledger := by
  unfold driveBen
  simp

@[simp] theorem launchBurst_ledger (a1 : Nat) (a2 : Burst) (s : State)
    : (launchBurst a1 a2 s).ledger = s.ledger := by
  unfold launchBurst
  simp
  (repeat' split) <;> simp

@[simp] theorem sentUpstream_ledger (a1 : Pkt) (s : State) : (sentUpstream a1 s).ledger = s.ledger := by
  unfold sentUpstream
  simp

@[simp] theorem bookSection_ledger (a1 : Nat) (a2 : Section) (s : State)
    : (bookSection a1 a2 s).ledger = s.ledger := by
  unfold bookSection
  simp only []
  (repeat' (first | split | (refine (forEach_ledger _ _ _ ?_).trans ?_; intro _ _) | (refine (foldl_ledger _ _ ?_ _).trans ?_; intro _ _))) <;> simp

@[simp] theorem endSingle_ledger (ch : Nat) (s : State) : (endSingle ch s).ledger = s.ledger := by
  unfold endSingle
  simp
  (repeat' split) <;> simp

@[simp] theorem endBurst_ledger (a1 : Nat) (a2 : Burst) (s : State)
    : (endBurst a1 a2 s).ledger = s.ledger := by
  unfold endBurst
  simp
  (repeat' (first | split | (refine (forEach_ledger _ _ _ ?_).trans ?_; intro _ _) | (refine (foldl_ledger _ _ ?_ _).trans ?_; intro _ _))) <;> simp_all

@[simp] theorem finishBursts_ledger (a1 : Nat) (s : State) : (finishBursts a1 s).ledger = s.ledger := by
  unfold finishBursts
  simp only []
  (repeat' (first | split | (refine (forEach_ledger _ _ _ ?_).trans ?_; intro _ _) | (refine (foldl_ledger _ _ ?_ _).trans ?_; intro _ _))) <;> simp

/-! ### PowerOps -/

@[simp] theorem dropMember_ledger (a1 : Nat) (s : State) : (dropMember a1 s).ledger = s.ledger := by
  unfold dropMember
  split <;> simp

@[simp] theorem reportLink_ledger (a1 : Nat) (a2 : Nat) (a3 : Bool) (s : State)
    : (reportLink a1 a2 a3 s).ledger = s.ledger := by
  unfold reportLink
  split <;> simp

@[simp] theorem linkGoesDown_ledger (a1 : Nat) (a2 : Nat) (s : State)
    : (linkGoesDown a1 a2 s).ledger = s.ledger := by
  unfold linkGoesDown
  simp

@[simp] theorem muteChannel_ledger (a1 : Nat) (s : State) : (muteChannel a1 s).ledger = s.ledger := by
  unfold muteChannel
  simp

@[simp] theorem retainBank_ledger (a1 : Nat) (s : State) : (retainBank a1 s).ledger = s.ledger := by
  unfold retainBank
  simp

@[simp] theorem enterPower_ledger (a1 : PowerState) (s : State)
    : (enterPower a1 s).ledger = s.ledger := by
  unfold enterPower
  simp

@[simp] theorem silenceRx_ledger (a1 : Nat) (s : State) : (silenceRx a1 s).ledger = s.ledger := by
  unfold silenceRx
  simp
  (repeat' split) <;> simp

@[simp] theorem enterDeep_ledger (a1 : Nat) (s : State) : (enterDeep a1 s).ledger = s.ledger := by
  unfold enterDeep
  simp

@[simp] theorem completeExit_ledger (l : Nat) (s : State) : (completeExit l s).ledger = s.ledger := by
  unfold completeExit
  (repeat' split) <;> simp

@[simp] theorem sinkLane_ledger (a1 : Nat) (s : State) : (sinkLane a1 s).ledger = s.ledger := by
  unfold sinkLane
  (repeat' split) <;> simp

@[simp] theorem wakeBankFreely_ledger (g : Nat) (s : State) : (wakeBankFreely g s).ledger = s.ledger := by
  unfold wakeBankFreely
  simp
  (repeat' split) <;> simp

@[simp] theorem startExit_ledger (s : State) : (startExit s).ledger = s.ledger := by
  unfold startExit
  try simp only []
  (repeat' split) <;> simp [apply_ite State.ledger]

@[simp] theorem requestWake_ledger (a1 : WakeSource) (s : State)
    : (requestWake a1 s).ledger = s.ledger := by
  unfold requestWake
  (repeat' split) <;> simp

@[simp] theorem reportEnergy_ledger (a1 : Nat) (s : State) : (reportEnergy a1 s).ledger = s.ledger := by
  unfold reportEnergy
  simp

@[simp] theorem releaseEnergy_ledger (a1 : Nat) (s : State)
    : (releaseEnergy a1 s).ledger = s.ledger := by
  unfold releaseEnergy
  split <;> simp

@[simp] theorem startD3_ledger (s : State) : (startD3 s).ledger = s.ledger := by
  unfold startD3
  try simp only []
  (repeat' split) <;> simp [apply_ite State.ledger]

@[simp] theorem resumeChannel_ledger (a1 : Nat) (s : State)
    : (resumeChannel a1 s).ledger = s.ledger := by
  unfold resumeChannel
  simp
  (repeat' split) <;> simp

@[simp] theorem sendDozeExit_ledger (a1 : Nat) (s : State) : (sendDozeExit a1 s).ledger = s.ledger := by
  unfold sendDozeExit
  simp

@[simp] theorem answerSag_ledger (a1 : Nat) (s : State) : (answerSag a1 s).ledger = s.ledger := by
  unfold answerSag
  simp
  (repeat' split) <;> simp

/-! ### GateOps -/

@[simp] theorem setPolicer_ledger (a1 : Nat) (a2 : Policer) (s : State)
    : (setPolicer a1 a2 s).ledger = s.ledger := by
  unfold setPolicer
  simp

@[simp] theorem setShaper_ledger (a1 : Nat) (a2 : Shaper) (s : State)
    : (setShaper a1 a2 s).ledger = s.ledger := by
  unfold setShaper
  simp

@[simp] theorem chargeShapers_ledger (a1 : Nat) (a2 : Nat) (s : State)
    : (chargeShapers a1 a2 s).ledger = s.ledger := by
  unfold chargeShapers
  try simp only []
  (repeat' split) <;> simp [apply_ite State.ledger]

@[simp] theorem modGate_ledger (a1 : Nat) (a2 : Gate → Gate) (s : State)
    : (modGate a1 a2 s).ledger = s.ledger := by
  unfold modGate
  simp

@[simp] theorem countPaused_ledger (a1 : Nat) (a2 : Nat) (s : State)
    : (countPaused a1 a2 s).ledger = s.ledger := by
  unfold countPaused
  simp
  (repeat' split) <;> simp

@[simp] theorem reloadPause_ledger (a1 : Nat) (a2 : Nat) (a3 : Nat) (s : State)
    : (reloadPause a1 a2 a3 s).ledger = s.ledger := by
  unfold reloadPause
  simp

end Sys2Proof.Machine
end

