-- ==== Sys2Proof/Laws/LedgerSteps.lean ====
section
/-! SUPPORT. What the steps of the fibre, traffic, cipher, power and port units leave alone: the queue of
waiting commands, the mailbox memory, the journal and the device state. -/

namespace Sys2Proof.Machine

open Sys2Proof

/-! ### Traffic -/

theorem execShaperRefill_ledger (s : State) : ∀ t, (execShaperRefill s)
    = .next t → t.ledger = s.ledger := by
  unfold execShaperRefill
  rintro t ⟨⟩
  simp

theorem execXoffRefresh_ledger (a1 : Fin 16) (a2 : Fin 8) (s : State) : ∀ t, (execXoffRefresh a1 a2 s)
    = .next t → t.ledger = s.ledger := by
  unfold execXoffRefresh
  intro t
  simp only []
  (repeat' split) <;> (rintro ⟨⟩; simp)

theorem execPauseTimerExpiry_ledger (a1 : Fin 16) (s : State) : ∀ t, (execPauseTimerExpiry a1 s)
    = .next t → t.ledger = s.ledger := by
  unfold execPauseTimerExpiry; intro t h; dsimp only at h; split at h <;> rw [← next_inj h]
  rw [forEach_ledger, passTo_ledger]
  intro i t; split <;> simp

theorem execGateChange_ledger (a1 : Word16) (s : State) : ∀ t, (execGateChange a1 s)
    = .next t → t.ledger = s.ledger := by
  unfold execGateChange
  intro t
  simp only []
  (repeat' split) <;> (rintro ⟨⟩; simp)

theorem execGateListSwitch_ledger (a1 : Word16) (s : State) : ∀ t, (execGateListSwitch a1 s)
    = .next t → t.ledger = s.ledger := by
  unfold execGateListSwitch
  intro t
  simp only []
  (repeat' split) <;> (rintro ⟨⟩; simp)

@[simp] theorem checkHead_ledger (a1 : Nat) (a2 : Copy → Bool) (s : State)
    : (checkHead a1 a2 s).ledger = s.ledger := by
  unfold checkHead
  (repeat' split) <;> simp

theorem execSojournCheck_ledger (a1 : Nat) (s : State) : ∀ t, (execSojournCheck a1 s)
    = .next t → t.ledger = s.ledger := by
  unfold execSojournCheck
  intro t
  (repeat' split) <;> (rintro ⟨⟩; simp)

theorem execSpillReadback_ledger (a1 : Nat) (s : State) : ∀ t, (execSpillReadback a1 s)
    = .next t → t.ledger = s.ledger := by
  unfold execSpillReadback
  intro t
  (repeat' split) <;> (rintro ⟨⟩; simp)

/-! ### SchedOps -/

@[simp] theorem dropHeads_ledger (a1 : Nat) (a2 : Copy → Bool) (s : State)
    : (dropHeads a1 a2 s).ledger = s.ledger := by
  unfold dropHeads
  (try simp only [])
  (repeat' (first | split | (refine (forEach_ledger _ _ _ ?_).trans ?_; intro _ _) | (refine (foldl_ledger _ _ ?_ _).trans ?_; intro _ _))) <;> simp

@[simp] theorem dropLate_ledger (a1 : Nat) (s : State) : (dropLate a1 s).ledger = s.ledger := by
  unfold dropLate
  simp

/-! ### ResetOps -/

@[simp] theorem modSlot_ledger (a1 : Nat) (a2 : Slot → Slot) (s : State)
    : (modSlot a1 a2 s).ledger = s.ledger := by
  unfold modSlot
  simp

@[simp] theorem amberStart_ledger (a1 : Nat) (a2 : Bytes) (a3 : Nat) (s : State)
    : (amberStart a1 a2 a3 s).ledger = s.ledger := by
  unfold amberStart
  simp
  (repeat' split) <;> simp

@[simp] theorem endTimes_ledger (p : Nat) (s : State) : (endTimes p s).ledger = s.ledger := by
  unfold endTimes
  simp
  (repeat' split) <;> simp

@[simp] theorem stopAll_ledger (s : State) : (stopAll s).ledger = s.ledger := by
  unfold stopAll
  simp

/-! ### ReleaseOps -/

@[simp] theorem dropMacsec_ledger (a1 : Nat) (a2 : Nat) (a3 : Pkt) (s : State)
    : (dropMacsec a1 a2 a3 s).ledger = s.ledger := by
  unfold dropMacsec
  split <;> simp

@[simp] theorem countSa_ledger (a1 : Nat) (a2 : Nat) (a3 : Nat) (a4 : Nat) (s : State)
    : (countSa a1 a2 a3 a4 s).ledger = s.ledger := by
  unfold countSa
  simp

@[simp] theorem countGood_ledger (a1 : Nat) (a2 : Bytes) (s : State)
    : (countGood a1 a2 s).ledger = s.ledger := by
  unfold countGood
  simp

@[simp] theorem macsecReceive_ledger (a1 : Nat) (a2 : Pkt) (s : State)
    : (macsecReceive a1 a2 s).ledger = s.ledger := by
  unfold macsecReceive
  simp
  (repeat' split) <;> simp

theorem macsecSend_ledger (a1 : Nat) (r : CipherRef) (a2 : Bytes) (s : State) : ∀ t, (macsecSend a1 r a2 s)
    = some t → t.ledger = s.ledger := by
  unfold macsecSend
  intro t
  simp only []
  (repeat' split) <;> (intro h; simp at h; try (subst h; simp))

@[simp] theorem releaseMacsecIn_ledger (a1 : Nat) (a2 : Pkt) (a3 : Nat) (a4 : Nat) (a5 : Nat) (a6 : Nat)
    (a7 : Nat) (a8 : Bytes) (s : State)
    : (releaseMacsecIn a1 a2 a3 a4 a5 a6 a7 a8 s).ledger = s.ledger := by
  unfold releaseMacsecIn
  simp
  (repeat' split) <;> simp

@[simp] theorem releaseMacsecOut_ledger (a1 : Nat) (a2 : CipherReq) (a3 : Nat) (a4 : Bytes) (s : State)
    : (releaseMacsecOut a1 a2 a3 a4 s).ledger = s.ledger := by
  unfold releaseMacsecOut
  simp
  (repeat' split) <;> simp

@[simp] theorem releaseUpstream_ledger (a1 : Nat) (a2 : CipherReq) (a3 : Nat) (a4 : Bytes) (s : State)
    : (releaseUpstream a1 a2 a3 a4 s).ledger = s.ledger := by
  unfold releaseUpstream
  (repeat' split) <;> simp

@[simp] theorem releaseFibre_ledger (a1 : Reasm) (a2 : Nat) (a3 : Nat) (a4 : Bytes) (s : State)
    : (releaseFibre a1 a2 a3 a4 s).ledger = s.ledger := by
  unfold releaseFibre
  split <;> simp

@[simp] theorem dropRequest_ledger (reason : Nat) (r : CipherReq) (s : State) : (dropRequest reason r s).ledger = s.ledger := by
  unfold dropRequest
  (repeat' split) <;> simp

@[simp] theorem loseRequest_ledger (r : CipherReq) (s : State) : (loseRequest r s).ledger = s.ledger := by
  unfold loseRequest
  simp
  (repeat' split) <;> simp

@[simp] theorem countSent_ledger (a1 : Nat) (a2 : Nat) (a3 : Nat) (s : State)
    : (countSent a1 a2 a3 s).ledger = s.ledger := by
  unfold countSent
  simp

@[simp] theorem ownStamp_ledger (a1 : Nat) (a2 : OwnFrame) (s : State)
    : (ownStamp a1 a2 s).ledger = s.ledger := by
  unfold ownStamp
  split <;> simp

@[simp] theorem putOwn_ledger (p : Nat) (f : OwnFrame) (b : Bytes) (s : State)
    : (putOwn p f b s).ledger = s.ledger := by
  unfold putOwn
  simp

@[simp] theorem releaseOwn_ledger (port : Nat) (f : OwnFrame) (req : CipherReq) (status : Nat) (out : Bytes)
    (s : State) : (releaseOwn port f req status out s).ledger = s.ledger := by
  unfold releaseOwn
  (repeat' split) <;> simp

@[simp] theorem applyResult_ledger (a1 : Result) (s : State)
    : (applyResult a1 s).ledger = s.ledger := by
  unfold applyResult
  split
  · simp
  · split <;> simp

@[simp] theorem staleCheck_ledger (a1 : Result) (s : State)
    : (staleCheck a1 s).2.ledger = s.ledger := by
  unfold staleCheck
  (repeat' split) <;> simp

@[simp] theorem countFailure_ledger (a1 : Nat) (a2 : Nat) (s : State)
    : (countFailure a1 a2 s).ledger = s.ledger := by
  unfold countFailure
  split <;> simp

@[simp] theorem freeService_ledger (a1 : Result) (s : State)
    : (freeService a1 s).ledger = s.ledger := by
  unfold freeService
  split <;> simp

@[simp] theorem returnResult_ledger (a1 : Result) (s : State)
    : (returnResult a1 s).ledger = s.ledger := by
  unfold returnResult
  simp

@[simp] theorem releaseSource_ledger (a1 : Nat) (a2 : Nat) (s : State)
    : (releaseSource a1 a2 s).ledger = s.ledger := by
  induction a2 generalizing s with
  | zero => rfl
  | succ n ih =>
    unfold releaseSource
    dsimp only
    split
    · rfl
    · rw [ih, returnResult_ledger]; rfl

@[simp] theorem finishRequest_ledger (a1 : Result) (s : State)
    : (finishRequest a1 s).ledger = s.ledger := by
  unfold finishRequest
  simp

@[simp] theorem eraseRequests_ledger (s : State) : (eraseRequests s).ledger = s.ledger := by
  unfold eraseRequests
  simp

@[simp] theorem zeroKeys_ledger (s : State) : (zeroKeys s).ledger = s.ledger := by
  unfold zeroKeys
  simp

/-! ### Cipher -/

@[simp] theorem requestKey_ledger (a1 : Nat) (a2 : Nat) (s : State)
    : (requestKey a1 a2 s).ledger = s.ledger := by
  unfold requestKey
  simp

@[simp] theorem writeCak_ledger (a1 : Nat) (a2 : Bytes) (a3 : Bytes) (s : State)
    : (writeCak a1 a2 a3 s).ledger = s.ledger := by
  unfold writeCak
  simp

@[simp] theorem popRequest_ledger (a1 : Nat) (s : State) : (popRequest a1 s).ledger = s.ledger := by
  unfold popRequest
  simp

@[simp] theorem bar4Read_ledger (off len : Nat) (s : State) : (bar4Read off len s).ledger = s.ledger := by
  unfold bar4Read
  (repeat' split) <;> simp

@[simp] theorem configWord_ledger (off : Nat) (s : State) : (configWord off s).2.ledger = s.ledger := by
  unfold configWord
  simp
  (repeat' split) <;> simp

@[simp] theorem joinPipe_ledger (a1 : Nat) (a2 : CipherReq) (s : State)
    : (joinPipe a1 a2 s).ledger = s.ledger := by
  unfold joinPipe
  simp

theorem execCipherRequest_ledger (a1 : Fin 11) (s : State) : ∀ t, (execCipherRequest a1 s)
    = .next t → t.ledger = s.ledger := by
  unfold execCipherRequest
  intro t
  (repeat' split) <;> (rintro ⟨⟩; simp)

@[simp] theorem fillCache_ledger (e : KeyEntry) (s : State) : (fillCache e s).ledger = s.ledger := by
  unfold fillCache
  simp
  (repeat' split) <;> simp

theorem execKeyDerivationDone_ledger (s : State) : ∀ t, (execKeyDerivationDone s)
    = .next t → t.ledger = s.ledger := by
  unfold execKeyDerivationDone
  split
  · exact ledger_of_next rfl
  · dsimp only
    refine ledger_of_next ((forEach_ledger _ _ _ (fun _ _ => lookAhead_ledger _ _)).trans ?_)
    split <;> simp

@[simp] theorem nonceThreshold_ledger (a1 : CipherReq) (s : State)
    : (nonceThreshold a1 s).ledger = s.ledger := by
  unfold nonceThreshold
  simp

@[simp] theorem serveRequest_ledger (a1 : Nat) (a2 : CipherReq) (s : State)
    : (serveRequest a1 a2 s).2.ledger = s.ledger := by
  unfold serveRequest
  simp
  (repeat' split) <;> simp

@[simp] theorem enterPipe_ledger (a1 : Nat) (a2 : CipherReq) (s : State)
    : (enterPipe a1 a2 s).2.ledger = s.ledger := by
  unfold enterPipe
  simp

@[simp] theorem startRequest_ledger (a1 : Nat) (a2 : CipherReq) (s : State)
    : (startRequest a1 a2 s).ledger = s.ledger := by
  unfold startRequest
  simp

@[simp] theorem suspendBulk_ledger (a1 : Nat) (a2 : Result) (s : State)
    : (suspendBulk a1 a2 s).ledger = s.ledger := by
  unfold suspendBulk
  simp

@[simp] theorem resumeBulk_ledger (a1 : Nat) (a2 : Result) (s : State)
    : (resumeBulk a1 a2 s).ledger = s.ledger := by
  unfold resumeBulk
  simp

@[simp] theorem deriveHead_ledger (s : State) (a1 : Nat) : (deriveHead s a1).ledger = s.ledger := by
  unfold deriveHead
  (repeat' split) <;> simp

theorem execPipelineStart_ledger (a1 : Fin 16) (s : State) : ∀ t, (execPipelineStart a1 s)
    = .next t → t.ledger = s.ledger := by
  unfold execPipelineStart
  intro t
  (repeat' split) <;> (rintro ⟨⟩; simp)

theorem execBulkShare_ledger (a1 : Fin 16) (s : State) : ∀ t, (execBulkShare a1 s)
    = .next t → t.ledger = s.ledger := by
  unfold execBulkShare
  intro t
  simp only []
  (repeat' split) <;> (rintro ⟨⟩; simp)

@[simp] theorem endBulk_ledger (a1 : Nat) (s : State) : (endBulk a1 s).ledger = s.ledger := by
  unfold endBulk
  simp

@[simp] theorem endRequest_ledger (r : Result) (s : State) : (endRequest r s).ledger = s.ledger := by
  unfold endRequest
  simp

theorem execCipherResult_ledger (a1 : Fin 16) (s : State) : ∀ t, (execCipherResult a1 s)
    = .next t → t.ledger = s.ledger := by
  unfold execCipherResult
  intro t
  simp only []
  (repeat' split) <;> (rintro ⟨⟩; simp)

theorem execTagFailureCheck_ledger (s : State) : ∀ t, (execTagFailureCheck s)
    = .next t → t.ledger = s.ledger := by
  have key : ∀ (x : State) (c : Cipher), ({ x with cip := c } : State).ledger = x.ledger := fun _ _ => rfl
  unfold execTagFailureCheck
  apply ledger_of_ite
  · refine ledger_of_next ?_
    rw [forEach_ledger _ _ _ (fun i t => raise_ledger _ _ _ _ t), key, passTo_ledger]
  · exact ledger_of_next rfl

@[simp] theorem writeMessageSlots_ledger (a1 : Nat) (s : State)
    : (writeMessageSlots a1 s).ledger = s.ledger := by
  unfold writeMessageSlots
  simp

@[simp] theorem restoreSlots_ledger (s : State) : (restoreSlots s).ledger = s.ledger := by
  unfold restoreSlots
  simp only []
  (repeat' (first | split | (refine (forEach_ledger _ _ _ ?_).trans ?_; intro _ _) | (refine (foldl_ledger _ _ ?_ _).trans ?_; intro _ _))) <;> simp

/-! ### ObsOps -/

@[simp] theorem countIsland_ledger (a1 : Nat) (a2 : Nat) (a3 : Nat) (s : State)
    : (countIsland a1 a2 a3 s).ledger = s.ledger := by
  unfold countIsland
  simp

@[simp] theorem assertSource_ledger (a1 : Nat) (a2 : Bool) (s : State)
    : (assertSource a1 a2 s).ledger = s.ledger := by
  unfold assertSource
  simp

@[simp] theorem dyingGaspOnset_ledger (s : State) : (dyingGaspOnset s).ledger = s.ledger := by
  unfold dyingGaspOnset
  split <;> simp

@[simp] theorem noteGood_ledger (s : State) : (noteGood s).ledger = s.ledger := by
  unfold noteGood
  simp

@[simp] theorem laserFault_ledger (a1 : Nat) (a2 : Bool) (s : State)
    : (laserFault a1 a2 s).ledger = s.ledger := by
  unfold laserFault
  split <;> simp

/-! ### Faults -/

theorem execRandomReseed_ledger (s : State) : ∀ t, (execRandomReseed s)
    = .next t → t.ledger = s.ledger := by
  unfold execRandomReseed
  intro t
  (repeat' split) <;> (rintro ⟨⟩; simp)

@[simp] theorem beginThrottle_ledger (a1 : Nat) (s : State)
    : (beginThrottle a1 s).ledger = s.ledger := by
  unfold beginThrottle
  split <;> simp

@[simp] theorem noteReading_ledger (a1 : Fin 24 × Int) (s : State)
    : (noteReading a1 s).ledger = s.ledger := by
  unfold noteReading
  split <;> simp

theorem execThrottleRelease_ledger (s : State) : ∀ t, (execThrottleRelease s)
    = .next t → t.ledger = s.ledger := by
  have key : ∀ (x : State) (p : Power), ({ x with pow := p } : State).ledger = x.ledger := fun _ _ => rfl
  intro t h; unfold execThrottleRelease at h; split at h
  · rw [← next_inj h]; clear h; rw [raise_ledger, setCause_ledger, key, passTo_ledger]
  · rw [← next_inj h]

theorem execSensorFailed_ledger (a1 : Fin 24) (s : State) : ∀ t, (execSensorFailed a1 s)
    = .next t → t.ledger = s.ledger := by
  have y2 : ∀ (x y : State) (b : Bool) (_ : y.ledger = x.ledger), ({ y with hif := { x.hif with sensorFail := b } } : State).ledger = x.ledger := by
    intro x y b e; simp only [State.ledger, Prod.mk.injEq] at e ⊢; exact ⟨e.1, trivial, trivial, trivial, e.2.2.2.2⟩
  have y3 : ∀ n : Nat, ({ modSensor a1 (fun x => { x with failed := true }) (passTo n s) with
      hif := { (passTo n s).hif with sensorFail := true } } : State).ledger = s.ledger := by
    intro n; rw [y2 _ _ _ (modSensor_ledger _ _ _), passTo_ledger]
  intro t h; unfold execSensorFailed at h; split at h
  · rw [← next_inj h]
  · rw [← next_inj h]; exact y3 _

theorem execTxfaultTransition_ledger (a1 : Fin 4) (a2 : Bool) (s : State) (a3 : Nat)
    : ∀ t, (execTxfaultTransition a1 a2 s a3) = .next t → t.ledger = s.ledger := by
  unfold execTxfaultTransition
  intro t
  simp only []
  (repeat' split) <;> (rintro ⟨⟩; simp [apply_ite State.ledger])

@[simp] theorem isolateOptics_ledger (a1 : Bool) (s : State)
    : (isolateOptics a1 s).ledger = s.ledger := by
  unfold isolateOptics
  (try simp only [])
  (repeat' (first | split | (refine (forEach_ledger _ _ _ ?_).trans ?_; intro _ _) | (refine (foldl_ledger _ _ ?_ _).trans ?_; intro _ _))) <;> simp

theorem execVioOptLow_ledger (s : State) (a1 : Nat) : ∀ t, (execVioOptLow s a1)
    = .next t → t.ledger = s.ledger := by
  unfold execVioOptLow
  intro t
  (repeat' split) <;> (rintro ⟨⟩; simp)

theorem execVioOptRestore_ledger (s : State) (h : Nat) : ∀ t, (execVioOptRestore s h)
    = .next t → t.ledger = s.ledger := by
  unfold execVioOptRestore
  split
  · refine ledger_of_next (deglitch_ledger _ _ _ _ _ _ (fun x => ?_))
    rw [forEach_ledger _ _ _ (fun _ t => laserFault_ledger ..), isolateOptics_ledger]
  · exact ledger_of_next rfl

theorem execGpioInputTransition_ledger (a1 : Fin 16) (a2 : Bool) (s : State) (a3 : Nat)
    : ∀ t, (execGpioInputTransition a1 a2 s a3) = .next t → t.ledger = s.ledger := by
  unfold execGpioInputTransition
  intro t
  (repeat' split) <;> (rintro ⟨⟩; simp)

@[simp] theorem opticFailure_ledger (a1 : Nat) (s : State) : (opticFailure a1 s).ledger = s.ledger := by
  unfold opticFailure
  simp

theorem execOpticDiagRead_ledger (a1 : Fin 4) (a2 : Option Bytes) (s : State)
    : ∀ t, (execOpticDiagRead a1 a2 s) = .next t → t.ledger = s.ledger := by
  unfold execOpticDiagRead
  intro t
  (repeat' split) <;> (rintro ⟨⟩; simp)

theorem execJtagInstruction_ledger (a1 : JtagInstr) (s : State) : ∀ t, (execJtagInstruction a1 s)
    = .next t → t.ledger = s.ledger := by
  unfold execJtagInstruction
  intro t
  (repeat' split) <;> (rintro ⟨⟩; simp)

/-! ### Power -/

@[simp] theorem wakeDomain_ledger (a1 : Nat) (a2 : Bool) (s : State)
    : (wakeDomain a1 a2 s).ledger = s.ledger := by
  unfold wakeDomain
  simp

theorem execDomainWake_ledger (a1 : Fin 96) (a2 : Bool) (s : State) : ∀ t, (execDomainWake a1 a2 s)
    = .next t → t.ledger = s.ledger := by
  unfold execDomainWake
  intro t
  (repeat' split) <;> (rintro ⟨⟩; simp)

@[simp] theorem loseDomain_ledger (d : Nat) (s : State) : (loseDomain d s).ledger = s.ledger := by
  unfold loseDomain
  (repeat' split) <;> simp

theorem execDomainIdleOff_ledger (a1 : Fin 96) (s : State) : ∀ t, (execDomainIdleOff a1 s)
    = .next t → t.ledger = s.ledger := by
  unfold execDomainIdleOff
  intro t
  simp only []
  (repeat' split) <;> (rintro ⟨⟩; simp)

theorem execWakeSource_ledger (a1 : WakeSource) (s : State) : ∀ t, (execWakeSource a1 s)
    = .next t → t.ledger = s.ledger := by
  unfold execWakeSource
  rintro t ⟨⟩
  simp

@[simp] theorem beginSag_ledger (a1 : Nat) (s : State) : (beginSag a1 s).ledger = s.ledger := by
  unfold beginSag
  simp
  (repeat' split) <;> simp

theorem execDroopSag_ledger (a1 : Fin 48) (s : State) : ∀ t, (execDroopSag a1 s)
    = .next t → t.ledger = s.ledger := by
  unfold execDroopSag
  intro t
  (repeat' split) <;> (rintro ⟨⟩; simp)

theorem execDroopStretchEnd_ledger (a1 : Fin 48) (s : State) : ∀ t, (execDroopStretchEnd a1 s)
    = .next t → t.ledger = s.ledger := by
  unfold execDroopStretchEnd
  intro t
  simp only []
  (repeat' split) <;> (rintro ⟨⟩; simp)

theorem execSustainedSag_ledger (a1 : Fin 48) (s : State) : ∀ t, (execSustainedSag a1 s)
    = .next t → t.ledger = s.ledger := by
  unfold execSustainedSag
  intro t
  simp only []
  (repeat' split) <;> (rintro ⟨⟩; simp)

@[simp] theorem setBelow_ledger (a1 : Option Nat) (s : State) : (setBelow a1 s).ledger = s.ledger := by
  unfold setBelow
  simp

@[simp] theorem raiseLevel_ledger (s : State) : (raiseLevel s).ledger = s.ledger := by
  unfold raiseLevel
  split <;> simp

@[simp] theorem lowerLevel_ledger (s : State) : (lowerLevel s).ledger = s.ledger := by
  unfold lowerLevel
  simp
  (repeat' split) <;> simp

@[simp] theorem judgeCap_ledger (a1 : Nat) (s : State) : (judgeCap a1 s).ledger = s.ledger := by
  unfold judgeCap
  (repeat' split) <;> simp

theorem execPowerCapEvaluation_ledger (a1 : Nat) (s : State) : ∀ t, (execPowerCapEvaluation a1 s)
    = .next t → t.ledger = s.ledger := by
  unfold execPowerCapEvaluation
  intro t
  (repeat' split) <;> (rintro ⟨⟩; simp)

/-! ### Lanes -/

@[simp] theorem showLane_ledger (l : Nat) (d : Word64) (x : Lane) (s : State) : (showLane l d x s).ledger = s.ledger := by
  unfold showLane
  (repeat' split) <;> simp

@[simp] theorem writeLane_ledger (a1 : Nat) (a2 : Word64) (s : State)
    : (writeLane a1 a2 s).ledger = s.ledger := by
  unfold writeLane
  (repeat' split) <;> simp

@[simp] theorem syncHoldover_ledger (a1 : Nat) (s : State) : (syncHoldover a1 s).ledger = s.ledger := by
  unfold syncHoldover
  simp
  (repeat' split) <;> simp

@[simp] theorem showTest_ledger (l gen loop : Nat) (word : Word64) (s : State) : (showTest l gen loop word s).ledger = s.ledger := by
  unfold showTest
  simp
  (repeat' split) <;> simp

@[simp] theorem setTest_ledger (a1 : Nat) (a2 : Nat) (a3 : Nat) (a4 : Nat) (a5 : Word64) (s : State)
    : (setTest a1 a2 a3 a4 a5 s).ledger = s.ledger := by
  unfold setTest
  split <;> simp

@[simp] theorem stopTests_ledger (s : State) : (stopTests s).ledger = s.ledger := by
  unfold stopTests
  simp

@[simp] theorem setInject_ledger (a1 : Nat) (a2 : Nat) (a3 : Nat) (a4 : Bool) (s : State)
    : (setInject a1 a2 a3 a4 s).ledger = s.ledger := by
  unfold setInject
  simp
  (repeat' split) <;> simp

@[simp] theorem freeBytes_ledger (a1 : Nat) (s : State) : (freeBytes a1 s).2.ledger = s.ledger := by
  induction a1 generalizing s with
  | zero => rfl
  | succ n ih =>
    unfold freeBytes
    simp [ih]

@[simp] theorem sampleCoeffs_ledger (a1 : Nat) (s : State)
    : (sampleCoeffs a1 s).2.ledger = s.ledger := by
  unfold sampleCoeffs
  simp
  (repeat' split) <;> simp

@[simp] theorem clearSnrLow_ledger (a1 : Nat) (s : State) : (clearSnrLow a1 s).ledger = s.ledger := by
  unfold clearSnrLow
  simp

@[simp] theorem laneChanged_ledger (a1 : Nat) (s : State) : (laneChanged a1 s).ledger = s.ledger := by
  unfold laneChanged
  split <;> simp

@[simp] theorem setDetector_ledger (a1 : Nat) (a2 : Detector) (a3 : Bool) (s : State)
    : (setDetector a1 a2 a3 s).ledger = s.ledger := by
  unfold setDetector
  simp
  (repeat' split) <;> simp

theorem execLaneDetector_ledger (a1 : Fin 21) (a2 : Detector) (a3 : Bool) (s : State)
    : ∀ t, (execLaneDetector a1 a2 a3 s) = .next t → t.ledger = s.ledger := by
  unfold execLaneDetector
  intro t
  simp only []
  (repeat' split) <;> (rintro ⟨⟩; simp)

theorem execEnergyDetect_ledger (a1 : Fin 21) (s : State) : ∀ t, (execEnergyDetect a1 s)
    = .next t → t.ledger = s.ledger := by
  unfold execEnergyDetect
  intro t
  simp only []
  (repeat' split) <;> (rintro ⟨⟩; simp)

theorem execLaneDeepEntryDone_ledger (a1 : Fin 21) (s : State) : ∀ t, (execLaneDeepEntryDone a1 s)
    = .next t → t.ledger = s.ledger := by
  unfold execLaneDeepEntryDone
  intro t
  simp only []
  (repeat' split) <;> (rintro ⟨⟩; simp)

@[simp] theorem becomeReady_ledger (a1 : Nat) (a2 : Bool) (a3 : Nat) (s : State)
    : (becomeReady a1 a2 a3 s).ledger = s.ledger := by
  unfold becomeReady
  simp
  (repeat' split) <;> simp

theorem execLaneReady_ledger (a1 : Fin 21) (a2 : Bool) (a3 : Nat) (s : State)
    : ∀ t, (execLaneReady a1 a2 a3 s) = .next t → t.ledger = s.ledger := by
  unfold execLaneReady
  intro t
  simp only []
  (repeat' split) <;> (rintro ⟨⟩; simp)

theorem execCheckerLockChange_ledger (a1 : Fin 21) (a2 : Bool) (a3 : Nat) (a4 : Nat) (a5 : Nat)
    (s : State) : ∀ t, (execCheckerLockChange a1 a2 a3 a4 a5 s) = .next t → t.ledger = s.ledger := by
  unfold execCheckerLockChange
  intro t
  simp only []
  (repeat' split) <;> (rintro ⟨⟩; simp)

/-! ### Device -/

@[simp] theorem closeLinks_ledger (s : State) : (closeLinks s).ledger = s.ledger := by
  unfold closeLinks
  (repeat' split) <;> simp [apply_ite State.ledger]

@[simp] theorem quiesce_ledger (s : State) : (quiesce s).ledger = s.ledger := by
  unfold quiesce
  simp

@[simp] theorem forgetLosses_ledger (s : State) : (forgetLosses s).ledger = s.ledger := by
  unfold forgetLosses
  simp

/-! ### Supply -/

theorem execRefclk156Loss_ledger (s : State) : ∀ t, (execRefclk156Loss s)
    = .next t → t.ledger = s.ledger := by
  unfold execRefclk156Loss
  intro t
  (repeat' split) <;> (rintro ⟨⟩; simp)

theorem execPgoodInTransition_ledger (a1 : Bool) (s : State) (a2 : Nat)
    : ∀ t, (execPgoodInTransition a1 s a2) = .next t → t.ledger = s.ledger := by
  unfold execPgoodInTransition
  intro t
  simp only []
  (repeat' split) <;> (rintro ⟨⟩; simp [apply_ite State.ledger])

theorem execDyingGaspClear_ledger (s : State) : ∀ t, (execDyingGaspClear s)
    = .next t → t.ledger = s.ledger := by
  unfold execDyingGaspClear
  intro t
  (repeat' split) <;> (rintro ⟨⟩; simp)

@[simp] theorem markVin_ledger (a1 : Nat) (s : State) : (markVin a1 s).ledger = s.ledger := by
  unfold markVin
  simp

@[simp] theorem writeControl_ledger (a1 : Nat) (a2 : SlotState) (s : State)
    : (writeControl a1 a2 s).ledger = s.ledger := by
  unfold writeControl
  simp

@[simp] theorem trySlot_ledger (a1 : Nat) (a2 : List (Fin 2)) (s : State)
    : (trySlot a1 a2 s).2.ledger = s.ledger := by
  unfold trySlot
  dsimp only
  (repeat' split) <;> simp

@[simp] theorem bootSlot_ledger (a1 : Nat) (a2 : Nat) (s : State)
    : (bootSlot a1 a2 s).ledger = s.ledger := by
  unfold bootSlot
  split <;> simp

theorem execBootSelect_ledger (a1 : Bool) (s : State) (a2 : List (Fin 2)) : ∀ t, (execBootSelect a1 s a2)
    = .next t → t.ledger = s.ledger := by
  unfold execBootSelect
  apply ledger_of_ite
  · exact ledger_of_next rfl
  · apply ledger_of_ite
    · exact ledger_of_next rfl
    · split
      · exact ledger_of_next rfl
      · dsimp only
        apply ledger_of_ite
        · exact ledger_of_next (by rw [bootSlot_ledger, trySlot_ledger]; rfl)
        · split
          · exact ledger_of_next ((trySlot_ledger _ _ _).trans rfl)
          · refine ledger_of_next ?_
            split <;> simp only [bootSlot_ledger, trySlot_ledger] <;> rfl

@[simp] theorem markReset_ledger (s : State) : (markReset s).ledger = s.ledger := by
  unfold markReset
  simp

@[simp] theorem blowFuses_ledger (s : State) : (blowFuses s).ledger = s.ledger := by
  unfold blowFuses
  simp
  (repeat' split) <;> simp

theorem execImageConfirm_ledger (s : State) : ∀ t, (execImageConfirm s)
    = .next t → t.ledger = s.ledger := by
  unfold execImageConfirm
  split
  · exact ledger_of_next (by rw [blowFuses_ledger, writeControl_ledger, passSince_ledger])
  · exact ledger_of_next rfl

/-! ### Ports -/

@[simp] theorem disablePort_ledger (a1 : Nat) (s : State) : (disablePort a1 s).ledger = s.ledger := by
  unfold disablePort
  split <;> simp

@[simp] theorem syncFaults_ledger (s : State) : (syncFaults s).ledger = s.ledger := by
  unfold syncFaults
  (repeat' split) <;> simp [apply_ite State.ledger]

@[simp] theorem writePort_ledger (a1 : Nat) (a2 : Word64) (s : State)
    : (writePort a1 a2 s).ledger = s.ledger := by
  unfold writePort
  simp
  (repeat' split) <;> simp

@[simp] theorem setAgg_ledger (a1 : Nat) (a2 : Aggregation) (s : State)
    : (setAgg a1 a2 s).ledger = s.ledger := by
  unfold setAgg
  simp

@[simp] theorem noteLink_ledger (a1 : Nat) (s : State) : (noteLink a1 s).ledger = s.ledger := by
  unfold noteLink
  simp

theorem execLinkConditionChange_ledger (a1 : Fin 16) (a2 : Bool) (a3 : Bool) (a4 : Bool) (a5 : Bool)
    (s : State) : ∀ t, (execLinkConditionChange a1 a2 a3 a4 a5 s) = .next t → t.ledger = s.ledger := by
  unfold execLinkConditionChange; intro t h; dsimp only at h; split at h <;> rw [← next_inj h]
  simp [apply_ite State.ledger]

theorem execLinkUp_ledger (a1 : Fin 16) (s : State) : ∀ t, (execLinkUp a1 s)
    = .next t → t.ledger = s.ledger := by
  unfold execLinkUp
  intro t
  simp only []
  (repeat' split) <;> (rintro ⟨⟩; simp)

theorem execLinkDown_ledger (a1 : Fin 16) (s : State) : ∀ t, (execLinkDown a1 s)
    = .next t → t.ledger = s.ledger := by
  unfold execLinkDown; intro t h; dsimp only at h; split at h <;> rw [← next_inj h]
  simp

@[simp] theorem startTraining_ledger (a1 : Nat) (s : State)
    : (startTraining a1 s).ledger = s.ledger := by
  unfold startTraining
  simp

theorem execAnRestart_ledger (a1 : Fin 16) (a2 : Bool) (s : State) : ∀ t, (execAnRestart a1 a2 s)
    = .next t → t.ledger = s.ledger := by
  unfold execAnRestart
  intro t
  simp only []
  (repeat' split) <;> (rintro ⟨⟩; simp)

theorem execAutoNegotiationComplete_ledger (a1 : Fin 16) (a2 : Bool) (a3 : Bool) (s : State) (a4 : Bool)
    : ∀ t, (execAutoNegotiationComplete a1 a2 a3 s a4) = .next t → t.ledger = s.ledger := by
  unfold execAutoNegotiationComplete
  intro t
  simp only []
  (repeat' split) <;> (rintro ⟨⟩; simp)

theorem execLpiEntry_ledger (a1 : Fin 16) (s : State) : ∀ t, (execLpiEntry a1 s)
    = .next t → t.ledger = s.ledger := by
  unfold execLpiEntry
  intro t
  simp only []
  (repeat' split) <;> (rintro ⟨⟩; simp)

@[simp] theorem endRxLpi_ledger (a1 : Nat) (s : State) : (endRxLpi a1 s).ledger = s.ledger := by
  unfold endRxLpi
  split <;> simp

theorem execReceiveLpi_ledger (a1 : Fin 16) (a2 : LpiPhase) (s : State) : ∀ t, (execReceiveLpi a1 a2 s)
    = .next t → t.ledger = s.ledger := by
  unfold execReceiveLpi
  intro t
  (repeat' split) <;> (rintro ⟨⟩; simp)

@[simp] theorem compensate_ledger (a1 : Nat) (s : State) : (compensate a1 s).ledger = s.ledger := by
  unfold compensate
  simp

@[simp] theorem overrunLane_ledger (a1 : Nat) (s : State) : (overrunLane a1 s).ledger = s.ledger := by
  unfold overrunLane
  simp
  (repeat' split) <;> simp

@[simp] theorem countCodeErrors_ledger (s : State) : (countCodeErrors s).ledger = s.ledger := by
  unfold countCodeErrors
  simp

theorem execMgmtSynchronisationChange_ledger (a1 : Bool) (s : State)
    : ∀ t, (execMgmtSynchronisationChange a1 s) = .next t → t.ledger = s.ledger := by
  unfold execMgmtSynchronisationChange
  intro t
  (repeat' split) <;> (rintro ⟨⟩; simp)

/-! ### Receive -/

@[simp] theorem divertFrame_ledger (a1 : Nat) (a2 : ProtocolKind) (a3 : Bytes) (a4 : Nat) (s : State)
    : (divertFrame a1 a2 a3 a4 s).ledger = s.ledger := by
  unfold divertFrame
  simp
  (repeat' split) <;> simp

@[simp] theorem consumeControl_ledger (a1 : Nat) (a2 : Bytes) (s : State)
    : (consumeControl a1 a2 s).ledger = s.ledger := by
  unfold consumeControl
  simp
  (repeat' split) <;> simp

@[simp] theorem refuseFrame_ledger (a1 : Nat) (a2 : Nat) (a3 : Bytes) (a4 : Nat) (s : State)
    : (refuseFrame a1 a2 a3 a4 s).ledger = s.ledger := by
  unfold refuseFrame
  simp

@[simp] theorem acceptFrame_ledger (a1 : Nat) (a2 : Bytes) (a3 : Bool) (a4 : Nat) (s : State)
    : (acceptFrame a1 a2 a3 a4 s).ledger = s.ledger := by
  unfold acceptFrame
  (repeat' split) <;> simp

@[simp] theorem judgeFrame_ledger (a1 : Nat) (a2 : Bytes) (a3 : Nat) (s : State)
    : (judgeFrame a1 a2 a3 s).ledger = s.ledger := by
  unfold judgeFrame
  simp
  (repeat' split) <;> simp

@[simp] theorem countLaneErrors_ledger (a1 : Nat) (s : State)
    : (countLaneErrors a1 s).ledger = s.ledger := by
  unfold countLaneErrors
  simp

@[simp] theorem bufferLanes_ledger (a1 : Nat) (a2 : Bool) (s : State)
    : (bufferLanes a1 a2 s).ledger = s.ledger := by
  unfold bufferLanes
  split <;> simp

@[simp] theorem takeClientFrame_ledger (a1 : Nat) (a2 : Bytes) (a3 : Bool) (a4 : Bool) (s : State)
    : (takeClientFrame a1 a2 a3 a4 s).ledger = s.ledger := by
  unfold takeClientFrame
  simp
  (repeat' split) <;> simp

@[simp] theorem takeMgmtFrame_ledger (a1 : Bytes) (a2 : Bool) (s : State)
    : (takeMgmtFrame a1 a2 s).ledger = s.ledger := by
  unfold takeMgmtFrame
  simp
  (repeat' split) <;> simp

theorem execClientFrameReceive_ledger (a1 : Fin 17) (a2 : Bytes) (a3 : Bool) (a4 : Bool) (s : State)
    : ∀ t, (execClientFrameReceive a1 a2 a3 a4 s) = .next t → t.ledger = s.ledger := by
  unfold execClientFrameReceive
  intro t
  (repeat' split) <;> (rintro ⟨⟩; simp)

@[simp] theorem setMember_ledger (a1 : Nat) (a2 : Bool) (s : State)
    : (setMember a1 a2 s).ledger = s.ledger := by
  unfold setMember
  split <;> simp

@[simp] theorem adoptTw_ledger (a1 : Nat) (a2 : Nat) (s : State)
    : (adoptTw a1 a2 s).ledger = s.ledger := by
  unfold adoptTw
  simp

@[simp] theorem installSa_ledger (a1 : Nat) (a2 : Option (Fin 3)) (a3 : Word64) (a4 : Fin 4) (a5 : Nat)
    (s : State) : (installSa a1 a2 a3 a4 a5 s).ledger = s.ledger := by
  unfold installSa
  simp

@[simp] theorem retireSa_ledger (a1 : Nat) (a2 : Option (Fin 3)) (a3 : Fin 4) (s : State)
    : (retireSa a1 a2 a3 s).ledger = s.ledger := by
  unfold retireSa
  simp

@[simp] theorem protocolEffect_ledger (a1 : Nat) (a2 : ProtocolKind) (a3 : ProtocolAct) (a4 : Nat)
    (s : State) : (protocolEffect a1 a2 a3 a4 s).ledger = s.ledger := by
  unfold protocolEffect
  (repeat' split) <;> simp

@[simp] theorem verifyIcv_ledger (a1 : Nat) (a2 : Bytes) (s : State)
    : (verifyIcv a1 a2 s).ledger = s.ledger := by
  unfold verifyIcv
  simp

@[simp] theorem recordFrame_ledger (a1 : Nat) (a2 : Bool) (a3 : Bytes) (s : State)
    : (recordFrame a1 a2 a3 s).ledger = s.ledger := by
  unfold recordFrame
  simp

@[simp] theorem countCheck_ledger (p : Nat) (k : ProtocolKind) (b : Bytes) (s : State) : (countCheck p k b s).ledger = s.ledger := by
  unfold countCheck
  (repeat' split) <;> simp

theorem execProtocolFrame_ledger (a1 : Fin 17) (a2 : ProtocolAct) (s : State)
    : ∀ t, (execProtocolFrame a1 a2 s) = .next t → t.ledger = s.ledger := by
  unfold execProtocolFrame
  intro t
  (repeat' split) <;> (rintro ⟨⟩; simp)

@[simp] theorem sendMgmt_ledger (a1 : OwnFrame) (s : State) : (sendMgmt a1 s).ledger = s.ledger := by
  unfold sendMgmt
  simp

theorem execProtocolTimer_ledger (a1 : ProtocolKind) (a2 : Fin 17) (s : State)
    : ∀ t, (execProtocolTimer a1 a2 s) = .next t → t.ledger = s.ledger := by
  unfold execProtocolTimer
  intro t
  (try simp only [])
  (repeat' split) <;> (rintro ⟨⟩; (repeat' (first | split | (refine (forEach_ledger _ _ _ ?_).trans ?_; intro _ _) | (refine (foldl_ledger _ _ ?_ _).trans ?_; intro _ _))) <;> simp)

theorem execPtpTimeout_ledger (a1 : Fin 16) (s : State) : ∀ t, (execPtpTimeout a1 s)
    = .next t → t.ledger = s.ledger := by
  unfold execPtpTimeout
  intro t
  (repeat' split) <;> (rintro ⟨⟩; simp)

/-! ### FibreDown -/

theorem execHuntMatch_ledger (a1 : Fin 4) (a2 : Nat) (a3 : Word64) (s : State)
    : ∀ t, (execHuntMatch a1 a2 a3 s) = .next t → t.ledger = s.ledger := by
  unfold execHuntMatch
  intro t
  simp only []
  (repeat' split) <;> (rintro ⟨⟩; simp)

@[simp] theorem decideWord0_ledger (a1 : Nat) (a2 : Word64) (s : State)
    : (decideWord0 a1 a2 s).2.ledger = s.ledger := by
  unfold decideWord0
  (repeat' split) <;> simp

theorem execCandidateTest_ledger (a1 : Fin 4) (a2 : Fin 4) (a3 : Word64) (a4 : Word64) (s : State)
    : ∀ t, (execCandidateTest a1 a2 a3 a4 s) = .next t → t.ledger = s.ledger := by
  unfold execCandidateTest; intro t h; dsimp only at h
  have e := decideWord0_ledger a1.val a4 s
  split at h
  · split at h
    · split at h <;> rename_i u <;> rw [u] at e <;> rw [← next_inj h, modRx_ledger] <;> exact e
    · rw [← next_inj h]; simp
  · rw [← next_inj h]

@[simp] theorem enterSync_ledger (a1 : Nat) (s : State) : (enterSync a1 s).ledger = s.ledger := by
  unfold enterSync
  simp

theorem execPresyncTest_ledger (a1 : Fin 4) (a2 : Word64) (a3 : Word64) (s : State)
    : ∀ t, (execPresyncTest a1 a2 a3 s) = .next t → t.ledger = s.ledger := by
  unfold execPresyncTest
  intro t
  simp only []
  (repeat' split) <;> (rintro ⟨⟩; simp)

@[simp] theorem endDoze_ledger (a1 : Nat) (s : State) : (endDoze a1 s).ledger = s.ledger := by
  unfold endDoze
  split <;> simp

theorem execSyncFrameTest_ledger (a1 : Fin 4) (a2 : Word64) (s : State)
    : ∀ t, (execSyncFrameTest a1 a2 s) = .next t → t.ledger = s.ledger := by
  unfold execSyncFrameTest
  intro t
  simp only []
  (repeat' split) <;> (rintro ⟨⟩; simp)

@[simp] theorem judgeCounter_ledger (a1 : Nat) (a2 : Option Nat) (s : State)
    : (judgeCounter a1 a2 s).ledger = s.ledger := by
  unfold judgeCounter
  simp
  (repeat' split) <;> simp

@[simp] theorem closeSkewFrame_ledger (a1 : Nat) (s : State)
    : (closeSkewFrame a1 s).ledger = s.ledger := by
  unfold closeSkewFrame
  simp
  (repeat' split) <;> simp

@[simp] theorem judgeSkew_ledger (a1 a2 : Nat) (s : State) : (judgeSkew a1 a2 s).ledger = s.ledger := by
  unfold judgeSkew
  simp
  (repeat' split) <;> simp

@[simp] theorem measureSkew_ledger (n first c : Nat) (s : State) : (measureSkew n first c s).ledger = s.ledger := by
  unfold measureSkew
  (repeat' split) <;> simp

@[simp] theorem noteArrival_ledger (a1 : Nat) (a2 : Nat) (a3 : Nat) (s : State)
    : (noteArrival a1 a2 a3 s).ledger = s.ledger := by
  unfold noteArrival
  dsimp only
  (repeat' split) <;> simp

@[simp] theorem countWord1_ledger (a1 : Nat) (a2 : DsFrame) (s : State)
    : (countWord1 a1 a2 s).ledger = s.ledger := by
  unfold countWord1
  (repeat' split) <;> simp

@[simp] theorem judgeHeader_ledger (a1 : Nat) (a2 : Bool) (s : State)
    : (judgeHeader a1 a2 s).ledger = s.ledger := by
  unfold judgeHeader
  split <;> simp

@[simp] theorem judgeLabel_ledger (a1 : Nat) (a2 : Bool) (s : State)
    : (judgeLabel a1 a2 s).ledger = s.ledger := by
  unfold judgeLabel
  split <;> simp

@[simp] theorem judgeChannel_ledger (a1 : Nat) (a2 : Bool) (s : State)
    : (judgeChannel a1 a2 s).ledger = s.ledger := by
  unfold judgeChannel
  split <;> simp

@[simp] theorem judgeWord1_ledger (a1 : Nat) (a2 : Option Nat) (s : State)
    : (judgeWord1 a1 a2 s).ledger = s.ledger := by
  unfold judgeWord1
  split <;> simp

@[simp] theorem noteCodewords_ledger (a1 : Nat) (a2 : DsFrame) (s : State)
    : (noteCodewords a1 a2 s).ledger = s.ledger := by
  unfold noteCodewords
  simp

@[simp] theorem captureTod_ledger (a1 : Nat) (a2 : Nat) (a3 : DsFrame) (s : State)
    : (captureTod a1 a2 a3 s).ledger = s.ledger := by
  unfold captureTod
  simp
  (repeat' split) <;> simp

@[simp] theorem takeTod_ledger (a1 : Nat) (a2 : Nat) (a3 : Nat) (a4 : DsFrame) (s : State)
    : (takeTod a1 a2 a3 a4 s).ledger = s.ledger := by
  unfold takeTod
  (repeat' split) <;> simp

@[simp] theorem takeMap_ledger (a1 : Nat) (a2 : Nat) (a3 : Nat) (a4 : DsFrame) (s : State)
    : (takeMap a1 a2 a3 a4 s).ledger = s.ledger := by
  unfold takeMap
  simp

@[simp] theorem takeMsgs_ledger (a1 : Nat) (a2 : Nat) (a3 : Nat) (a4 : DsFrame) (s : State)
    : (takeMsgs a1 a2 a3 a4 s).ledger = s.ledger := by
  unfold takeMsgs
  simp
  (repeat' split) <;> simp

@[simp] theorem endFrame_ledger (a1 : Nat) (s : State) : (endFrame a1 s).ledger = s.ledger := by
  unfold endFrame
  split <;> simp

@[simp] theorem abandonBytes_ledger (a1 : Nat) (a2 : Nat) (s : State)
    : (abandonBytes a1 a2 s).ledger = s.ledger := by
  unfold abandonBytes
  simp

@[simp] theorem openRegion_ledger (a1 : Nat) (a2 : Nat) (a3 : DsFrame) (s : State)
    : (openRegion a1 a2 a3 s).ledger = s.ledger := by
  unfold openRegion
  simp
  (repeat' split) <;> simp

@[simp] theorem processFrame_ledger (a1 : Nat) (a2 : Nat) (a3 : DsFrame) (s : State)
    : (processFrame a1 a2 a3 s).ledger = s.ledger := by
  unfold processFrame
  simp
  (repeat' split) <;> simp

@[simp] theorem beginFrame_ledger (a1 : Nat) (s : State) : (beginFrame a1 s).ledger = s.ledger := by
  unfold beginFrame
  simp

theorem execDownstreamFrame_ledger (a1 : Fin 4) (a2 : RxFrame) (s : State)
    : ∀ t, (execDownstreamFrame a1 a2 s) = .next t → t.ledger = s.ledger := by
  unfold execDownstreamFrame
  intro t
  (repeat' split) <;> (rintro ⟨⟩; simp [apply_ite State.ledger])

@[simp] theorem abandonRegion_ledger (a1 : Nat) (s : State)
    : (abandonRegion a1 s).ledger = s.ledger := by
  unfold abandonRegion
  simp
  (repeat' split) <;> simp

@[simp] theorem consume_ledger (a1 : Nat) (a2 : Nat) (s : State)
    : (consume a1 a2 s).ledger = s.ledger := by
  unfold consume
  simp
  (repeat' split) <;> simp

@[simp] theorem takeUnbonded_ledger (a1 : Nat) (a2 : Nat) (a3 : Bool) (a4 : PfeUnit) (s : State)
    : (takeUnbonded a1 a2 a3 a4 s).ledger = s.ledger := by
  unfold takeUnbonded
  split <;> simp

@[simp] theorem noteGsn_ledger (a1 : Nat) (a2 : Nat) (s : State)
    : (noteGsn a1 a2 s).ledger = s.ledger := by
  unfold noteGsn
  simp

@[simp] theorem takeBonded_ledger (a1 : Nat) (a2 : Nat) (a3 : Bool) (a4 : PfeUnit) (s : State)
    : (takeBonded a1 a2 a3 a4 s).ledger = s.ledger := by
  unfold takeBonded
  simp
  (repeat' split) <;> simp

@[simp] theorem takePfe_ledger (a1 : Nat) (a2 : Nat) (a3 : PfeUnit) (s : State)
    : (takePfe a1 a2 a3 s).ledger = s.ledger := by
  unfold takePfe
  simp
  (repeat' split) <;> simp

theorem execPfeFrame_ledger (a1 : Fin 4) (u : Unit) (s : State) : ∀ t, (execPfeFrame a1 u s) = .next t → t.ledger = s.ledger := by
  have h1 : ∀ (c : Prop) [Decidable c] (k n : Nat) (x : State), (if c then bump k n x else x).ledger = x.ledger := by
    intro c _ k n x; split
    · exact bump_ledger _ _ _
    · rfl
  unfold execPfeFrame
  apply ledger_of_ite
  · exact ledger_of_next rfl
  apply ledger_of_ite
  · exact ledger_of_next (abandonRegion_ledger _ _)
  split
  · exact ledger_of_next (by rw [abandonRegion_ledger, bump_ledger])
  · apply ledger_of_ite
    · exact ledger_of_next (by rw [abandonRegion_ledger, h1, h1])
    apply ledger_of_ite
    · exact ledger_of_next (by rw [consume_ledger, bump_ledger, h1, h1])
    · exact ledger_of_next (by rw [consume_ledger, takePfe_ledger, crossLink_ledger, h1, h1])

theorem execSignalFailWindow_ledger (a1 : Fin 4) (s : State) : ∀ t, (execSignalFailWindow a1 s)
    = .next t → t.ledger = s.ledger := by
  unfold execSignalFailWindow
  intro t
  simp only []
  (repeat' split) <;> (rintro ⟨⟩; simp)

theorem execSignalDegradeWindow_ledger (a1 : Fin 4) (s : State) : ∀ t, (execSignalDegradeWindow a1 s)
    = .next t → t.ledger = s.ledger := by
  unfold execSignalDegradeWindow
  intro t
  simp only []
  (repeat' split) <;> (rintro ⟨⟩; simp)

theorem execBondWaitExpiry_ledger (s : State) : ∀ t, (execBondWaitExpiry s)
    = .next t → t.ledger = s.ledger := by
  unfold execBondWaitExpiry
  intro t
  (repeat' split) <;> (rintro ⟨⟩; simp)

theorem execBondReservationFree_ledger (a1 : Fin 4) (s : State) : ∀ t, (execBondReservationFree a1 s)
    = .next t → t.ledger = s.ledger := by
  unfold execBondReservationFree
  intro t
  simp only []
  (repeat' split) <;> (rintro ⟨⟩; simp)

/-! ### FibreCmds -/

@[simp] theorem storeChannel_ledger (a1 : Nat) (a2 : Nat) (a3 : Nat) (a4 : Nat) (s : State)
    : (storeChannel a1 a2 a3 a4 s).ledger = s.ledger := by
  unfold storeChannel
  simp

@[simp] theorem applyActivate_ledger (a1 : Nat) (a2 : Bool) (s : State)
    : (applyActivate a1 a2 s).ledger = s.ledger := by
  unfold applyActivate
  (repeat' split) <;> simp

@[simp] theorem setMembers_ledger (a1 : Nat) (s : State) : (setMembers a1 s).ledger = s.ledger := by
  unfold setMembers
  try simp only []
  (repeat' split) <;> simp [apply_ite State.ledger]

@[simp] theorem setGroups_ledger (a1 : Bytes) (s : State) : (setGroups a1 s).ledger = s.ledger := by
  unfold setGroups
  simp

@[simp] theorem removePortId_ledger (a1 : Nat) (s : State)
    : (removePortId a1 s).2.ledger = s.ledger := by
  unfold removePortId
  (repeat' split) <;> simp

theorem dealSlot_ledger (d p : Nat) (s : State) : ∀ e, dealSlot d p s = some e → e.2.ledger = s.ledger := by
  unfold dealSlot
  intro e h
  obtain ⟨k, _, rfl⟩ := Option.map_eq_some_iff.mp h
  simp

theorem setUpstream_ledger (a1 : Nat) (a2 : Nat) (a3 : Bool) (s : State) : ∀ t, (setUpstream a1 a2 a3 s)
    = some t → t.ledger = s.ledger := by
  unfold setUpstream; intro t h; dsimp only at h
  have e1 : ∀ o : Option Nat, (match o with | some k => writeSlot k 0 s | none => s).ledger = s.ledger := by
    intro o; cases o <;> simp
  by_cases hk : a3 = true
  · rw [if_pos hk] at h
    obtain ⟨e, he, h2⟩ := Option.map_eq_some_iff.mp h
    rw [← h2]; exact (dealSlot_ledger _ _ _ _ he).trans (e1 _)
  · rw [if_neg hk] at h
    injection h with h2
    rw [← h2]; exact e1 _

@[simp] theorem setList_ledger (a1 : Nat) (a2 : List ListEntry) (s : State)
    : (setList a1 a2 s).ledger = s.ledger := by
  unfold setList
  simp

@[simp] theorem groupByte_ledger (s : State) (a1 : Nat) : (groupByte s a1).2.ledger = s.ledger := by
  unfold groupByte
  simp
  (repeat' split) <;> simp

@[simp] theorem clearSkewHigh_ledger (s : State) : (clearSkewHigh s).ledger = s.ledger := by
  unfold clearSkewHigh
  simp

/-! ### Activation -/

@[simp] theorem checkMic_ledger (a1 : RxMsg) (s : State) : (checkMic a1 s).ledger = s.ledger := by
  unfold checkMic
  split <;> simp

@[simp] theorem newAck_ledger (a1 : Nat) (a2 : Nat) (a3 : Byte) (a4 : Nat) (s : State)
    : (newAck a1 a2 a3 a4 s).2.ledger = s.ledger := by
  unfold newAck
  simp

@[simp] theorem sendAck_ledger (a1 : Nat) (a2 : Nat) (a3 : Byte) (a4 : Nat) (s : State)
    : (sendAck a1 a2 a3 a4 s).ledger = s.ledger := by
  unfold sendAck
  simp

@[simp] theorem keepReply_ledger (a1 : RxMsg) (a2 : List TxMsg) (s : State)
    : (keepReply a1 a2 s).ledger = s.ledger := by
  unfold keepReply
  simp only []
  (repeat' (first | split | (refine (forEach_ledger _ _ _ ?_).trans ?_; intro _ _) | (refine (foldl_ledger _ _ ?_ _).trans ?_; intro _ _))) <;> simp

@[simp] theorem keepAck_ledger (a1 : RxMsg) (a2 : Nat) (s : State)
    : (keepAck a1 a2 s).ledger = s.ledger := by
  unfold keepAck
  simp

@[simp] theorem judgeMessage_ledger (a1 : RxMsg) (s : State)
    : (judgeMessage a1 s).ledger = s.ledger := by
  unfold judgeMessage
  simp only []
  (repeat' (first | split | (refine (forEach_ledger _ _ _ ?_).trans ?_; intro _ _) | (refine (foldl_ledger _ _ ?_ _).trans ?_; intro _ _))) <;> simp

@[simp] theorem recordMessage_ledger (a1 : RxMsg) (s : State)
    : (recordMessage a1 s).ledger = s.ledger := by
  unfold recordMessage
  simp

theorem execStationMessage_ledger (s : State) : ∀ t, (execStationMessage s)
    = .next t → t.ledger = s.ledger := by
  unfold execStationMessage
  intro t
  (repeat' split) <;> (rintro ⟨⟩; simp)

@[simp] theorem onAccepted_ledger (a1 : Nat) (a2 : RxMsg → State → State) (s : State)
    (ha2 : ∀ x0 x1, (a2 x0 x1).ledger = x1.ledger) : (onAccepted a1 a2 s).ledger = s.ledger := by
  unfold onAccepted
  simp only []
  (repeat' split) <;> simp_all

@[simp] theorem applyProfile_ledger (a1 : RxMsg) (s : State)
    : (applyProfile a1 s).ledger = s.ledger := by
  unfold applyProfile
  simp
  (repeat' split) <;> simp

theorem execProfile_ledger (s : State) : ∀ t, (execProfile s) = .next t → t.ledger = s.ledger := by
  unfold execProfile
  rintro t ⟨⟩
  simp

@[simp] theorem applyParams_ledger (a1 : RxMsg) (s : State) : (applyParams a1 s).ledger = s.ledger := by
  unfold applyParams
  simp
  (repeat' split) <;> simp

theorem execRangingParams_ledger (s : State) : ∀ t, (execRangingParams s)
    = .next t → t.ledger = s.ledger := by
  unfold execRangingParams
  rintro t ⟨⟩
  simp

@[simp] theorem applyAssign_ledger (a1 : RxMsg) (s : State) : (applyAssign a1 s).ledger = s.ledger := by
  unfold applyAssign
  simp
  (repeat' split) <;> simp

theorem execAssignStation_ledger (s : State) : ∀ t, (execAssignStation s)
    = .next t → t.ledger = s.ledger := by
  unfold execAssignStation
  rintro t ⟨⟩
  simp

@[simp] theorem applyRanging_ledger (a1 : RxMsg) (s : State)
    : (applyRanging a1 s).ledger = s.ledger := by
  unfold applyRanging
  simp
  (repeat' split) <;> simp

theorem execRangingTime_ledger (s : State) : ∀ t, (execRangingTime s)
    = .next t → t.ledger = s.ledger := by
  unfold execRangingTime
  rintro t ⟨⟩
  simp

@[simp] theorem deactivateOne_ledger (a1 : Nat) (s : State)
    : (deactivateOne a1 s).ledger = s.ledger := by
  unfold deactivateOne
  split <;> simp

@[simp] theorem applyDeactivate_ledger (a1 : RxMsg) (s : State)
    : (applyDeactivate a1 s).ledger = s.ledger := by
  unfold applyDeactivate
  simp

theorem execDeactivate_ledger (s : State) : ∀ t, (execDeactivate s)
    = .next t → t.ledger = s.ledger := by
  unfold execDeactivate
  rintro t ⟨⟩
  simp

@[simp] theorem silenceOne_ledger (a1 : Bool) (a2 : Nat) (s : State)
    : (silenceOne a1 a2 s).ledger = s.ledger := by
  unfold silenceOne
  split <;> simp

@[simp] theorem applySilence_ledger (a1 : RxMsg) (s : State)
    : (applySilence a1 s).ledger = s.ledger := by
  unfold applySilence
  simp

theorem execSilence_ledger (s : State) : ∀ t, (execSilence s) = .next t → t.ledger = s.ledger := by
  unfold execSilence
  rintro t ⟨⟩
  simp

@[simp] theorem abandonHead_ledger (a1 : Nat) (s : State) : (abandonHead a1 s).ledger = s.ledger := by
  unfold abandonHead
  (repeat' split) <;> simp

@[simp] theorem rebind_ledger (a1 : Nat) (a2 : Option Nat) (a3 : Alloc) (s : State)
    : (rebind a1 a2 a3 s).ledger = s.ledger := by
  unfold rebind
  split <;> simp

@[simp] theorem createAlloc_ledger (a1 : Nat) (a2 : Option Nat) (s : State)
    : (createAlloc a1 a2 s).ledger = s.ledger := by
  unfold createAlloc
  simp

@[simp] theorem allocEffect_ledger (a1 : RxMsg) (s : State)
    : (allocEffect a1 s).2.ledger = s.ledger := by
  unfold allocEffect
  simp
  (repeat' split) <;> simp

@[simp] theorem applyAllocation_ledger (a1 : RxMsg) (s : State)
    : (applyAllocation a1 s).ledger = s.ledger := by
  unfold applyAllocation
  simp

theorem execAllocation_ledger (s : State) : ∀ t, (execAllocation s)
    = .next t → t.ledger = s.ledger := by
  unfold execAllocation
  rintro t ⟨⟩
  simp

@[simp] theorem endExchange_ledger (a1 : Nat) (s : State) : (endExchange a1 s).ledger = s.ledger := by
  unfold endExchange
  simp

@[simp] theorem abandonReg_ledger (a1 : Nat) (a2 : Nat) (a3 : Byte) (a4 : Nat) (s : State)
    : (abandonReg a1 a2 a3 a4 s).ledger = s.ledger := by
  unfold abandonReg
  split <;> simp

@[simp] theorem tKeyMessages_ledger (a1 : Nat) (a2 : Nat) (a3 : Bytes) (a4 : List Nat) (s : State)
    : (tKeyMessages a1 a2 a3 a4 s).2.ledger = s.ledger := by
  induction a4 generalizing s with
  | nil => rfl
  | cons i l ih =>
    unfold tKeyMessages
    simp [ih]

@[simp] theorem freeBank_ledger (a1 : Nat) (a2 : EpochSwitch) (s : State)
    : (freeBank a1 a2 s).ledger = s.ledger := by
  unfold freeBank
  split <;> simp

@[simp] theorem retireEpoch_ledger (a1 : Nat) (a2 : EpochSwitch) (s : State)
    : (retireEpoch a1 a2 s).ledger = s.ledger := by
  unfold retireEpoch
  simp
  (repeat' split) <;> simp

@[simp] theorem holdPending_ledger (a1 : Nat) (a2 : BitVec 256) (s : State)
    : (holdPending a1 a2 s).ledger = s.ledger := by
  unfold holdPending
  (repeat' split) <;> simp

@[simp] theorem completeReg_ledger (a1 : Nat) (a2 : Nat) (a3 : Bytes) (a4 : Bytes) (a5 : RxMsg)
    (s : State) : (completeReg a1 a2 a3 a4 a5 s).ledger = s.ledger := by
  unfold completeReg
  simp

@[simp] theorem judgeReg_ledger (a1 : Nat) (a2 : RxMsg) (s : State)
    : (judgeReg a1 a2 s).ledger = s.ledger := by
  unfold judgeReg
  simp
  (repeat' split) <;> simp

@[simp] theorem applyHeKey_ledger (a1 : RxMsg) (s : State) : (applyHeKey a1 s).ledger = s.ledger := by
  unfold applyHeKey
  simp
  (repeat' split) <;> simp

theorem execHeKey_ledger (s : State) : ∀ t, (execHeKey s) = .next t → t.ledger = s.ledger := by
  unfold execHeKey
  rintro t ⟨⟩
  simp

theorem execRegistrationTimeout_ledger (a1 : Fin 4) (s : State) : ∀ t, (execRegistrationTimeout a1 s)
    = .next t → t.ledger = s.ledger := by
  unfold execRegistrationTimeout
  intro t
  simp only []
  (repeat' split) <;> (rintro ⟨⟩; simp)

@[simp] theorem writeEpoch_ledger (a1 : Nat) (a2 : EpochEntry) (s : State)
    : (writeEpoch a1 a2 s).ledger = s.ledger := by
  unfold writeEpoch
  simp
  (repeat' split) <;> simp

@[simp] theorem beginSwitch_ledger (a1 : Nat) (a2 : Nat) (a3 : Nat) (a4 : Bool) (s : State)
    : (beginSwitch a1 a2 a3 a4 s).ledger = s.ledger := by
  unfold beginSwitch
  simp
  (repeat' split) <;> simp

@[simp] theorem applyKeySwitch_ledger (a1 : RxMsg) (s : State)
    : (applyKeySwitch a1 s).ledger = s.ledger := by
  unfold applyKeySwitch
  simp
  (repeat' split) <;> simp

theorem execKeySwitch_ledger (s : State) : ∀ t, (execKeySwitch s) = .next t → t.ledger = s.ledger := by
  unfold execKeySwitch
  rintro t ⟨⟩
  simp

@[simp] theorem swapRoots_ledger (a1 : Nat) (s : State) : (swapRoots a1 s).ledger = s.ledger := by
  unfold swapRoots
  simp

@[simp] theorem applySwitch_ledger (a1 : Nat) (a2 : EpochSwitch) (s : State)
    : (applySwitch a1 a2 s).ledger = s.ledger := by
  unfold applySwitch
  simp
  (repeat' split) <;> simp

theorem execEpochSwitchApply_ledger (a1 : Fin 4) (s : State) : ∀ t, (execEpochSwitchApply a1 s)
    = .next t → t.ledger = s.ledger := by
  unfold execEpochSwitchApply
  intro t
  (repeat' split) <;> (rintro ⟨⟩; simp)

theorem execEpochRetire_ledger (a1 : Fin 4) (s : State) : ∀ t, (execEpochRetire a1 s)
    = .next t → t.ledger = s.ledger := by
  unfold execEpochRetire
  intro t
  (repeat' split) <;> (rintro ⟨⟩; simp)

theorem execRekeyInterval_ledger (a1 : Fin 4) (s : State) : ∀ t, (execRekeyInterval a1 s)
    = .next t → t.ledger = s.ledger := by
  unfold execRekeyInterval
  intro t
  simp only []
  (repeat' split) <;> (rintro ⟨⟩; simp)

@[simp] theorem applyDozeEnd_ledger (a1 : RxMsg) (s : State)
    : (applyDozeEnd a1 s).ledger = s.ledger := by
  unfold applyDozeEnd
  split <;> simp

theorem execDozeEnd_ledger (s : State) : ∀ t, (execDozeEnd s) = .next t → t.ledger = s.ledger := by
  unfold execDozeEnd
  rintro t ⟨⟩
  simp

theorem execRangingTimerExpiry_ledger (a1 : Fin 4) (s : State) : ∀ t, (execRangingTimerExpiry a1 s)
    = .next t → t.ledger = s.ledger := by
  unfold execRangingTimerExpiry
  intro t
  simp only []
  (repeat' split) <;> (rintro ⟨⟩; simp)

theorem execF6TimerExpiry_ledger (a1 : Fin 4) (s : State) : ∀ t, (execF6TimerExpiry a1 s)
    = .next t → t.ledger = s.ledger := by
  unfold execF6TimerExpiry
  intro t
  simp only []
  (repeat' split) <;> (rintro ⟨⟩; simp)

@[simp] theorem applyAction_ledger (a1 : Nat) (a2 : Trigger) (s : State)
    : (applyAction a1 a2 s).ledger = s.ledger := by
  unfold applyAction
  (repeat' split) <;> simp

@[simp] theorem waitExit_ledger (a1 : Nat) (s : State) : (waitExit a1 s).ledger = s.ledger := by
  unfold waitExit
  split <;> simp

theorem execConsequentAction_ledger (a1 : Fin 4) (a2 : Trigger) (s : State)
    : ∀ t, (execConsequentAction a1 a2 s) = .next t → t.ledger = s.ledger := by
  unfold execConsequentAction; intro t h; split at h
  · rw [← next_inj h]
  · split at h
    · rw [← next_inj h]
    · dsimp only at h; split at h <;> rw [← next_inj h]
      · simp [apply_ite State.ledger]
      · simp

@[simp] theorem restoreChannel_ledger (a1 : Nat) (a2 : Trigger) (s : State)
    : (restoreChannel a1 a2 s).ledger = s.ledger := by
  unfold restoreChannel
  split <;> simp

theorem execChannelRestore_ledger (a1 : Fin 4) (s : State) : ∀ t, (execChannelRestore a1 s)
    = .next t → t.ledger = s.ledger := by
  unfold execChannelRestore
  intro t
  (repeat' split) <;> (rintro ⟨⟩; simp)

/-! ### Upstream -/

@[simp] theorem pushStaged_ledger (a1 : Nat) (a2 : Staged) (s : State)
    : (pushStaged a1 a2 s).ledger = s.ledger := by
  unfold pushStaged
  simp
  (repeat' split) <;> simp

@[simp] theorem stage_ledger (a1 : Nat) (a2 : Nat) (a3 : Pkt) (s : State)
    : (stage a1 a2 a3 s).ledger = s.ledger := by
  unfold stage
  simp
  (repeat' split) <;> simp

theorem execStagingAdmit_ledger (a1 : Nat) (s : State) : ∀ t, (execStagingAdmit a1 s)
    = .next t → t.ledger = s.ledger := by
  unfold execStagingAdmit
  intro t
  simp only []
  (repeat' split) <;> (rintro ⟨⟩; simp)

@[simp] theorem stampCommits_ledger (a1 : Nat) (a2 : List Pkt) (a3 : List Pkt) (s : State)
    : (stampCommits a1 a2 a3 s).ledger = s.ledger := by
  unfold stampCommits
  simp
  (repeat' (first | split | (refine (forEach_ledger _ _ _ ?_).trans ?_; intro _ _) | (refine (foldl_ledger _ _ ?_ _).trans ?_; intro _ _))) <;> simp_all

@[simp] theorem commitOne_ledger (a1 : Nat) (s : State) : (commitOne a1 s).ledger = s.ledger := by
  unfold commitOne
  simp

@[simp] theorem commitInOrder_ledger (a1 : Nat) (a2 : Nat) (s : State)
    : (commitInOrder a1 a2 s).ledger = s.ledger := by
  induction a2 generalizing s with
  | zero => rfl
  | succ n ih =>
    unfold commitInOrder
    split
    · rfl
    · split
      · exact commitOne_ledger _ _
      · exact (ih _).trans (commitOne_ledger _ _)

theorem execSectionCommit_ledger (a1 : Fin 4) (s : State) : ∀ t, (execSectionCommit a1 s)
    = .next t → t.ledger = s.ledger := by
  unfold execSectionCommit
  intro t
  (repeat' split) <;> (rintro ⟨⟩; simp)

theorem execBurstLaunch_ledger (a1 : Fin 4) (s : State) : ∀ t, (execBurstLaunch a1 s)
    = .next t → t.ledger = s.ledger := by
  unfold execBurstLaunch
  intro t
  (repeat' split) <;> (rintro ⟨⟩; simp)

theorem execBurstEnd_ledger (a1 : Fin 4) (s : State) : ∀ t, (execBurstEnd a1 s)
    = .next t → t.ledger = s.ledger := by
  unfold execBurstEnd
  split
  · exact ledger_of_next rfl
  · exact ledger_of_next (by
      rw [endBurst_ledger, foldl_ledger _ _ (fun t a => stampAt_ledger _ _ _ _ t), passTo_ledger])

/-! ### FlowOps -/

@[simp] theorem setStream_ledger (a1 : Nat) (a2 : Stream) (s : State)
    : (setStream a1 a2 s).ledger = s.ledger := by
  unfold setStream
  simp

@[simp] theorem beginStream_ledger (a1 : Nat) (s : State) : (beginStream a1 s).ledger = s.ledger := by
  unfold beginStream
  simp

@[simp] theorem accumulate_ledger (a1 : Nat) (a2 : Nat) (a3 : Nat) (s : State)
    : (accumulate a1 a2 a3 s).ledger = s.ledger := by
  unfold accumulate
  simp
  (repeat' split) <;> simp

@[simp] theorem modIpfix_ledger (a1 : Ipfix → Ipfix) (s : State)
    : (modIpfix a1 s).ledger = s.ledger := by
  unfold modIpfix
  simp

@[simp] theorem sendMessage_ledger (a1 : Nat) (a2 : List Nat) (a3 : Bool) (s : State)
    : (sendMessage a1 a2 a3 s).ledger = s.ledger := by
  unfold sendMessage
  simp

@[simp] theorem holdMessage_ledger (template : Nat) (data : List Nat) (isData : Bool) (s : State) : (holdMessage template data isData s).ledger = s.ledger := by
  unfold holdMessage
  simp

@[simp] theorem sendHeld_ledger (s : State) : (sendHeld s).ledger = s.ledger := by
  unfold sendHeld
  (try simp only [])
  (repeat' (first | split | (refine (forEach_ledger _ _ _ ?_).trans ?_; intro _ _) | (refine (foldl_ledger _ _ ?_ _).trans ?_; intro _ _))) <;> simp

@[simp] theorem deliver_ledger (template : Nat) (data : List Nat) (isData : Bool) (s : State)
    : (deliver template data isData s).ledger = s.ledger := by
  unfold deliver
  (repeat' split) <;> simp

@[simp] theorem sendTemplates_ledger (s : State) : (sendTemplates s).ledger = s.ledger := by
  unfold sendTemplates
  split
  · exact (forEach_ledger _ _ _ (fun _ _ => deliver_ledger _ _ _ _)).trans (modIpfix_ledger _ _)
  · rfl

@[simp] theorem sendExport_ledger (a1 : Nat) (a2 : List Nat) (a3 : Bool) (s : State)
    : (sendExport a1 a2 a3 s).ledger = s.ledger := by
  unfold sendExport
  split <;> simp

@[simp] theorem discardHeld_ledger (s : State) : (discardHeld s).ledger = s.ledger := by
  unfold discardHeld
  simp

theorem orDefer_ledger (f : State → State) (h : ∀ t, (f t).ledger = t.ledger) (s : State)
    : (orDefer f s).ledger = s.ledger := by
  unfold orDefer
  dsimp only
  (repeat' split) <;> simp [h]

@[simp] theorem markSent_ledger (a1 : Nat) (a2 : Nat) (s : State)
    : (markSent a1 a2 s).ledger = s.ledger := by
  unfold markSent
  simp

@[simp] theorem entryRecord_ledger (a1 : Nat) (a2 : Nat) (a3 : Nat) (a4 : EmEntry) (s : State)
    : (entryRecord a1 a2 a3 a4 s).ledger = s.ledger := by
  unfold entryRecord
  simp

@[simp] theorem exportEntry_ledger (a1 : Nat) (a2 : Nat) (a3 : Nat) (a4 : EmEntry) (s : State)
    : (exportEntry a1 a2 a3 a4 s).ledger = s.ledger := by
  unfold exportEntry
  split <;> simp [orDefer_ledger]

@[simp] theorem orHold_ledger (template : Nat) (data : List Nat) (s : State) : (orHold template data s).ledger = s.ledger := by
  unfold orHold
  simp
  (repeat' split) <;> simp

@[simp] theorem endEntry_ledger (a1 : Nat) (a2 : Nat) (a3 : Nat) (a4 : EmEntry) (s : State)
    : (endEntry a1 a2 a3 a4 s).ledger = s.ledger := by
  unfold endEntry
  dsimp only
  split <;> simp

end Sys2Proof.Machine
end

