-- ==== Sys2Proof/Laws/LedgerTables.lean ====
section
/-! SUPPORT. What the steps of the tables, the slices, memory integrity and observability leave alone: the
queue of waiting commands, the mailbox memory, the journal and the device state. -/

namespace Sys2Proof.Machine

open Sys2Proof

/-! ### Rules -/

@[simp] theorem setRule_ledger (a1 : Nat) (a2 : Option Rule) (s : State)
    : (setRule a1 a2 s).ledger = s.ledger := by
  unfold setRule
  simp

@[simp] theorem countRule_ledger (a1 : Nat) (a2 : Rule) (a3 : Nat) (s : State)
    : (countRule a1 a2 a3 s).ledger = s.ledger := by
  unfold countRule
  simp

@[simp] theorem setTag_ledger (a1 : Nat) (a2 : TagState) (s : State)
    : (setTag a1 a2 s).ledger = s.ledger := by
  unfold setTag
  simp

@[simp] theorem mapVersions_ledger (a1 : Rule → Byte) (s : State)
    : (mapVersions a1 s).ledger = s.ledger := by
  unfold mapVersions
  simp

@[simp] theorem exportRule_ledger (a1 : Nat) (a2 : Nat) (a3 : Rule) (s : State)
    : (exportRule a1 a2 a3 s).ledger = s.ledger := by
  unfold exportRule
  simp

@[simp] theorem endRules_ledger (a1 : Nat) (s : State) : (endRules a1 s).ledger = s.ledger := by
  unfold endRules
  simp only []
  (repeat' (first | split | (refine (forEach_ledger _ _ _ ?_).trans ?_; intro _ _) | (refine (foldl_ledger _ _ ?_ _).trans ?_; intro _ _))) <;> simp

theorem execRulesRetire_ledger (s : State) : ∀ t, (execRulesRetire s)
    = .next t → t.ledger = s.ledger := by
  unfold execRulesRetire
  intro t
  (repeat' split) <;> (rintro ⟨⟩; simp)

/-! ### TableOps -/

@[simp] theorem setEm_ledger (a1 : Nat) (a2 : Option EmEntry) (s : State)
    : (setEm a1 a2 s).ledger = s.ledger := by
  unfold setEm
  simp

@[simp] theorem displace_ledger (a1 : List Nat) (s : State) : (displace a1 s).ledger = s.ledger := by
  induction a1 generalizing s with
  | nil => rfl
  | cons q l ih =>
    cases l with
    | nil => rfl
    | cons x l =>
      unfold displace
      rw [ih, setEm_ledger, setEm_ledger]

@[simp] theorem countChain_ledger (a1 : List Nat) (s : State)
    : (countChain a1 s).ledger = s.ledger := by
  unfold countChain
  split <;> simp

@[simp] theorem countNoRoom_ledger (s : State) : (countNoRoom s).ledger = s.ledger := by
  unfold countNoRoom
  simp

theorem placeEntry_ledger (a1 : EmEntry) (s : State) : ∀ t, (placeEntry a1 s)
    = some t → t.ledger = s.ledger := by
  unfold placeEntry; intro t; split
  · rintro ⟨⟩
  · rintro ⟨⟩; simp

theorem replaceEntry_ledger (a1 : Nat) (a2 : EmEntry) (a3 : EmEntry) (a4 : Bool) (s : State)
    : ∀ t, (replaceEntry a1 a2 a3 a4 s) = some t → t.ledger = s.ledger := by
  unfold replaceEntry
  intro t
  simp only []
  (repeat' split) <;> (intro h; simp at h; try (subst h; simp))

@[simp] theorem admitCandidate_ledger (a1 : Candidate) (s : State)
    : (admitCandidate a1 s).ledger = s.ledger := by
  unfold admitCandidate
  simp
  (repeat' split) <;> simp

theorem writeLearned_ledger (a1 : Candidate) (a2 : Bool) (s : State) : ∀ t, (writeLearned a1 a2 s)
    = some t → t.ledger = s.ledger := by
  unfold writeLearned
  intro t h
  try simp only [] at h
  split at h <;> (simp only [Option.map_eq_some_iff] at h; obtain ⟨p, _, rfl⟩ := h; simp)

/-! ### Tables -/

theorem modifyItem_ledger (a : Bytes) (o pos : Nat) (old : EmEntry) (l c : Bool) (s : State) :
    (modifyItem a o pos old l c s).state.ledger = s.ledger := by
  unfold modifyItem; dsimp only; split
  · simp
  · rename_i e; have h := replaceEntry_ledger _ _ _ _ _ _ e; simp only [apply_ite State.ledger, beginStream_ledger, ite_self, h, endEntry_ledger, takeFree_ledger]
theorem doItem_ledger (u : EntryUse) (a : Bytes) (o : Nat) (s : State) : (doItem u a o s).state.ledger = s.ledger := by
  cases u
  · show (addItem a o s).state.ledger = _
    unfold addItem; split
    · split
      · exact modifyItem_ledger ..
      · rfl
    · dsimp only; split
      · simp
      · rename_i e; have h := placeEntry_ledger _ _ _ e; simp_all
  · show (changeItem a o s).state.ledger = _
    unfold changeItem; split
    · exact modifyItem_ledger ..
    · rfl
  · show (deleteItem a o s).state.ledger = _
    unfold deleteItem; split
    · simp
    · rfl
  · show (readItem a o s).state.ledger = _
    unfold readItem; split <;> rfl

@[simp] theorem runItems_ledger (a1 : EntryUse) (a2 : Bytes) (a3 : Nat) (a4 : Nat) (s : State)
    : (runItems a1 a2 a3 a4 s).2.2.ledger = s.ledger := by
  unfold runItems; suffices H : ∀ (l : List Nat) (acc : Bytes × Bytes × State), (l.foldl (fun acc i => if i < a3 then let d := doItem a1 a2 (8 + 56 * i) acc.2.2; (acc.1 ++ leBytes 1 d.code, acc.2.1 ++ fit (recordLen a1) d.record, d.state) else (acc.1 ++ leBytes 1 0xFF, acc.2.1 ++ zeros (recordLen a1), acc.2.2)) acc).2.2.ledger = acc.2.2.ledger from H _ _
  intro l; induction l with
  | nil => intro acc; rfl
  | cons i l ih =>
    intro acc; rw [List.foldl_cons, ih]; split
    · exact doItem_ledger _ _ _ _
    · rfl

@[simp] theorem ageOut_ledger (a1 : Nat) (a2 : EmEntry) (s : State)
    : (ageOut a1 a2 s).ledger = s.ledger := by
  unfold ageOut
  split <;> simp

theorem execAgingVisit_ledger (a1 : Fin 4) (a2 : Nat) (s : State) : ∀ t, (execAgingVisit a1 a2 s)
    = .next t → t.ledger = s.ledger := by
  unfold execAgingVisit
  intro t
  simp only []
  (repeat' split) <;> (rintro ⟨⟩; simp)

theorem settleCandidate_ledger (a1 : Candidate) (s : State) : ∀ t, (settleCandidate a1 s)
    = some t → t.ledger = s.ledger := by
  unfold settleCandidate
  intro t
  (repeat' split) <;> (rintro ⟨⟩ <;> simp)

@[simp] theorem passCandidate_ledger (a1 : Candidate) (s : State)
    : (passCandidate a1 s).ledger = s.ledger := by
  unfold passCandidate
  split <;> simp

theorem execLearnCandidate_ledger (s : State) : ∀ t, (execLearnCandidate s)
    = .next t → t.ledger = s.ledger := by
  unfold execLearnCandidate; intro t h; split at h
  · rw [← next_inj h]
  · dsimp only at h; split at h
    · rename_i e; rw [← next_inj h]; exact (settleCandidate_ledger _ _ _ e).trans rfl
    · split at h
      · rename_i e; rw [← next_inj h]; exact (writeLearned_ledger _ _ _ _ e).trans rfl
      · rw [← next_inj h]; simp

theorem execLearnCompletion_ledger (s : State) : ∀ t, (execLearnCompletion s)
    = .next t → t.ledger = s.ledger := by
  unfold execLearnCompletion; intro t h; split at h
  · rw [← next_inj h]
  · dsimp only at h; split at h
    · rw [← next_inj h]
    · split at h
      · rename_i e; rw [← next_inj h]; exact (settleCandidate_ledger _ _ _ e).trans rfl
      · split at h
        · rename_i e; rw [← next_inj h]; exact (writeLearned_ledger _ _ _ _ e).trans rfl
        · rw [← next_inj h]; simp

/-! ### Decide -/

@[simp] theorem countParse_ledger (a1 : Pkt) (a2 : Nat) (a3 : Nat) (a4 : ParseEnd) (a5 : Fate)
    (s : State) : (countParse a1 a2 a3 a4 a5 s).ledger = s.ledger := by
  unfold countParse
  split <;> simp

@[simp] theorem matchRules_ledger (a1 : Pkt) (a2 : Nat) (a3 : Bytes) (a4 : Bytes) (a5 : Nat) (s : State)
    : (matchRules a1 a2 a3 a4 a5 s).2.ledger = s.ledger := by
  unfold matchRules
  split <;> simp

@[simp] theorem forwardLookup_ledger (a1 : Pkt) (a2 : Nat) (a3 : Nat) (a4 : BitVec 320) (s : State)
    : (forwardLookup a1 a2 a3 a4 s).2.ledger = s.ledger := by
  unfold forwardLookup
  simp
  (repeat' split) <;> simp

@[simp] theorem countSource_ledger (a1 : Pkt) (a2 : Nat) (a3 : Nat) (a4 : Bytes) (s : State)
    : (countSource a1 a2 a3 a4 s).ledger = s.ledger := by
  unfold countSource
  (repeat' split) <;> simp

@[simp] theorem learnSource_ledger (a1 : Pkt) (a2 : Nat) (a3 : Bytes) (s : State)
    : (learnSource a1 a2 a3 s).ledger = s.ledger := by
  unfold learnSource
  simp
  (repeat' split) <;> simp

/-! ### Memory -/

@[simp] theorem spoilFrame_ledger (a1 : Nat) (s : State) : (spoilFrame a1 s).ledger = s.ledger := by
  unfold spoilFrame
  simp

@[simp] theorem spoilStaged_ledger (a1 : Nat) (s : State) : (spoilStaged a1 s).ledger = s.ledger := by
  unfold spoilStaged
  simp

@[simp] theorem anyFrame_ledger (a1 : List Nat) (s : State) : (anyFrame a1 s).2.ledger = s.ledger := by
  unfold anyFrame
  simp

@[simp] theorem loseCounter_ledger (a1 : Nat) (s : State) : (loseCounter a1 s).ledger = s.ledger := by
  unfold loseCounter
  simp
  (repeat' split) <;> simp

@[simp] theorem loseItem_ledger (a1 : Nat) (a2 : Nat) (a3 : Nat) (s : State)
    : (loseItem a1 a2 a3 s).ledger = s.ledger := by
  unfold loseItem
  simp

@[simp] theorem spoilRequest_ledger (s : State) : (spoilRequest s).ledger = s.ledger := by
  unfold spoilRequest
  simp
  (repeat' split) <;> simp

@[simp] theorem damageDump_ledger (addr : Nat) (s : State) : (damageDump addr s).ledger = s.ledger := by
  unfold damageDump
  simp
  (repeat' split) <;> simp

@[simp] theorem spoilOne_ledger (r addr : Nat) (l : List Nat) (f : Nat → State → State) (s : State)
    (hf : ∀ i t, (f i t).ledger = t.ledger) : (spoilOne r addr l f s).ledger = s.ledger := by
  unfold spoilOne
  split
  · rename_i e; rw [modRegion_ledger, hf]; exact (congrArg (fun x => x.2.ledger) e).symm.trans (anyFrame_ledger _ _)
  · rename_i e; exact (congrArg (fun x => x.2.ledger) e).symm.trans (anyFrame_ledger _ _)

/-- A word outside region 14, whose loss resets the device, and outside region 4, which holds the mailboxes. -/
theorem contain_ledger (r addr : Nat) (s : State) (hr : r ≠ 14 ∧ r ≠ 4) :
    (contain r addr s).ledger = s.ledger := by
  unfold contain
  split
  · exact spoilOne_ledger _ _ _ _ _ spoilFrame_ledger
  · exact spoilOne_ledger _ _ _ _ _ spoilFrame_ledger
  · exact spoilOne_ledger _ _ _ _ _ spoilStaged_ledger
  · exact absurd rfl hr.2
  · dsimp only
    split
    · exact loseCounter_ledger _ _
    · exact loseItem_ledger _ _ _ _
  · exact spoilRequest_ledger _
  · exact damageDump_ledger _ _
  · exact absurd rfl hr.1
  · split
    · rfl
    · exact loseItem_ledger _ _ _ _

@[simp] theorem landBack_ledger (w : WriteBack) (s : State) : (landBack w s).ledger = s.ledger := by
  unfold landBack setFilter
  simp

@[simp] theorem settleBacks_ledger (s : State) : (settleBacks s).ledger = s.ledger := by
  unfold settleBacks
  exact foldl_ledger _ _ (fun t w => landBack_ledger w t) _

@[simp] theorem supersede_ledger (r addr : Nat) (s : State) : (supersede r addr s).ledger = s.ledger := by
  unfold supersede
  exact (bump_ledger _ _ _).trans (settleBacks_ledger s)

@[simp] theorem fillBucket_ledger (a1 : Nat) (s : State) : (fillBucket a1 s).ledger = s.ledger := by
  unfold fillBucket
  simp
  (repeat' split) <;> simp

@[simp] theorem setFilter_ledger (c : Nat) (l : List FilterEntry) (s : State) : (setFilter c l s).ledger = s.ledger := by
  unfold setFilter
  simp

@[simp] theorem correctWord_ledger (a1 : Nat) (a2 : Nat) (s : State)
    : (correctWord a1 a2 s).ledger = s.ledger := by
  have key : ∀ (x : State) (m : MemInt), ({ x with mem := m } : State).ledger = x.ledger := fun _ _ => rfl
  unfold correctWord
  dsimp only
  split
  · simp only [setFilter_ledger, apply_ite State.ledger, bump_ledger, key, settleBacks_ledger, ite_self]
  · simp only [fillBucket_ledger, setFilter_ledger, apply_ite State.ledger, bump_ledger, key, settleBacks_ledger,
      ite_self]

theorem badWord_ledger (r addr : Nat) (s : State) (hr : r ≠ 14 ∧ r ≠ 4) :
    (badWord r addr s).ledger = s.ledger := by
  unfold badWord
  split
  · rfl
  · rw [contain_ledger _ _ _ hr, raise_ledger, modRegion_ledger]

@[simp] theorem goodWord_ledger (a1 : Nat) (a2 : Nat) (s : State)
    : (goodWord a1 a2 s).ledger = s.ledger := by
  unfold goodWord
  simp

theorem decideWord_ledger (r addr : Nat) (v : EccVerdict) (s : State) (hr : r ≠ 14 ∧ r ≠ 4) :
    (decideWord r addr v s).ledger = s.ledger := by
  unfold decideWord
  split
  · rfl
  · exact correctWord_ledger _ _ _
  · rw [badWord_ledger _ _ _ hr, bump_ledger]
  · rw [badWord_ledger _ _ _ hr, bump_ledger]

@[simp] theorem noteLate_ledger (a1 : Nat) (s : State) : (noteLate a1 s).ledger = s.ledger := by
  unfold noteLate
  simp
  (repeat' split) <;> simp

@[simp] theorem endLap_ledger (a1 : Nat) (s : State) : (endLap a1 s).ledger = s.ledger := by
  unfold endLap
  simp

@[simp] theorem endPart_ledger (r part : Nat) (s : State) : (endPart r part s).ledger = s.ledger := by
  unfold endPart
  simp
  (repeat' split) <;> simp

@[simp] theorem moveScrubber_ledger (a1 : Nat) (a2 : Nat) (s : State)
    : (moveScrubber a1 a2 s).ledger = s.ledger := by
  unfold moveScrubber
  simp
  (repeat' split) <;> simp

theorem execEccBucketLeak_ledger (a1 : Fin 15) (s : State) : ∀ t, (execEccBucketLeak a1 s)
    = .next t → t.ledger = s.ledger := by
  unfold execEccBucketLeak
  rintro t ⟨⟩
  simp

theorem execEccFilterExpiry_ledger (a1 : Fin 15) (a2 : Nat) (s : State)
    : ∀ t, (execEccFilterExpiry a1 a2 s) = .next t → t.ledger = s.ledger := by
  unfold execEccFilterExpiry
  dsimp only
  split
  · exact ledger_of_next (settleBacks_ledger s)
  · exact ledger_of_next (by rw [setFilter_ledger, passTo_ledger, settleBacks_ledger])

@[simp] theorem setMerge_ledger (a1 : Nat) (a2 : List MergeEntry) (s : State)
    : (setMerge a1 a2 s).ledger = s.ledger := by
  unfold setMerge
  simp

@[simp] theorem wordData_ledger (r addr : Nat) (s : State) : (wordData r addr s).2.ledger = s.ledger := by
  unfold wordData
  simp
  (repeat' split) <;> simp

@[simp] theorem mergedData_ledger (e : MergeEntry) (s : State) : (mergedData e s).2.ledger = s.ledger := by
  unfold mergedData
  simp

@[simp] theorem retireEntry_ledger (a1 : Nat) (a2 : MergeEntry) (s : State)
    : (retireEntry a1 a2 s).ledger = s.ledger := by
  have key : ∀ (x : State) (m : MemInt), ({ x with mem := m } : State).ledger = x.ledger := fun _ _ => rfl
  unfold retireEntry
  dsimp only
  simp only [apply_ite State.ledger, bump_ledger, goodWord_ledger, modRegion_ledger, setMerge_ledger,
    supersede_ledger, key, mergedData_ledger, ite_self]

@[simp] theorem retireHeld_ledger (r addr : Nat) (s : State) : (retireHeld r addr s).ledger = s.ledger := by
  unfold retireHeld
  dsimp only
  split
  · rfl
  · exact retireEntry_ledger _ _ _

@[simp] theorem makeRoom_ledger (a1 : Nat) (s : State) : (makeRoom a1 s).ledger = s.ledger := by
  unfold makeRoom
  split
  · rfl
  · split
    · rw [retireEntry_ledger, bump_ledger]
    · rfl

@[simp] theorem execCause_ledger (a1 : Nat) (a2 : RetireCause) (s : State)
    : (execCause a1 a2 s).ledger = s.ledger := by
  unfold execCause
  split
  · rfl
  · rfl
  · split
    · rfl
    · rw [retireEntry_ledger, passTo_ledger]
  · split
    · rfl
    · exact retireEntry_ledger _ _ _

@[simp] theorem touchAll_ledger (l : List Nat) (s : State) : (touchAll l s).ledger = s.ledger := by
  unfold touchAll
  simp

@[simp] theorem wakeForWord_ledger (a1 : Nat) (a2 : Nat) (s : State)
    : (wakeForWord a1 a2 s).ledger = s.ledger := by
  unfold wakeForWord
  split <;> simp

/-! ### Pipeline -/

@[simp] theorem pickRecirc_ledger (a1 : Nat) (a2 : List Nat) (s : State)
    : (pickRecirc a1 a2 s).2.ledger = s.ledger := by
  have key : ∀ (x : State) (u : Tm), ({ x with tm := u } : State).ledger = x.ledger := fun _ _ => rfl
  induction a2 generalizing s with
  | nil => rfl
  | cons i l ih =>
    unfold pickRecirc
    dsimp only
    split
    · rw [ih, dropHeads_ledger]
    · dsimp only
      rw [leaveQueue_ledger, key, crossPacket_ledger, chargeShapers_ledger, modQueue_ledger,
        dropHeads_ledger]

@[simp] theorem pickHost_ledger (a1 : Nat) (a2 : List Nat) (s : State)
    : (pickHost a1 a2 s).2.ledger = s.ledger := by
  induction a2 generalizing s with
  | nil => rfl
  | cons r l ih =>
    unfold pickHost
    dsimp only
    repeat' split
    all_goals simp [ih]

@[simp] theorem takePacket_ledger (n k cport len : Nat) (s : State) : (takePacket n k cport len s).ledger = s.ledger := by
  unfold takePacket
  simp

@[simp] theorem nextPacket_ledger (a1 : Nat) (s : State) : (nextPacket a1 s).2.ledger = s.ledger := by
  have key : ∀ (x : State) (c : Cls), ({ x with cls := c } : State).ledger = x.ledger := fun _ _ => rfl
  have hr := pickRecirc_ledger a1 ((List.range 8).map (fun j => (tget 0 s.tm.recircTurn a1 + j) % 8)) s
  unfold nextPacket
  split
  · split
    · dsimp only
      rw [key, takePacket_ledger, setInput_ledger]
    · rfl
  · dsimp only
    split
    · rename_i e
      rw [e] at hr
      exact hr
    · rename_i e
      rw [e] at hr
      exact (pickHost_ledger _ _ _).trans hr

@[simp] theorem beginTrace_ledger (a1 : Pkt) (s : State) : (beginTrace a1 s).ledger = s.ledger := by
  unfold beginTrace
  simp

@[simp] theorem selectPacket_ledger (a1 : Nat) (a2 : Pkt) (s : State)
    : (selectPacket a1 a2 s).2.ledger = s.ledger := by
  unfold selectPacket
  simp
  (repeat' split) <;> simp

@[simp] theorem beginPass_ledger (a1 : Nat) (a2 : Pkt) (s : State)
    : (beginPass a1 a2 s).2.ledger = s.ledger := by
  unfold beginPass
  split <;> simp

@[simp] theorem takeEngine_ledger (a1 : Nat) (s : State) : (takeEngine a1 s).2.ledger = s.ledger := by
  unfold takeEngine
  simp

@[simp] theorem judgePass_ledger (a1 : Pkt) (a2 : Found) (a3 : Fate) (a4 : Bytes) (s : State)
    : (judgePass a1 a2 a3 a4 s).2.ledger = s.ledger := by
  unfold judgePass
  (repeat' split) <;> simp

@[simp] theorem readEntries_ledger (a1 : List Nat) (a2 : List (Nat × EccVerdict)) (s : State) :
    (readEntries a1 a2 s).ledger = s.ledger := by
  unfold readEntries
  refine foldl_ledger _ _ (fun t e => ?_) s
  split
  · rw [decideWord_ledger _ _ _ _ (by decide), retireHeld_ledger]
  · rfl

@[simp] theorem touchSlice_ledger (a1 : Nat) (s : State) : (touchSlice a1 s).ledger = s.ledger := by
  unfold touchSlice
  simp

@[simp] theorem decidePass_ledger (a1 : Nat) (a2 : Pkt) (a3 : List (Nat × EccVerdict)) (s : State)
    : (decidePass a1 a2 a3 s).2.ledger = s.ledger := by
  unfold decidePass
  simp

@[simp] theorem pushSample_ledger (a1 : Nat) (a2 : Sample) (s : State)
    : (pushSample a1 a2 s).ledger = s.ledger := by
  unfold pushSample
  simp
  (repeat' split) <;> simp

@[simp] theorem samplePass_ledger (a1 : Nat) (a2 : Decision) (s : State)
    : (samplePass a1 a2 s).ledger = s.ledger := by
  unfold samplePass
  simp
  (repeat' split) <;> simp

@[simp] theorem pushDecided_ledger (a1 : Pkt) (a2 : List (Nat × CopyKind)) (s : State)
    : (pushDecided a1 a2 s).ledger = s.ledger := by
  unfold pushDecided
  simp

@[simp] theorem dropInSlice_ledger (a1 : Nat) (a2 : Pkt) (s : State)
    : (dropInSlice a1 a2 s).ledger = s.ledger := by
  unfold dropInSlice
  simp

@[simp] theorem recirculate_ledger (a1 : Decision) (s : State)
    : (recirculate a1 s).ledger = s.ledger := by
  unfold recirculate
  simp
  (repeat' split) <;> simp

@[simp] theorem countAction_ledger (a1 : Decision) (s : State)
    : (countAction a1 s).ledger = s.ledger := by
  unfold countAction
  (repeat' split) <;> simp

@[simp] theorem actOn_ledger (a1 : Decision) (s : State) : (actOn a1 s).ledger = s.ledger := by
  unfold actOn
  simp
  (repeat' split) <;> simp

@[simp] theorem discardInSlice_ledger (a1 : Pkt) (s : State)
    : (discardInSlice a1 s).ledger = s.ledger := by
  unfold discardInSlice
  split <;> simp

theorem execPipelinePass_ledger (a1 : Fin 2) (s : State) (a2 : List (Nat × EccVerdict))
    : ∀ t, (execPipelinePass a1 s a2) = .next t → t.ledger = s.ledger := by
  unfold execPipelinePass
  apply ledger_of_ite
  · exact ledger_of_next (wantAll_ledger _ _)
  · have e := nextPacket_ledger a1.val s
    split
    · rename_i u
      rw [u] at e
      exact ledger_of_next e
    · rename_i u
      rw [u] at e
      apply ledger_of_ite
      · exact ledger_of_next ((discardInSlice_ledger _ _).trans e)
      · dsimp only
        refine ledger_of_next ?_
        rw [actOn_ledger, countAction_ledger, samplePass_ledger, stampAt_ledger, decidePass_ledger, stampAt_ledger,
          touchSlice_ledger, beginPass_ledger]
        exact e

@[simp] theorem enqueueCopy_ledger (a1 : Nat) (a2 : Pkt) (s : State)
    : (enqueueCopy a1 a2 s).ledger = s.ledger := by
  unfold enqueueCopy
  (repeat' split) <;> simp

@[simp] theorem meterPacket_ledger (a1 : Pkt) (s : State)
    : (meterPacket a1 s).2.2.ledger = s.ledger := by
  unfold meterPacket
  split <;> simp

@[simp] theorem noteCopies_ledger (a1 : Pkt) (a2 : Nat) (s : State)
    : (noteCopies a1 a2 s).ledger = s.ledger := by
  unfold noteCopies
  split <;> simp

theorem execEnqueue_ledger (s : State) : ∀ t, (execEnqueue s) = .next t → t.ledger = s.ledger := by
  have key : ∀ (x : State) (c : Cls), ({ x with cls := c } : State).ledger = x.ledger := fun _ _ => rfl
  unfold execEnqueue
  split
  · exact ledger_of_next rfl
  · dsimp only
    apply ledger_of_ite
    · refine ledger_of_next ?_
      simp only [dropPacket_ledger, apply_ite State.ledger, releaseTag_ledger, takePacket_ledger, key, ite_self]
    · apply ledger_of_ite
      · exact ledger_of_next (by rw [dropPacket_ledger, meterPacket_ledger, takePacket_ledger, key])
      · refine ledger_of_next ?_
        rw [foldl_ledger _ _ (fun t e => enqueueCopy_ledger _ _ t), forEach_ledger _ _ _ (fun _ _ => book_ledger ..),
          noteCopies_ledger, addRefs_ledger, meterPacket_ledger, takePacket_ledger, key]

/-! ### Egress -/

@[simp] theorem loopBack_ledger (p : Nat) (b : Bytes) (s : State) : (loopBack p b s).ledger = s.ledger := by
  unfold loopBack
  (repeat' split) <;> simp

@[simp] theorem sendOwn_ledger (a1 : Nat) (a2 : OwnFrame) (s : State)
    : (sendOwn a1 a2 s).ledger = s.ledger := by
  have key : ∀ (x : State) (n : Nat), ({ x with fresh := n } : State).ledger = x.ledger := fun _ _ => rfl
  unfold sendOwn
  dsimp only
  split
  · split
    · rw [noteIdle_ledger, bump_ledger, apply_ite State.ledger, offerCmac_ledger, key, ite_self]
    · rename_i e
      rw [macsecSend_ledger _ _ _ _ _ e, apply_ite State.ledger, offerCmac_ledger, key, ite_self]
  · rw [loopBack_ledger, putOwn_ledger, apply_ite State.ledger, offerCmac_ledger, key, ite_self]

@[simp] theorem dropHeld_ledger (a1 : Nat) (s : State) : (dropHeld a1 s).ledger = s.ledger := by
  unfold dropHeld
  (repeat' split) <;> simp

@[simp] theorem holdHead_ledger (a1 : Nat) (s : State) : (holdHead a1 s).ledger = s.ledger := by
  unfold holdHead
  split <;> simp

@[simp] theorem testHeads_ledger (a1 : Nat) (a2 : List Nat) (s : State)
    : (testHeads a1 a2 s).2.ledger = s.ledger := by
  induction a2 generalizing s with
  | nil => rfl
  | cons c l ih =>
    unfold testHeads
    dsimp only
    repeat' split
    all_goals simp [ih]

@[simp] theorem testHead_ledger (a1 : Nat) (s : State) : (testHead a1 s).ledger = s.ledger := by
  unfold testHead
  simp

@[simp] theorem passHold_ledger (q limit : Nat) (s : State) : (passHold q limit s).ledger = s.ledger := by
  unfold passHold
  split
  · split
    · exact passMain_ledger ..
    · exact passTo_ledger ..
  · exact passTo_ledger ..

theorem execGateHoldTest_ledger (a1 : Nat) (s : State) : ∀ t, (execGateHoldTest a1 s)
    = .next t → t.ledger = s.ledger := by
  have g : ∀ h cycle, (passHold a1 (h + cycle * 1000) s).ledger = s.ledger := fun _ _ => passHold_ledger ..
  unfold execGateHoldTest
  intro t
  generalize ha : holdCycle s a1 = c
  generalize hb : (queueOf s a1).hold = b
  match b, c with
  | some h, some cycle =>
    dsimp only
    have k := g h cycle
    generalize passHold a1 (h + cycle * 1000) s = y at k ⊢
    split
    · split <;> (rintro ⟨⟩; simp [k])
    · rintro ⟨⟩
      exact k
  | none, _ =>
    rintro ⟨⟩
    rfl
  | some _, none =>
    rintro ⟨⟩
    rfl

@[simp] theorem keepDeficits_ledger (a1 : Nat) (a2 : Picked) (s : State)
    : (keepDeficits a1 a2 s).ledger = s.ledger := by
  unfold keepDeficits
  simp

@[simp] theorem putLeaving_ledger (a1 : Nat) (a2 : Leaving) (s : State)
    : (putLeaving a1 a2 s).ledger = s.ledger := by
  unfold putLeaving
  simp

@[simp] theorem startFrame_ledger (a1 : Nat) (a2 : Nat) (a3 : Copy) (s : State)
    : (startFrame a1 a2 a3 s).ledger = s.ledger := by
  have h : ∀ n x, (stampOn n x).2.ledger = x.ledger := stampOn_ledger
  unfold startFrame
  dsimp only
  split
  · rw [dropResident_ledger, popQueue_ledger]
  · split
    · split
      · simp
      · rename_i e
        rw [putLeaving_ledger, stampAt_ledger, macsecSend_ledger _ _ _ _ _ e]
        simp
    · simp

@[simp] theorem startNextFrame_ledger (a1 : Nat) (s : State)
    : (startNextFrame a1 s).ledger = s.ledger := by
  unfold startNextFrame
  simp
  (repeat' split) <;> simp

theorem execTransmitStart_ledger (a1 : Fin 16) (s : State) : ∀ t, (execTransmitStart a1 s)
    = .next t → t.ledger = s.ledger := by
  unfold execTransmitStart
  apply ledger_of_ite
  · exact ledger_of_next (forEach_ledger _ _ _ (fun i t => flushQueue_ledger _ _ t))
  apply ledger_of_ite
  · exact ledger_of_next rfl
  · dsimp only
    split
    · apply ledger_of_ite
      · exact ledger_of_next (by rw [startNextFrame_ledger, passTo_ledger])
      · exact ledger_of_next (by rw [sendOwn_ledger, modPort_ledger, passTo_ledger])
    · exact ledger_of_next (by rw [startNextFrame_ledger, passTo_ledger])

@[simp] theorem stompLeaving_ledger (a1 : Nat) (a2 : Nat) (a3 : Leaving) (s : State)
    : (stompLeaving a1 a2 a3 s).ledger = s.ledger := by
  unfold stompLeaving
  simp
  (repeat' split) <;> simp

@[simp] theorem completeLeaving_ledger (a1 : Nat) (a2 : Leaving) (s : State)
    : (completeLeaving a1 a2 s).ledger = s.ledger := by
  unfold completeLeaving
  simp
  (repeat' split) <;> simp

theorem execEgressFrameEnd_ledger (a1 : Fin 16) (a2 : Bool) (s : State)
    : ∀ t, (execEgressFrameEnd a1 a2 s) = .next t → t.ledger = s.ledger := by
  unfold execEgressFrameEnd
  intro t
  (repeat' split) <;> (rintro ⟨⟩; simp)

/-! ### HostRings -/

@[simp] theorem setRx_ledger (a1 : Nat) (a2 : Ring) (s : State)
    : (setRx a1 a2 s).ledger = s.ledger := by
  unfold setRx
  simp

@[simp] theorem setTx_ledger (a1 : Nat) (a2 : Ring) (s : State)
    : (setTx a1 a2 s).ledger = s.ledger := by
  unfold setTx
  simp

@[simp] theorem writeRx_ledger (a1 : Nat) (a2 : Nat) (a3 : Copy) (s : State)
    : (writeRx a1 a2 a3 s).ledger = s.ledger := by
  unfold writeRx
  simp

theorem execHostRxDeliver_ledger (a1 : Fin 4) (a2 : Word64) (s : State)
    : ∀ t, (execHostRxDeliver a1 a2 s) = .next t → t.ledger = s.ledger := by
  unfold execHostRxDeliver
  intro t
  simp only []
  (repeat' split) <;> (rintro ⟨⟩; simp)

@[simp] theorem closeTx_ledger (a1 : Nat) (a2 : Nat) (a3 : Bytes) (s : State)
    : (closeTx a1 a2 a3 s).ledger = s.ledger := by
  unfold closeTx
  simp

theorem execHostTxFetch_ledger (a1 : Fin 4) (a2 : Bytes) (a3 : Option Bytes) (s : State)
    : ∀ t, (execHostTxFetch a1 a2 a3 s) = .next t → t.ledger = s.ledger := by
  unfold execHostTxFetch
  intro t
  simp only []
  (repeat' split) <;> (rintro ⟨⟩; simp)

/-! ### ObsRead -/

@[simp] theorem setObsCounter_ledger (a1 : Nat) (a2 : Nat) (a3 : ObsCounter) (s : State)
    : (setObsCounter a1 a2 a3 s).ledger = s.ledger := by
  unfold setObsCounter
  simp

@[simp] theorem countCycles_ledger (i : Nat) (s : State) : (countCycles i s).ledger = s.ledger := by
  unfold countCycles
  simp
  (repeat' split) <;> simp

@[simp] theorem countCoding_ledger (p : Nat) (s : State) : (countCoding p s).ledger = s.ledger := by
  unfold countCoding
  simp

@[simp] theorem compensateIdle_ledger (l : Nat) (s : State) : (compensateIdle l s).ledger = s.ledger := by
  unfold compensateIdle
  (repeat' split) <;> simp

@[simp] theorem latchGroup_ledger (a1 : Nat) (s : State) : (latchGroup a1 s).ledger = s.ledger := by
  unfold latchGroup
  refine (forEach_ledger _ _ _ (fun k x => ?_)).trans ?_
  · exact (setObsCounter_ledger _ _ _ _).trans (takeFree_ledger x)
  · rw [countCycles_ledger]
    unfold settleIdle
    split
    · exact forEach_ledger _ _ _ (fun _ _ => compensateIdle_ledger _ _)
    · rfl

@[simp] theorem seedSlices_ledger (s : State) : (seedSlices s).ledger = s.ledger := by
  unfold seedSlices
  simp

/-! ### Audit -/

@[simp] theorem recordQuantity_ledger (a1 : Nat) (a2 : Nat × Nat × Int) (s : State)
    : (recordQuantity a1 a2 s).ledger = s.ledger := by
  unfold recordQuantity
  simp
  (repeat' split) <;> simp

@[simp] theorem settleBooks_ledger (s : State) : (settleBooks s).ledger = s.ledger := by
  have key : ∀ (x : State) (o : Obs), ({ x with obs := o } : State).ledger = x.ledger := fun _ _ => rfl
  unfold settleBooks
  dsimp only
  rw [key, foldl_ledger _ _ (fun t a => key t _), apply_ite State.ledger,
    foldl_ledger _ _ (fun t a => setCount_ledger _ _ t), key, ite_self]

@[simp] theorem latchDump_ledger (a1 : Nat) (s : State) : (latchDump a1 s).ledger = s.ledger := by
  unfold latchDump
  simp
  (repeat' split) <;> simp

@[simp] theorem dumpInstant_ledger (s : State) : (dumpInstant s).ledger = s.ledger := by
  unfold dumpInstant
  split <;> simp

@[simp] theorem latchFlight_ledger (s : State) : (latchFlight s).ledger = s.ledger := by
  unfold latchFlight
  simp

theorem execAuditPoint_ledger (u : Unit) (s : State) : ∀ t, (execAuditPoint u s) = .next t → t.ledger = s.ledger := by
  have key : ∀ (x : State) (o : Obs), ({ x with obs := o } : State).ledger = x.ledger := fun _ _ => rfl
  unfold execAuditPoint
  apply ledger_of_ite
  · exact ledger_of_next rfl
  · refine ledger_of_next ?_
    dsimp only
    split <;> simp only [dumpInstant_ledger, foldl_ledger _ _ (fun t a => recordQuantity_ledger _ _ t),
      settleBooks_ledger, latchFlight_ledger, key, passMain_ledger]

/-! ### Export -/

@[simp] theorem startResolve_ledger (s : State) : (startResolve s).ledger = s.ledger := by
  unfold startResolve
  (repeat' split) <;> simp

theorem execIpfixTemplate_ledger (s : State) : ∀ t, (execIpfixTemplate s)
    = .next t → t.ledger = s.ledger := by
  unfold execIpfixTemplate
  intro t
  (repeat' split) <;> (rintro ⟨⟩; simp)

@[simp] theorem endResolve_ledger (a1 : Bool) (s : State) : (endResolve a1 s).ledger = s.ledger := by
  unfold endResolve
  split <;> simp

theorem execCollectorResolve_ledger (a1 : Bool) (s : State) : ∀ t, (execCollectorResolve a1 s)
    = .next t → t.ledger = s.ledger := by
  unfold execCollectorResolve
  intro t
  (repeat' split) <;> (rintro ⟨⟩; simp)

@[simp] theorem passTimeout_ledger (a1 : Nat) (a2 : Nat) (s : State)
    : (passTimeout a1 a2 s).ledger = s.ledger := by
  unfold passTimeout
  (repeat' split) <;> simp

theorem execIpfixRecord_ledger (a1 : IpfixEntry) (a2 : Byte) (s : State)
    : ∀ t, (execIpfixRecord a1 a2 s) = .next t → t.ledger = s.ledger := by
  unfold execIpfixRecord
  intro t
  simp only []
  (repeat' split) <;> (rintro ⟨⟩; simp [orDefer_ledger])

theorem execCounterAccumulation_ledger (s : State) : ∀ t, (execCounterAccumulation s)
    = .next t → t.ledger = s.ledger := by
  unfold execCounterAccumulation; intro t h; split at h <;> cases h
  · exact foldl_ledger _ _ (fun t a => by split <;> simp) s
  · rfl

@[simp] theorem noteSent_ledger (a1 : Tab Nat) (a2 : List Nat) (s : State)
    : (noteSent a1 a2 s).ledger = s.ledger := by
  unfold noteSent
  simp

@[simp] theorem deltaRecord_ledger (a1 : Nat) (a2 : List Nat) (a3 : Tab Nat) (a4 : List Nat) (s : State)
    : (deltaRecord a1 a2 a3 a4 s).ledger = s.ledger := by
  unfold deltaRecord
  dsimp only
  split
  · rfl
  · exact orDefer_ledger _ (fun t => by rw [noteSent_ledger, sendExport_ledger]) s

@[simp] theorem queueRecord_ledger (a1 : Tab Nat) (a2 : Nat) (s : State)
    : (queueRecord a1 a2 s).ledger = s.ledger := by
  unfold queueRecord
  dsimp only
  split
  · rfl
  · exact orDefer_ledger _ (fun t => by rw [noteSent_ledger, sendExport_ledger]) s

@[simp] theorem exportDump_ledger (a1 : DumpJob) (s : State) : (exportDump a1 s).ledger = s.ledger := by
  unfold exportDump; dsimp only
  have h1 : ∀ (a b : State) (c : Prop) [Decidable c], a.ledger = b.ledger → (if c then a else b).ledger = b.ledger := by
    intro a b c _ h; split
    · exact h
    · rfl
  refine (h1 _ _ _ ?_).trans ((h1 _ _ _ ?_).trans ((h1 _ _ _ ?_).trans (h1 _ _ _ ?_)))
  · simp
  · exact foldl_ledger _ _ (fun t a => by simp) _
  · simp
  · simp

@[simp] theorem writeCopy_ledger (a1 : DumpJob) (s : State) : (writeCopy a1 s).ledger = s.ledger := by
  unfold writeCopy
  simp

theorem execDumpDone_ledger (s : State) : ∀ t, (execDumpDone s) = .next t → t.ledger = s.ledger := by
  unfold execDumpDone
  intro t
  simp only []
  (repeat' split) <;> (rintro ⟨⟩; simp)

/-! ### Maintenance -/

@[simp] theorem setRecorder_ledger (a1 : Nat) (s : State) : (setRecorder a1 s).ledger = s.ledger := by
  unfold setRecorder
  simp
  (repeat' split) <;> simp

@[simp] theorem ringBytes_ledger (a1 : Nat) (a2 : Nat) (s : State)
    : (ringBytes a1 a2 s).2.ledger = s.ledger := by
  unfold ringBytes
  simp

@[simp] theorem copyRing_ledger (a1 : Nat) (a2 : Nat) (a3 : Nat) (s : State)
    : (copyRing a1 a2 a3 s).ledger = s.ledger := by
  unfold copyRing
  simp

@[simp] theorem writeCheckpoint_ledger (s : State) : (writeCheckpoint s).ledger = s.ledger := by
  unfold writeCheckpoint
  simp
  (repeat' split) <;> simp

theorem execCheckpoint_ledger (s : State) : ∀ t, (execCheckpoint s)
    = .next t → t.ledger = s.ledger := by
  unfold execCheckpoint
  intro t
  (repeat' split) <;> (rintro ⟨⟩; simp)

@[simp] theorem eraseSlot_ledger (a1 : Nat) (s : State) : (eraseSlot a1 s).ledger = s.ledger := by
  unfold eraseSlot
  simp

@[simp] theorem selectSlot_ledger (a1 : Nat) (s : State) : (selectSlot a1 s).ledger = s.ledger := by
  unfold selectSlot
  simp

/-! ### Deadline -/

@[simp] theorem undo_ledger (a1 : Running) (s : State) : (undo a1 s).ledger = s.ledger := by
  unfold undo
  (repeat' split) <;> simp

theorem execRcFieldRead_ledger (a1 : RcField) (a2 : Nat) (s : State) : ∀ t, (execRcFieldRead a1 a2 s)
    = .next t → t.ledger = s.ledger := by
  unfold execRcFieldRead
  intro t
  (repeat' split) <;> (rintro ⟨⟩; simp)

@[simp] theorem touchFor_ledger (opcode : Nat) (s : State) : (touchFor opcode s).ledger = s.ledger := by
  unfold touchFor
  simp
  (repeat' split) <;> simp

@[simp] theorem beginCommand_ledger (n : Nat) (s : State) : (beginCommand n s).ledger = s.ledger := by
  unfold beginCommand
  simp

@[simp] theorem restoreBank_ledger (g : Nat) (s : State) : (restoreBank g s).ledger = s.ledger := by
  unfold restoreBank
  (repeat' split) <;> simp

@[simp] theorem sendEraseOrder_ledger (s : State) : (sendEraseOrder s).ledger = s.ledger := by
  unfold sendEraseOrder
  (repeat' split) <;> simp [apply_ite State.ledger]

@[simp] theorem flushCipher_ledger (reason : Nat) (s : State) : (flushCipher reason s).ledger = s.ledger := by
  unfold flushCipher
  (repeat' (first | split | (refine (forEach_ledger _ _ _ ?_).trans ?_; intro _ _) | (refine (foldl_ledger _ _ ?_ _).trans ?_; intro _ _))) <;> simp

@[simp] theorem dropDecided_ledger (reason : Nat) (d : Decided) (s : State) : (dropDecided reason d s).ledger = s.ledger := by
  unfold dropDecided
  (repeat' split) <;> simp

@[simp] theorem flushSlices_ledger (reason : Nat) (s : State) : (flushSlices reason s).ledger = s.ledger := by
  have key : ∀ (x : State) (c : Cls), ({ x with cls := c } : State).ledger = x.ledger := fun _ _ => rfl
  unfold flushSlices
  dsimp only
  rw [foldl_ledger _ _ (fun t d => dropDecided_ledger _ d t), foldl_ledger, key]
  intro t e
  rw [dropPacket_ledger, takePacket_ledger]

@[simp] theorem loseBlocks_ledger (s : State) : (loseBlocks s).ledger = s.ledger := by
  unfold loseBlocks
  rw [forEach_ledger _ _ _ (fun _ t => loseDomain_ledger _ t), flushCipher_ledger, flushSlices_ledger]

@[simp] theorem failRestore_ledger (e : LostItem) (s : State) : (failRestore e s).ledger = s.ledger := by
  unfold failRestore
  simp
  (repeat' split) <;> simp

end Sys2Proof.Machine
end

