-- ==== Sys2Proof/Laws/Table.lean ====
section
/-! SUPPORT. Laws of the sparse tables and of the mailbox memory: a read after a write, and that every
operation keeps the canonical form. -/

namespace Sys2Proof.Machine

open Sys2Proof

variable {α : Type}

@[simp] theorem tget_nil (d : α) (k : Nat) : tget d [] k = d := rfl

theorem tget_cons (d : α) (e : Nat × α) (t : Tab α) (k : Nat) :
    tget d (e :: t) k = if e.1 = k then e.2 else tget d t k := rfl

theorem terase_cons (e : Nat × α) (t : Tab α) (k : Nat) :
    terase (e :: t) k = if e.1 = k then terase t k else e :: terase t k := rfl

theorem tinsert_cons (e : Nat × α) (t : Tab α) (k : Nat) (v : α) :
    tinsert (e :: t) k v = if k < e.1 then (k, v) :: e :: t else e :: tinsert t k v := rfl

/-! ### A read after a write -/

theorem tget_terase (d : α) (t : Tab α) (k j : Nat) :
    tget d (terase t k) j = if j = k then d else tget d t j := by
  induction t with
  | nil => simp [terase]
  | cons e t ih =>
    rw [terase_cons, tget_cons]
    by_cases h : e.1 = k
    · rw [if_pos h, ih]
      by_cases g : j = k
      · simp [g]
      · rw [if_neg g, if_neg g, if_neg (by omega)]
    · rw [if_neg h, tget_cons, ih]
      by_cases g : j = k
      · rw [if_pos g, if_neg (by omega), if_pos g]
      · simp [g]

theorem not_mem_terase (t : Tab α) (k : Nat) : ∀ e ∈ terase t k, e.1 ≠ k := by
  induction t with
  | nil => intro e h; simp [terase] at h
  | cons f t ih =>
    intro e h
    rw [terase_cons] at h
    by_cases g : f.1 = k
    · rw [if_pos g] at h; exact ih e h
    · rw [if_neg g] at h
      rcases List.mem_cons.mp h with rfl | h
      · exact g
      · exact ih e h

theorem tget_tinsert (d : α) (t : Tab α) (k j : Nat) (v : α) (h : ∀ e ∈ t, e.1 ≠ k) :
    tget d (tinsert t k v) j = if j = k then v else tget d t j := by
  induction t with
  | nil => simp only [tinsert, tget_cons, tget_nil, eq_comm]
  | cons e t ih =>
    have he : e.1 ≠ k := h e (List.mem_cons_self ..)
    have ht := ih (fun f hf => h f (List.mem_cons_of_mem _ hf))
    rw [tinsert_cons]
    by_cases g : k < e.1
    · rw [if_pos g, tget_cons]
      simp only [eq_comm]
    · rw [if_neg g, tget_cons, tget_cons, ht]
      by_cases q : j = k
      · rw [if_pos q, if_neg (by omega), if_pos q]
      · simp [q]

/-- A key that was written reads as written, and every other key as before. -/
theorem tget_tset [DecidableEq α] (d : α) (t : Tab α) (k j : Nat) (v : α) :
    tget d (tset d t k v) j = if j = k then v else tget d t j := by
  unfold tset
  by_cases h : v = d
  · rw [if_pos h, tget_terase, h]
  · rw [if_neg h, tget_tinsert _ _ _ _ _ (not_mem_terase t k), tget_terase]
    by_cases g : j = k <;> simp [g]

@[simp] theorem tget_tset_self [DecidableEq α] (d : α) (t : Tab α) (k : Nat) (v : α) :
    tget d (tset d t k v) k = v := by rw [tget_tset, if_pos rfl]

theorem tget_tset_other [DecidableEq α] (d : α) (t : Tab α) {k j : Nat} (v : α) (h : j ≠ k) :
    tget d (tset d t k v) j = tget d t j := by rw [tget_tset, if_neg h]

/-! ### The canonical form -/

/-- Every key of the table is above a. -/
def tabove (a : Nat) (t : Tab α) : Prop := ∀ e ∈ t, a < e.1

theorem tsorted_cons (e : Nat × α) (t : Tab α) :
    tsorted (e :: t) = true ↔ tabove e.1 t ∧ tsorted t = true := by
  induction t generalizing e with
  | nil => simp [tsorted, tabove]
  | cons f t ih =>
    rw [show tsorted (e :: f :: t) = (decide (e.1 < f.1) && tsorted (f :: t)) from rfl,
      Bool.and_eq_true, decide_eq_true_iff]
    constructor
    · rintro ⟨h, g⟩
      refine ⟨fun x hx => ?_, g⟩
      rcases List.mem_cons.mp hx with rfl | hx
      · exact h
      · exact Nat.lt_trans h (((ih f).mp g).1 x hx)
    · rintro ⟨h, g⟩
      exact ⟨h f (List.mem_cons_self ..), g⟩

theorem mem_terase {t : Tab α} {k : Nat} {e : Nat × α} (h : e ∈ terase t k) : e ∈ t := by
  induction t with
  | nil => simp [terase] at h
  | cons f t ih =>
    rw [terase_cons] at h
    split at h
    · exact List.mem_cons_of_mem _ (ih h)
    · rcases List.mem_cons.mp h with rfl | h
      · exact List.mem_cons_self ..
      · exact List.mem_cons_of_mem _ (ih h)

theorem mem_tinsert {t : Tab α} {k : Nat} {v : α} {e : Nat × α} (h : e ∈ tinsert t k v) :
    e = (k, v) ∨ e ∈ t := by
  induction t with
  | nil => simpa [tinsert] using h
  | cons f t ih =>
    rw [tinsert_cons] at h
    split at h
    · exact List.mem_cons.mp h
    · rcases List.mem_cons.mp h with rfl | h
      · exact .inr (List.mem_cons_self ..)
      · exact (ih h).imp id (List.mem_cons_of_mem _)

theorem tsorted_terase {t : Tab α} (k : Nat) (h : tsorted t = true) : tsorted (terase t k) = true := by
  induction t with
  | nil => rfl
  | cons e t ih =>
    obtain ⟨ha, ht⟩ := (tsorted_cons e t).mp h
    rw [terase_cons]
    split
    · exact ih ht
    · exact (tsorted_cons _ _).mpr ⟨fun x hx => ha x (mem_terase hx), ih ht⟩

theorem tsorted_tinsert {t : Tab α} {k : Nat} (v : α) (h : tsorted t = true) (n : ∀ e ∈ t, e.1 ≠ k) :
    tsorted (tinsert t k v) = true := by
  induction t with
  | nil => rfl
  | cons e t ih =>
    obtain ⟨ha, ht⟩ := (tsorted_cons e t).mp h
    have he : e.1 ≠ k := n e (List.mem_cons_self ..)
    rw [tinsert_cons]
    split
    · refine (tsorted_cons _ _).mpr ⟨fun x hx => ?_, h⟩
      rcases List.mem_cons.mp hx with rfl | hx
      · assumption
      · have := ha x hx; show k < x.1; omega
    · refine (tsorted_cons _ _).mpr ⟨fun x hx => ?_, ih ht (fun f hf => n f (List.mem_cons_of_mem _ hf))⟩
      rcases mem_tinsert hx with rfl | hx
      · show e.1 < k; omega
      · exact ha x hx

theorem twf_iff [DecidableEq α] (d : α) (t : Tab α) :
    twf d t = true ↔ tsorted t = true ∧ ∀ e ∈ t, e.2 ≠ d := by
  simp [twf]

/-- A write keeps the canonical form. -/
theorem twf_tset [DecidableEq α] (d : α) {t : Tab α} (k : Nat) (v : α) (h : twf d t = true) :
    twf d (tset d t k v) = true := by
  obtain ⟨hs, hd⟩ := (twf_iff d t).mp h
  refine (twf_iff d _).mpr ?_
  unfold tset
  split
  · exact ⟨tsorted_terase k hs, fun e he => hd e (mem_terase he)⟩
  · refine ⟨tsorted_tinsert v (tsorted_terase k hs) (not_mem_terase t k), fun e he => ?_⟩
    rcases mem_tinsert he with rfl | he
    · assumption
    · exact hd e (mem_terase he)

/-! ### Mailbox memory -/

theorem twf_putBytes {m : Tab Byte} (a : Nat) (b : Bytes) (h : twf 0 m = true) :
    twf 0 (putBytes m a b) = true := by
  induction b generalizing m a with
  | nil => exact h
  | cons x b ih => exact ih _ (twf_tset 0 a x h)

theorem tsorted_filter {t : Tab α} (p : Nat × α → Bool) (h : tsorted t = true) :
    tsorted (t.filter p) = true := by
  induction t with
  | nil => rfl
  | cons e t ih =>
    obtain ⟨ha, ht⟩ := (tsorted_cons e t).mp h
    rw [List.filter_cons]
    split
    · exact (tsorted_cons _ _).mpr ⟨fun x hx => ha x (List.mem_filter.mp hx).1, ih ht⟩
    · exact ih ht

theorem twf_zeroBytes {m : Tab Byte} (a e : Nat) (h : twf 0 m = true) :
    twf 0 (zeroBytes m a e) = true := by
  obtain ⟨hs, hd⟩ := (twf_iff 0 m).mp h
  exact (twf_iff 0 _).mpr ⟨tsorted_filter _ hs, fun x hx => hd x (List.mem_filter.mp hx).1⟩

/-- What a byte of the memory reads after bytes were written from address a upwards. -/
theorem tget_putBytes (m : Tab Byte) (a : Nat) (b : Bytes) (j : Nat) :
    tget 0 (putBytes m a b) j = if a ≤ j ∧ j < a + b.length then b.getD (j - a) 0 else tget 0 m j := by
  induction b generalizing m a with
  | nil =>
    rw [if_neg (by simp)]
    rfl
  | cons x b ih =>
    rw [show putBytes m a (x :: b) = putBytes (tset 0 m a x) (a + 1) b from rfl, ih, tget_tset,
      List.length_cons]
    by_cases h : j = a
    · subst h
      rw [if_neg (by omega), if_pos rfl, if_pos (by omega)]
      simp
    · by_cases g : a + 1 ≤ j ∧ j < a + 1 + b.length
      · rw [if_pos g, if_pos (by omega)]
        obtain ⟨n, hn⟩ : ∃ n, j - a = n + 1 := ⟨j - a - 1, by omega⟩
        rw [hn, show j - (a + 1) = n by omega]
        simp
      · rw [if_neg g, if_neg h, if_neg (by omega)]

/-- Zeroed bytes read 0 and the others as before. -/
theorem tget_zeroBytes (m : Tab Byte) (a e j : Nat) :
    tget 0 (zeroBytes m a e) j = if a ≤ j ∧ j < e then 0 else tget 0 m j := by
  induction m with
  | nil => simp [zeroBytes]
  | cons c m ih =>
    unfold zeroBytes at ih ⊢
    rw [List.filter_cons]
    by_cases hc : (decide (c.1 < a) || decide (e ≤ c.1)) = true
    · rw [if_pos hc, tget_cons, tget_cons, ih]
      simp only [Bool.or_eq_true, decide_eq_true_iff] at hc
      by_cases g : c.1 = j
      · rw [if_pos g, if_pos g, if_neg (by omega)]
      · simp [g]
    · rw [if_neg hc, ih, tget_cons]
      simp only [Bool.or_eq_true, decide_eq_true_iff] at hc
      by_cases g : c.1 = j
      · rw [if_pos (by omega), if_pos (by omega)]
      · simp [g]

@[simp] theorem getBytes_length (m : Tab Byte) (a n : Nat) : (getBytes m a n).length = n := by
  simp [getBytes]

/-- Bytes read where the memory agrees are the same. -/
theorem getBytes_congr {m n : Tab Byte} {a len : Nat} (h : ∀ i < len, tget 0 m (a + i) = tget 0 n (a + i)) :
    getBytes m a len = getBytes n a len := by
  unfold getBytes
  exact List.map_congr_left (fun i hi => h i (List.mem_range.mp hi))

/-- Bytes just written read back. -/
theorem getBytes_putBytes (m : Tab Byte) (a : Nat) (b : Bytes) :
    getBytes (putBytes m a b) a b.length = b := by
  apply List.ext_getElem
  · simp
  · intro i h1 h2
    simp only [getBytes, List.getElem_map, List.getElem_range]
    rw [tget_putBytes, if_pos (by omega), Nat.add_sub_cancel_left]
    simp [List.getD_eq_getElem?_getD, h2]

end Sys2Proof.Machine
end

