-- ==== Sys2Proof/Laws/Calm.lean ====
section
/-! SUPPORT. The steps that write mailboxes, end commands or reset the device: each leaves the queue of
waiting commands alone, and keeps the mailbox memory and the journal in order. -/

namespace Sys2Proof.Machine

open Sys2Proof

variable {hd : Bool}

/-- From s to t the queue is untouched, the mailbox memory and the journal stay in order, and where hd asks for
it, a halted device stays halted. -/
def Calm (hd : Bool) (s t : State) : Prop :=
  t.pending = s.pending ∧ (MailboxOk s → MailboxOk t) ∧ (JournalOk s → JournalOk t)
    ∧ (hd = true → halted s.dev.state = true → halted t.dev.state = true)

theorem calm_of_ledger {s t : State} (h : t.ledger = s.ledger) : Calm hd s t := by
  injection h with h1 h
  injection h with h2 h
  injection h with h3 h
  injection h with h4 h5
  refine ⟨h1, ?_, ?_, ?_⟩
  · unfold MailboxOk; rw [h2]; exact id
  · unfold JournalOk; rw [h3, h4]; exact id
  · rw [h5]; exact fun _ => id

theorem Calm.refl (s : State) : Calm hd s s := ⟨rfl, id, id, fun _ => id⟩

theorem Calm.trans {s t u : State} (h : Calm hd s t) (g : Calm hd t u) : Calm hd s u :=
  ⟨g.1.trans h.1, fun w => g.2.1 (h.2.1 w), fun w => g.2.2.1 (h.2.2.1 w),
    fun e w => g.2.2.2 e (h.2.2.2 e w)⟩

/-- A step that leaves the queue and the mailboxes alone comes first. -/
theorem Calm.after {s t u : State} (h : t.ledger = s.ledger) (g : Calm hd t u) : Calm hd s u :=
  (calm_of_ledger h).trans g

/-- A step that leaves the queue and the mailboxes alone comes last. -/
theorem Calm.then {s t u : State} (g : Calm hd s t) (h : u.ledger = t.ledger) : Calm hd s u :=
  g.trans (calm_of_ledger h)

theorem calm_ite {s a b : State} (c : Prop) [Decidable c] (ha : Calm hd s a) (hb : Calm hd s b) :
    Calm hd s (if c then a else b) := by
  split
  · exact ha
  · exact hb

theorem calm_mbox (s : State) (m : List Host.Cell) (w : twf 0 s.hif.mbox = true → twf 0 m = true) :
    Calm hd s { s with hif := { s.hif with mbox := m } } := ⟨rfl, w, id, fun _ => id⟩

theorem mbxWrite_calm (n off : Nat) (b : Bytes) (s : State) : Calm hd s (mbxWrite n off b s) :=
  calm_mbox s _ (twf_putBytes _ _)

theorem clearResponse_calm (n : Nat) (s : State) : Calm hd s (clearResponse n s) :=
  calm_mbox s _ (twf_zeroBytes _ _)

theorem respond_calm (n st : Nat) (a b c : Bool) (q : Nat) (d : Bytes) (s : State) :
    Calm hd s (respond n st a b c q d s) := by
  unfold respond
  refine Calm.then ?_ (bump_ledger _ _ _)
  refine Calm.then ?_ (setDone_ledger _ _)
  exact (clearResponse_calm _ _).trans ((mbxWrite_calm ..).trans ((mbxWrite_calm ..).trans (mbxWrite_calm ..)))

/-- One more number before a run of numbers that ends at h, at most so many kept. -/
theorem take_numbers (h n : Nat) :
    ((h + 1) :: (List.range (min h (n + 1))).map (fun i => h - i)).take (n + 1)
      = (List.range (min (h + 1) (n + 1))).map (fun i => h + 1 - i) := by
  rw [List.take_succ_cons, ← List.map_take, List.take_range, Nat.add_min_add_right,
    List.range_succ_eq_map, List.map_cons, List.map_map, Nat.sub_zero]
  refine congrArg _ ?_
  rw [show min n (min h (n + 1)) = min h n by omega]
  refine List.map_congr_left (fun i _ => ?_)
  show h - i = h + 1 - (i + 1)
  omega

theorem journal_calm (q : Word32) (op n st : Nat) (r p : Bool) (args : Bytes) (s : State) :
    Calm hd s (journal q op n st r p args s) := by
  refine ⟨rfl, id, fun h => ?_, fun _ => id⟩
  unfold JournalOk at h ⊢
  unfold journal
  dsimp only
  rw [List.map_take, List.map_cons, h]
  exact take_numbers s.hif.jrnHead 8191

theorem finish_calm (n : Nat) (q : Word32) (op : Nat) (args : Bytes) (j : Bool) (st : Nat) (r p : Bool)
    (d : Bytes) (s : State) : Calm hd s (finish n q op args j st r p d s) := by
  have keep : ∀ (x : State) (l : Tab (Option Word32)) (k : Tab (Option Kept)),
      ({ x with hif := { x.hif with lastSeq := l, kept := k } } : State).ledger = x.ledger :=
    fun _ _ _ => rfl
  unfold finish
  dsimp only
  have last : ∀ (y : State) (c d : Prop) [Decidable c] [Decidable d] (f g : State → State),
      (∀ x, (f x).ledger = x.ledger) → (∀ x, (g x).ledger = x.ledger) → Calm hd s y →
      Calm hd s (if c then f y else if d then g y else y) := by
    intro y c d _ _ f g hf hg h
    exact calm_ite _ (h.then (hf y)) (calm_ite _ (h.then (hg y)) h)
  refine last _ _ _ (raise _ _ _ _) (raise _ _ _ _) (raise_ledger _ _ _ _) (raise_ledger _ _ _ _) ?_
  refine Calm.then (Calm.trans ?_ (respond_calm ..)) (keep _ _ _)
  split
  · exact journal_calm ..
  · exact Calm.refl s

theorem finishBare_calm (n st : Nat) (d : Bytes) (s : State) : Calm hd s (finishBare n st d s) :=
  respond_calm ..

theorem represent_calm (n : Nat) (k : Kept) (s : State) : Calm hd s (represent n k s) :=
  (respond_calm ..).then (bump_ledger ..)

theorem conclude_calm (n st : Nat) (r p : Bool) (d : Bytes) (s : State) :
    Calm hd s (conclude n st r p d s) := by
  have keep : ∀ (x : State) (l : List Running),
      ({ x with hif := { x.hif with running := l } } : State).ledger = x.ledger := fun _ _ => rfl
  unfold conclude
  split
  · exact Calm.refl s
  · exact Calm.after (keep s _) (finish_calm ..)

/-- The state a run comes to. -/
def Ran.state : Ran → State
  | .final _ _ t => t
  | .waits _ t => t
  | .never t => t

@[simp] theorem Ran.state_final (st : Nat) (d : Bytes) (t : State) : (Ran.final st d t).state = t := by cases t; rfl
@[simp] theorem Ran.state_waits (b : Bool) (t : State) : (Ran.waits b t).state = t := by cases t; rfl
@[simp] theorem Ran.state_never (t : State) : (Ran.never t).state = t := by cases t; rfl
@[simp] theorem done_state (s : State) : (done s).state = s := by cases s; rfl
@[simp] theorem doneWith_state (d : Bytes) (s : State) : (doneWith d s).state = s := by cases s; rfl
@[simp] theorem refuseWord_state (st w : Nat) (s : State) : (refuseWord st w s).state = s := by cases s; rfl
@[simp] theorem refuse_state (st : Nat) (s : State) : (refuse st s).state = s := by cases s; rfl
@[simp] theorem refuseFree_state (st : Nat) (s : State) : (refuseFree st s).state = (takeFree s).2 := by cases s; rfl

/-- A legal command's own run, from where its legality was judged or the same ledger, and what is left after so
many of its items, are calm. -/
def CmdSpec.Calm (hd : Bool) (c : CmdSpec) : Prop :=
  (∀ n a s s0, s.ledger = s0.ledger → c.legal s0 a = true → Machine.Calm hd s (c.run n a s).state)
    ∧ ∀ f, c.items = some f → ∀ k n a s, Machine.Calm hd s (f k n a s).state

/-- A command without items is calm when its run is. -/
theorem calm_of_run {c : CmdSpec} (h : c.items = none)
    (g : ∀ n a s, Machine.Calm hd s (c.run n a s).state) : c.Calm hd :=
  ⟨fun n a s _ _ _ => g n a s, fun f e => by rw [h] at e; cases e⟩

/-- The same where the run is calm in the states in which the command is legal. -/
theorem calm_of_legal {c : CmdSpec} (h : c.items = none)
    (g : ∀ n a s s0, s.ledger = s0.ledger → c.legal s0 a = true → Machine.Calm hd s (c.run n a s).state) :
    c.Calm hd :=
  ⟨g, fun f e => by rw [h] at e; cases e⟩

/-- What a run came to leaves what follows it calm. -/
theorem endRan_calm (c : CmdSpec) (n : Nat) (q : Word32) (a : Bytes) (l : Nat) (b : Bool) (r : Ran) (s : State)
    (h : Calm hd s r.state) : Calm hd s (endRan c n q a l b r) := by
  have keep : ∀ (x : State) (l : List Running),
      ({ x with hif := { x.hif with running := l } } : State).ledger = x.ledger := fun _ _ => rfl
  unfold endRan
  split
  · rw [Ran.state_final] at h
    exact calm_ite _ (h.trans (finish_calm ..)) (h.trans (finish_calm ..))
  · rw [Ran.state_waits] at h
    exact h.then (keep _ _)
  · rw [Ran.state_never] at h
    exact h

/-- A command whose own run and whose items are calm from where its ending was judged. -/
theorem runCommand_calm_of (c : CmdSpec) (n : Nat) (q : Word32) (a : Bytes) (l : Nat) (e : Ending) (s : State)
    (hrun : finalEnding c a l e (beginCommand n s) = .run → Calm hd (beginCommand n s) (c.run n a (beginCommand n s)).state)
    (hit : ∀ f, c.items = some f → ∀ k, Calm hd (beginCommand n s) (f k n a (beginCommand n s)).state) :
    Calm hd s (runCommand c n q a l e s) := by
  refine Calm.after (beginCommand_ledger n s) ?_
  unfold runCommand
  generalize beginCommand n s = u at hrun hit
  dsimp only
  split
  · exact finish_calm ..
  · split
    · exact finish_calm ..
    · rename_i f hf
      exact endRan_calm _ _ _ _ _ _ _ _ (hit f hf _)
  · rename_i hk
    split
    · exact finish_calm ..
    · exact endRan_calm _ _ _ _ _ _ _ _ (hrun hk)
  · split
    · exact finish_calm ..
    · exact finish_calm ..

theorem runCommand_calm (c : CmdSpec) (h : c.Calm hd) (n : Nat) (q : Word32) (a : Bytes) (l : Nat)
    (e : Ending) (s : State) (w : c.legal s a = true) : Calm hd s (runCommand c n q a l e s) := by
  exact runCommand_calm_of c n q a l e s (fun _ => h.1 n a _ s (beginCommand_ledger n s) w)
    (fun f hf k => h.2 f hf k n a _)

/-- A judgement is calm when the run is that it may come to, past steps 1 to 3 and 5. -/
theorem judge_calm_of (c : Option CmdSpec) (n : Nat) (b : Bell) (e : Option Ending) (s : State)
    (h : ∀ x, c = some x → headerFails c n s = false → ∀ q a l d, x.legal s a = true →
      Calm hd s (runCommand x n q a l (e.getD d) s)) : Calm hd s (judge c n b e s) := by
  have bare : ∀ k st d, Calm hd s (finishBare n st d (rejectCommand k n s)) := fun k st d =>
    Calm.after (rejectCommand_ledger k n s) (finishBare_calm ..)
  have full : ∀ k q op a j st r p d, Calm hd s (finish n q op a j st r p d (rejectCommand k n s)) :=
    fun k q op a j st r p d => Calm.after (rejectCommand_ledger k n s) (finish_calm ..)
  unfold judge
  dsimp only
  by_cases w1 : BitVec.ofNat 32 (mbxField s n 0 4) = 0
  · rw [if_pos w1]; exact bare ..
  rw [if_neg w1]
  have fine : ∀ d, d ≠ 0 → d < 2 ^ 31 → (lastSeq s n).elim 1
        (fun l => subMod 32 (BitVec.ofNat 32 (mbxField s n 0 4)).toNat l.toNat) = d → ∀ x,
      stepThree (some x) n (mbxField s n 6 2) (mbxRead s n 64 (min (mbxField s n 6 2) 1984)) s = none →
      c = some x → headerFails c n s = false := by
    intro d w2 w3 hd x w4 hc
    unfold headerFails
    dsimp only
    rw [hc, w4]
    cases hl : lastSeq s n with
    | none => simpa using w1
    | some v =>
      rw [hl, Option.elim_some] at hd
      have w1' : ¬BitVec.ofNat 32 (mbxField s n 0 4) = 0#32 := w1
      simp only [hd]
      have w3' : d < 2147483648 := w3
      simp [w1', w2, w3']
  cases hl : lastSeq s n with
  | none =>
    dsimp only
    rw [if_neg (by decide), if_neg (by decide)]
    rw [hl] at fine
    specialize fine 1 (by decide) (by decide) rfl
    split
    · exact full ..
    · exact Calm.refl s
    · rename_i x w4
      split
      · exact full ..
      · split
        · exact full ..
        · rename_i w
          exact h _ rfl (fine _ w4 rfl) _ _ _ _ (by simpa using w)
  | some v =>
    dsimp only
    rw [hl, Option.elim_some] at fine
    by_cases w2 : subMod 32 (BitVec.ofNat 32 (mbxField s n 0 4)).toNat v.toNat = 0
    · rw [if_pos w2]
      split
      · exact represent_calm ..
      · exact Calm.refl s
    rw [if_neg w2]
    by_cases w3 : subMod 32 (BitVec.ofNat 32 (mbxField s n 0 4)).toNat v.toNat ≥ 2 ^ 31
    · rw [if_pos w3]; exact bare ..
    rw [if_neg w3]
    specialize fine _ w2 (Nat.lt_of_not_ge w3) rfl
    split
    · exact full ..
    · exact Calm.refl s
    · rename_i x w4
      split
      · exact full ..
      · split
        · exact full ..
        · rename_i w
          exact h _ rfl (fine _ w4 rfl) _ _ _ _ (by simpa using w)

theorem judge_calm (c : Option CmdSpec) (h : ∀ x, c = some x → x.Calm hd) (n : Nat) (b : Bell)
    (e : Option Ending) (s : State) : Calm hd s (judge c n b e s) :=
  judge_calm_of c n b e s (fun x hx _ _ _ _ _ w => runCommand_calm x (h x hx) _ _ _ _ _ _ w)

theorem takeUp_calm (c : CmdSpec) (h : c.Calm hd) (n : Nat) (s : State) : Calm hd s (takeUp c n s) := by
  unfold takeUp
  split
  · exact Calm.refl s
  · split
    · exact Calm.after (popBell_ledger s) (judge_calm _ (fun x hx => by cases hx; exact h) ..)
    · exact Calm.refl s

theorem ringBell_calm (n : Nat) (s : State) : Calm hd s (ringBell n s) := by
  have keep : ∀ (x : State) (d : Word16) (b : List Bell),
      ({ x with hif := { x.hif with done := d, bells := b } } : State).ledger = x.ledger := fun _ _ _ => rfl
  unfold ringBell
  exact (((clearResponse_calm _ _).trans ((mbxWrite_calm ..).trans ((mbxWrite_calm ..).trans
    (mbxWrite_calm ..)))).then (keep _ _ _)).then (bump_ledger ..)

theorem endBackground_calm (s : State) : Calm hd s (endBackground s) := by
  unfold endBackground
  split
  · exact conclude_calm ..
  · exact Calm.refl s

/-- A change of state, into a halted one where hd asks for it and the device is halted. -/
theorem changeState_calm (d : DevState) (s : State)
    (h : hd = true → halted s.dev.state = true → halted d = true) : Calm hd s (changeState d s) := by
  have keep : ∀ (o : Obs) (m : Maint), Calm hd s { s with dev := { s.dev with state := d }, obs := o, mnt := m } :=
    fun _ _ => ⟨rfl, id, id, h⟩
  unfold changeState
  exact (keep _ _).then (raise_ledger ..)

/-- The device state of a state that leaves the ledger alone. -/
theorem state_of_ledger {s t : State} (h : t.ledger = s.ledger) : t.dev.state = s.dev.state :=
  congrArg (fun l => l.2.2.2.2) h

theorem startDevice_calm (s : State) (w : s.dev.state = .standby) : Calm hd s (startDevice s) := by
  have keep : ∀ (x : State) (p : Profile), ({ x with dev := { x.dev with inForce := p } } : State).ledger
      = x.ledger := fun _ _ => rfl
  unfold startDevice
  dsimp only
  refine Calm.then ?_ ((forEach_ledger _ _ _ realign_ledger).trans ((forEach_ledger _ _ _ lightUp_ledger).trans
    ((syncFaults_ledger _).trans (syncLanes_ledger _))))
  have e := fun b p => (setCause_ledger 2 b { s with dev := { s.dev with inForce := p } }).trans (keep s p)
  refine Calm.after (e _ _) (changeState_calm _ _ ?_)
  rw [state_of_ledger (e _ _), w]
  exact fun _ g => by cases g

theorem not_halted_of_service {s : State} (w : (s.dev.state == .active || s.dev.state == .degraded) = true) :
    halted s.dev.state = false := by
  generalize s.dev.state = d at w ⊢
  cases d <;> first | rfl | cases w

theorem stopDevice_calm (s : State) : Calm hd s (stopDevice s) := by
  unfold stopDevice
  split
  · rename_i w
    have e : (forgetLosses (quiesce s)).ledger = s.ledger := by simp
    refine Calm.then (Calm.after e (changeState_calm _ _ ?_)) (syncFaults_ledger _)
    rw [state_of_ledger e, not_halted_of_service w]
    exact fun _ g => by cases g
  · exact Calm.refl s

theorem enterMaintenance_calm (s : State) : Calm hd s (enterMaintenance s) := by
  have keep : ∀ (x : State) (p : DevState), ({ x with dev := { x.dev with maintFrom := p } } : State).ledger
      = x.ledger := fun _ _ => rfl
  unfold enterMaintenance
  split
  · rename_i w
    refine Calm.after (keep s s.dev.state) (changeState_calm _ _ ?_)
    rw [state_of_ledger (keep s s.dev.state)]
    generalize s.dev.state = d at w ⊢
    intro _ g
    cases d <;> first | exact absurd g (by decide) | exact absurd w (by decide)
  · exact Calm.refl s

theorem leaveMaintenance_calm (s : State) (w : s.dev.state = .maintenance) :
    Calm hd s (leaveMaintenance s) := by
  unfold leaveMaintenance
  dsimp only
  have e : (stopTests s).ledger = s.ledger := by simp
  refine Calm.after e (changeState_calm _ _ ?_)
  rw [state_of_ledger e, w]
  exact fun _ g => by cases g

theorem leaveSafe_calm (s : State) : Calm false s (leaveSafe s) := by
  have keep : ∀ (x : State) (l : BitVec 5) (b : Bool),
      ({ x with dev := { x.dev with alarmLatch := l, alarmSinceReset := b } } : State).ledger
        = x.ledger := fun _ _ _ => rfl
  unfold leaveSafe
  dsimp only
  refine Calm.after ?_ (changeState_calm _ _ (fun h => absurd h (by decide)))
  rw [keep]
  simp

theorem enterLoading_calm (s : State) : Calm hd s (enterLoading s) := by
  unfold enterLoading
  split
  · exact ⟨rfl, id, id, fun _ _ => rfl⟩
  · exact Calm.refl s

theorem becomeSafe_calm (s : State) : Calm hd s (becomeSafe s) := by
  have keep : ∀ b : Bool, ({ s with dev := { s.dev with safeWaits := b } } : State).ledger = s.ledger :=
    fun _ => rfl
  unfold becomeSafe
  refine Calm.trans ?_ (endBackground_calm _)
  exact (Calm.after (keep _) (changeState_calm .safe _ (fun _ _ => rfl))).then
    ((forEach_ledger _ _ _ muteChannel_ledger).trans (syncFaults_ledger _))

theorem concludePower_calm (st : Nat) (r : Bool) (d : Bytes) (s : State) :
    Calm hd s (concludePower st r d s) := by
  unfold concludePower
  split
  · exact conclude_calm ..
  · exact Calm.refl s

theorem headForSafe_calm (s : State) : Calm hd s (headForSafe s) := by
  unfold headForSafe
  refine calm_ite _ (Calm.refl s) (calm_ite _ (calm_of_ledger rfl) (calm_ite _ ?_ (becomeSafe_calm s)))
  exact calm_of_ledger ((requestWake_ledger ..).trans rfl)

theorem finishD3_calm (s : State) : Calm hd s (finishD3 s) := by
  unfold finishD3
  dsimp only
  have pre : ∀ x : State, x.ledger = s.ledger → Calm hd s (concludePower stOk false [] x) :=
    fun x hx => Calm.after hx (concludePower_calm ..)
  have h := pre (forEach retainedGroups retainBank (enterPower .d3 (loseBlocks (enterSleep
    (forEach (List.range 4) silenceRx (forEach (List.range 21) (fun l s => releaseEnergy l (sinkLane l s))
      (forEach (List.range 4) finishBursts s))))))) (by
    rw [forEach_ledger _ _ _ retainBank_ledger, enterPower_ledger, loseBlocks_ledger, enterSleep_ledger,
      forEach_ledger _ _ _ silenceRx_ledger, forEach_ledger, forEach_ledger _ _ _ finishBursts_ledger]
    intro l t
    rw [releaseEnergy_ledger, sinkLane_ledger])
  split
  · exact h.then (requestWake_ledger ..)
  · split
    · exact h.then (requestWake_ledger ..)
    · exact h

theorem enterD2_calm (s : State) : Calm hd s (enterD2 s) := by
  unfold enterD2
  have keep : ∀ (x : State) (f : Fib), ({ x with fib := f } : State).ledger = x.ledger := fun _ _ => rfl
  refine Calm.after ?_ (concludePower_calm ..)
  dsimp only
  rw [raise_ledger, forEach_ledger _ _ _ retainBank_ledger, enterPower_ledger, loseBlocks_ledger, dropOpen_ledger,
    keep, forEach_ledger, forEach_ledger, forEach_ledger _ _ _ finishBursts_ledger, flushAllStaging_ledger,
    flushAll_ledger]
  · intro l t; split
    · rfl
    · exact sinkLane_ledger ..
  · intro c t; rw [silenceRx_ledger, laneOff_ledger]

theorem finishExit_calm (lost : List (Fin 24)) (s : State) : Calm hd s (finishExit lost s) := by
  have h1 : (forEach (List.range 4) resumeChannel (forEach replicaIslands realign (enterPower .d0 (leaveSleep (passEdge
      (forEach retainedGroups (fun g s => restoreBank g (wakeBank g (!lost.any (fun x => x.val == g)) s)) s)))))).ledger
      = s.ledger := by
    rw [forEach_ledger _ _ _ (fun i t => resumeChannel_ledger i t), forEach_ledger _ _ _ (fun i t => realign_ledger i t),
      enterPower_ledger, leaveSleep_ledger, passEdge_ledger, forEach_ledger]
    intro g t
    rw [restoreBank_ledger, wakeBank_ledger]
  unfold finishExit
  dsimp only
  generalize forEach (List.range 4) resumeChannel _ = x at h1
  have h2 : ∀ y : State, y.ledger = s.ledger → Calm hd s (match powerCommand y with
      | some _ => concludePower stOk false [] y
      | none => y) := by
    intro y hy
    split
    · exact Calm.after hy (concludePower_calm ..)
    · exact calm_of_ledger hy
  have h3 : (if (x.fib.doze.phase == DozePhase.dozing) = true then
      raise 0x0208 false x.fib.doze.ch (leBytes 1 3) (sendDozeExit x.fib.doze.ch
        { x with fib := { x.fib with doze := { x.fib.doze with phase := .idle } } })
      else x).ledger = s.ledger := by
    split
    · rw [raise_ledger, sendDozeExit_ledger]; exact h1
    · exact h1
  generalize (if (x.fib.doze.phase == DozePhase.dozing) = true then _ else x) = y at h3
  have h4 := h2 y h3
  exact calm_ite _ (h4.trans (becomeSafe_calm _)) h4

theorem blank_calm (s : State) : Calm hd s (blank s) := by
  have h1 : (blank s).hif.mbox = [] := rfl
  have h2 : (blank s).hif.journal = [] := rfl
  have h3 : (blank s).hif.jrnHead = 0 := rfl
  have h4 : (blank s).dev.state = .cold := rfl
  refine ⟨rfl, fun _ => ?_, fun _ => ?_, fun _ _ => ?_⟩
  · unfold MailboxOk; rw [h1]; rfl
  · unfold JournalOk; rw [h2, h3]; rfl
  · rw [h4]; rfl

theorem coldReset_calm (cause : Nat) (s : State) : Calm hd s (coldReset cause s) := by
  have keep : ∀ (x : State) (d : Dev) (c : Tab Nat), x.dev.state = .cold → d.state = .cold →
      ({ x with dev := d, cnt := c } : State).ledger = x.ledger := by
    intro x d c hx hd
    simp only [State.ledger_mk, hd]
    rw [← hx]
    rfl
  unfold coldReset
  exact (((blank_calm s).then (keep _ _ _ rfl rfl)).then (bump_ledger ..)).then (showPins_ledger ..)

theorem warmState_calm (d : Dev) (s : State) (h : halted d.state = true) : Calm hd s (warmState d s) := by
  have h1 : (warmState d s).hif.mbox = [] := rfl
  have h2 : (warmState d s).hif.journal = s.hif.journal := rfl
  have h3 : (warmState d s).hif.jrnHead = s.hif.jrnHead := rfl
  have h4 : (warmState d s).dev = d := rfl
  refine ⟨rfl, fun _ => ?_, ?_, fun _ _ => ?_⟩
  · unfold MailboxOk; rw [h1]; rfl
  · unfold JournalOk; rw [h2, h3]; exact id
  · rw [h4]; exact h

theorem warmReset_calm (cause : Nat) (s : State) : Calm hd s (warmReset cause s) := by
  unfold warmReset
  refine calm_ite _ (calm_of_ledger (bump_ledger ..)) ?_
  dsimp only
  have h := (bump_ledger (ck 495 2 (stopAll s).pow.state.code) (((stopAll s).now - (stopAll s).pow.changed) / 1000000)
    _).trans ((bump_ledger (ck 495 18 (stopAll s).pow.level)
      (((stopAll s).now - (stopAll s).pow.levelAt) / 1000000) _).trans (stopAll_ledger s))
  refine Calm.after h ?_
  exact ((warmState_calm _ _ rfl).then (bump_ledger ..)).then (showPins_ledger ..)

theorem beginErasure_calm (src : Nat) (s : State) : Calm hd s (beginErasure src s) := by
  unfold beginErasure
  refine Calm.after ?_ (headForSafe_calm _)
  rw [zeroKeys_ledger, eraseRequests_ledger, sendEraseOrder_ledger, raise_ledger]
  rfl

theorem raiseAlarm_calm (src : Nat) (s : State) : Calm hd s (raiseAlarm src s) := by
  have h : ∀ l : BitVec 5, (bump (ck 305 37 src) 1 { s with dev := { s.dev with alarmLatch := l } }).ledger
      = s.ledger := by
    intro d; rw [bump_ledger]; rfl
  unfold raiseAlarm
  exact calm_ite _ (calm_of_ledger (h _)) (Calm.after (h _) (beginErasure_calm ..))

theorem holdSource_calm (src : Nat) (s : State) : Calm hd s (holdSource src s) := by
  unfold holdSource
  exact calm_ite _ (Calm.refl s) (Calm.after (assertSource_ledger ..) (raiseAlarm_calm ..))

theorem concludeErase_calm (s : State) : Calm hd s (concludeErase s) := by
  unfold concludeErase
  split
  · exact calm_ite _ (Calm.refl s) (conclude_calm ..)
  · exact Calm.refl s

theorem orderReset_calm (k : Nat) (s : State) : Calm hd s (orderReset k s) := by
  have keep : ∀ (x : State) (u : Supply), ({ x with sup := u } : State).ledger = x.ledger := fun _ _ => rfl
  unfold orderReset
  exact calm_ite _ (warmReset_calm ..) ((coldReset_calm 0x03 s).then (keep _ _))

theorem resumeCommand_calm (r : Running) (s : State) : Calm hd s (resumeCommand r s) := by
  unfold resumeCommand
  refine calm_ite _ (Calm.trans ?_ (conclude_calm ..)) (calm_ite _ ((stopDevice_calm s).trans (conclude_calm ..))
    (calm_ite _ ((enterMaintenance_calm s).trans (conclude_calm ..)) (calm_ite _ (orderReset_calm ..) (Calm.refl s))))
  split
  · rename_i w
    exact startDevice_calm s (by simpa using w)
  · exact Calm.refl s

theorem endExit_calm (lost : List (Fin 24)) (s : State) : Calm hd s (endExit lost s) := by
  have h := (finishExit_calm (hd := hd) lost s).trans (concludeErase_calm _)
  unfold endExit
  dsimp only
  split
  · exact h.trans (resumeCommand_calm ..)
  · exact h

theorem applyDozeReply_calm (m : RxMsg) (s : State) : Calm hd s (applyDozeReply m s) := by
  unfold applyDozeReply
  refine calm_ite _ (Calm.refl s) (calm_ite _ (Calm.after ?_ (concludePower_calm ..))
    (calm_ite _ (Calm.refl s) (calm_of_ledger rfl)))
  rw [raise_ledger]
  rfl

theorem restoreMailbox_calm (n : Nat) (s : State) : Calm hd s (restoreMailbox n s) := by
  unfold restoreMailbox
  exact ⟨rfl, fun w => twf_putBytes _ _ (twf_zeroBytes _ _ w), id, fun _ => id⟩

theorem contain_calm (r addr : Nat) (s : State) : Calm hd s (contain r addr s) := by
  by_cases h14 : r = 14
  · subst h14; exact warmReset_calm ..
  by_cases h4 : r = 4
  · subst h4
    show Calm hd s (if itemOfWord 4 addr % 8 = 1 then restoreMailbox (itemOfWord 4 addr / 8)
      (loseItem 4 addr (itemOfWord 4 addr) s) else loseItem 4 addr (itemOfWord 4 addr) s)
    exact Calm.after (loseItem_ledger ..) (calm_ite _ (restoreMailbox_calm ..) (Calm.refl _))
  exact calm_of_ledger (contain_ledger r addr s ⟨h14, h4⟩)

theorem badWord_calm (r addr : Nat) (s : State) : Calm hd s (badWord r addr s) := by
  unfold badWord
  exact calm_ite _ (Calm.refl s) (Calm.after (by simp) (contain_calm ..))

theorem decideWord_calm (r addr : Nat) (v : EccVerdict) (s : State) : Calm hd s (decideWord r addr v s) := by
  unfold decideWord
  split
  · exact Calm.refl s
  · exact calm_of_ledger (correctWord_ledger ..)
  · exact Calm.after (bump_ledger ..) (badWord_calm ..)
  · exact Calm.after (bump_ledger ..) (badWord_calm ..)

theorem allocateEntry_calm (c r : Nat) (w : MergeWrite) (s : State) : Calm hd s (allocateEntry c r w s) := by
  unfold allocateEntry
  exact (Calm.after (makeRoom_ledger ..) (decideWord_calm ..)).then (setMerge_ledger ..)

theorem takeWrite_calm (c : Nat) (w : MergeWrite) (s : State) : Calm hd s (takeWrite c w s) := by
  have key : ∀ (x : State) (m : MemInt), ({ x with mem := m } : State).ledger = x.ledger := fun _ _ => rfl
  have part : ∀ (b : Prop) [Decidable b] (k n : Nat) (x : State), (if b then x else bump k n x).ledger = x.ledger := by
    intro b _ k n x; split
    · rfl
    · exact bump_ledger _ _ _
  unfold takeWrite
  dsimp only
  refine calm_ite _ (Calm.refl s) ?_
  split
  · exact calm_ite _ (calm_of_ledger ((retireEntry_ledger ..).trans (part ..)))
      (calm_of_ledger ((setMerge_ledger ..).trans (part ..)))
  · refine calm_ite _ (calm_of_ledger ?_) (Calm.after (bump_ledger ..) (allocateEntry_calm ..))
    rw [supersede_ledger, goodWord_ledger, key]

theorem execMergeRetire_calm (c : Fin 25) (k : RetireCause) (s : State) (l : List MergeWrite) :
    ∀ t, execMergeRetire c k s l = .next t → Calm hd s t := by
  have h : ∀ (l : List MergeWrite) (x : State), Calm hd x (l.foldl (fun s w => takeWrite c.val w s) x) := by
    intro l; induction l with
    | nil => exact Calm.refl
    | cons w l ih => exact fun x => (takeWrite_calm _ w x).trans (ih _)
  unfold execMergeRetire
  intro t e
  rw [← next_inj e]
  exact (h l s).then (execCause_ledger ..)

theorem readByUser_calm (r addr : Nat) (v : EccVerdict) (s : State) : Calm hd s (readByUser r addr v s) := by
  unfold readByUser
  refine Calm.after ?_ (decideWord_calm ..)
  rw [retireHeld_ledger]
  split
  · exact wakeForWord_ledger ..
  · rfl

theorem restoredItem_calm (e : LostItem) (s : State) : Calm hd s (restoredItem e s) := by
  unfold restoredItem
  dsimp only
  repeat' split
  all_goals first
    | exact restoreMailbox_calm ..
    | exact calm_of_ledger (by simp)
    | exact Calm.refl s

theorem abortBackground_calm (s : State) : Calm hd s (abortBackground s) := by
  unfold abortBackground
  split
  · exact conclude_calm ..
  · exact Calm.refl s

theorem endFlashWrite_calm (r : Running) (image : Option Bytes) (s : State) :
    Calm hd s (endFlashWrite r image s) := by
  unfold endFlashWrite
  split
  · exact conclude_calm ..
  · exact calm_ite _ (Calm.after (modSlot_ledger ..) (conclude_calm ..))
      (Calm.after (takeFree_ledger s) (conclude_calm ..))

theorem afterWake_calm (f : State → Ran) (s : State) (h : Calm hd s (f s).state) :
    Calm hd s (afterWake f s).state := by
  unfold afterWake
  split
  · exact calm_of_ledger (requestWake_ledger ..)
  · exact h

theorem withState_calm (f : State → State) (s : State) (h : Calm hd s (f s)) :
    Calm hd s (withState f s).state := h

theorem askDoze_calm (a : Bytes) (s : State) : Calm hd s (askDoze a s).state := by
  unfold askDoze
  dsimp only
  split <;> exact calm_of_ledger (by simp)

theorem runPowerState_calm (a : Bytes) (s : State) : Calm hd s (runPowerState a s).state := by
  unfold runPowerState
  dsimp only
  repeat' split
  all_goals first | exact askDoze_calm .. | exact calm_of_ledger (by first | rfl | simp)

theorem runEntries_calm (u : EntryUse) (k n : Nat) (a : Bytes) (s : State) :
    Calm hd s (runEntries u k n a s).state := by
  unfold runEntries
  exact calm_of_ledger (runItems_ledger ..)

theorem entryCmd_calm (op : Nat) (u : EntryUse) (l : State → Bytes → Bool) : (entryCmd op u l).Calm hd :=
  ⟨fun n a s _ _ _ => runEntries_calm u _ n a s, fun f h => by cases h; exact fun k n a s => runEntries_calm u k n a s⟩

theorem cmdTableAdd_calm : cmdTableAdd.Calm hd := entryCmd_calm ..
theorem cmdTableModify_calm : cmdTableModify.Calm hd := entryCmd_calm ..
theorem cmdTableDelete_calm : cmdTableDelete.Calm hd := entryCmd_calm ..
theorem cmdTableRead_calm : cmdTableRead.Calm hd := entryCmd_calm ..

theorem cmdTimeSelectDomain_calm : cmdTimeSelectDomain.Calm hd := by
  refine calm_of_run rfl (fun n a s => ?_)
  dsimp only [cmdTimeSelectDomain]
  generalize (if byteAt a 0 = 0 then TimeDomain.a else TimeDomain.b) = d
  (repeat' split) <;> exact calm_of_ledger (by simp)

theorem cmdPowerSetState_calm : cmdPowerSetState.Calm hd :=
  calm_of_run rfl (fun _ a s => runPowerState_calm a s)

theorem cmdDeviceStart_calm : cmdDeviceStart.Calm hd :=
  calm_of_legal rfl (fun _ _ s _ e w => afterWake_calm _ s (withState_calm _ s
    (startDevice_calm s ((state_of_ledger e).trans (by simpa [cmdDeviceStart, clsS] using w)))))

theorem cmdDeviceStop_calm : cmdDeviceStop.Calm hd :=
  calm_of_run rfl (fun _ _ s => afterWake_calm (fun s => done (stopDevice s)) s (stopDevice_calm s))

theorem cmdDeviceEnterMaintenance_calm : cmdDeviceEnterMaintenance.Calm hd :=
  calm_of_run rfl (fun _ _ s => afterWake_calm (fun s => done (enterMaintenance s)) s (enterMaintenance_calm s))

theorem cmdDeviceLeaveMaintenance_calm : cmdDeviceLeaveMaintenance.Calm hd := by
  refine calm_of_legal rfl (fun n a s s0 e w => ?_)
  have m : s.dev.state = .maintenance :=
    (state_of_ledger e).trans (by simpa [cmdDeviceLeaveMaintenance, clsM] using w)
  dsimp only [cmdDeviceLeaveMaintenance]
  split
  · exact Calm.refl s
  · exact withState_calm _ s (leaveMaintenance_calm s m)

theorem cmdDeviceReset_calm : cmdDeviceReset.Calm hd :=
  calm_of_run rfl (fun _ a s => afterWake_calm (fun s => .never (orderReset (byteAt a 0) s)) s (orderReset_calm _ s))

theorem cmdDeviceEraseKeys_calm : cmdDeviceEraseKeys.Calm hd := by
  refine calm_of_run rfl (fun n a s => ?_)
  have key : ∀ b : Bool, Calm hd s (if b = true then done (raiseAlarm 4 s)
      else Ran.waits false (raiseAlarm 4 s)).state := by
    intro b; cases b <;> exact raiseAlarm_calm 4 s
  exact key _

theorem cmdPortSetAddress_calm : cmdPortSetAddress.Calm hd :=
  calm_of_run rfl (fun _ a s =>
    (fun _ => calm_of_ledger rfl : ∀ p, Calm hd s (done { s with prt := { s.prt with base := p } }).state)
      (BitVec.ofNat 48 (be a 0 6)))

theorem cmdFibreSetUpstream_calm : cmdFibreSetUpstream.Calm hd := by
  refine calm_of_run rfl (fun n a s => ?_)
  dsimp only [cmdFibreSetUpstream]
  split
  · rename_i e; exact calm_of_ledger (setUpstream_ledger _ _ _ _ _ e)
  · exact calm_of_ledger (takeFree_ledger s)

theorem cmdRulesAdd_calm : cmdRulesAdd.Calm hd := by
  refine calm_of_run rfl (fun n a s => ?_)
  dsimp only [cmdRulesAdd]
  split
  · exact calm_of_ledger (takeFree_ledger s)
  · split
    · exact Calm.refl s
    · split
      · exact calm_of_ledger (takeFree_ledger s)
      · exact calm_of_ledger (foldl_ledger _ _ (fun t e => (setRule_ledger ..).trans (beginStream_ledger ..)) s)

theorem addPortId_ledger (p c : Nat) (k : Bool) (s : State) :
    ∀ e, addPortId p c k s = some e → e.2.ledger = s.ledger := by
  have put : ∀ (x : State) (l : Tab (Option OwnPort)),
      ({ x with fib := { x.fib with ports := l } } : State).ledger = x.ledger := fun _ _ => rfl
  intro e h
  unfold addPortId at h
  by_cases h1 : (tget none s.fib.ports p).isSome = true
  · rw [if_pos h1] at h; cases h; rfl
  · rw [if_neg h1] at h
    by_cases h2 : s.fib.ports.length ≥ 4096
    · rw [if_pos h2] at h; cases h
    · rw [if_neg h2] at h
      dsimp only at h
      by_cases h3 : k = true
      · rw [if_pos h3] at h
        obtain ⟨x, hx, rfl⟩ := Option.map_eq_some_iff.mp h
        exact (put x.2 _).trans (dealSlot_ledger _ _ _ _ hx)
      · rw [if_neg h3] at h; cases h; exact put s _

theorem portItems_ledger (r : Bool) (a : Bytes) (l : List Nat) (acc : Bytes) (s : State) :
    ∀ e, portItems r a l acc s = some e → e.2.ledger = s.ledger := by
  induction l generalizing acc s with
  | nil => intro e h; cases h; rfl
  | cons i l ih =>
    intro e h
    unfold portItems at h
    dsimp only at h
    by_cases hr : r = true
    · rw [if_pos hr] at h
      exact (ih _ _ e h).trans (removePortId_ledger ..)
    · rw [if_neg hr] at h
      split at h
      · cases h
      · rename_i u; exact (ih _ _ e h).trans (addPortId_ledger _ _ _ _ _ u)

theorem cmdFibreSetPortId_calm : cmdFibreSetPortId.Calm hd := by
  refine calm_of_run rfl (fun n a s => ?_)
  dsimp only [cmdFibreSetPortId]
  split
  · rename_i e; exact calm_of_ledger (portItems_ledger _ _ _ _ _ _ e)
  · exact calm_of_ledger (takeFree_ledger s)

theorem cmdMaintAbort_calm : cmdMaintAbort.Calm hd :=
  calm_of_run rfl (fun _ _ s => abortBackground_calm s)

theorem cmdTimeSet_calm : cmdTimeSet.Calm hd := by
  refine calm_of_run rfl (fun n a s => ?_)
  dsimp only [cmdTimeSet]
  exact calm_of_ledger (by simp)

theorem cmdTimeStep_calm : cmdTimeStep.Calm hd := by
  refine calm_of_run rfl (fun n a s => ?_)
  dsimp only [cmdTimeStep]
  (repeat' split) <;> exact calm_of_ledger (by simp)

theorem cmdTimeSetServo_calm : cmdTimeSetServo.Calm hd := by
  refine calm_of_run rfl (fun n a s => ?_)
  dsimp only [cmdTimeSetServo]
  exact calm_of_ledger (by simp)

theorem cmdTimeSetFibre_calm : cmdTimeSetFibre.Calm hd := by
  refine calm_of_run rfl (fun n a s => ?_)
  dsimp only [cmdTimeSetFibre]
  exact calm_of_ledger (by simp)

theorem cmdTimeReadFibre_calm : cmdTimeReadFibre.Calm hd := by
  refine calm_of_run rfl (fun n a s => ?_)
  dsimp only [cmdTimeReadFibre]
  exact calm_of_ledger (by simp)

theorem cmdTimeSetSource_calm : cmdTimeSetSource.Calm hd := by
  refine calm_of_run rfl (fun n a s => ?_)
  dsimp only [cmdTimeSetSource]
  exact calm_of_ledger (by simp)

theorem cmdTimeSetIo_calm : cmdTimeSetIo.Calm hd := by
  refine calm_of_run rfl (fun n a s => ?_)
  dsimp only [cmdTimeSetIo]
  exact calm_of_ledger (by simp)

theorem cmdTimeSetPtp_calm : cmdTimeSetPtp.Calm hd := by
  refine calm_of_run rfl (fun n a s => ?_)
  dsimp only [cmdTimeSetPtp]
  (repeat' split) <;> exact calm_of_ledger (by simp)

theorem cmdTimeReadStatus_calm : cmdTimeReadStatus.Calm hd := by
  refine calm_of_run rfl (fun n a s => ?_)
  dsimp only [cmdTimeReadStatus]
  exact calm_of_ledger (by simp)

theorem cmdTrafficSetQueue_calm : cmdTrafficSetQueue.Calm hd := by
  refine calm_of_run rfl (fun n a s => ?_)
  dsimp only [cmdTrafficSetQueue]
  (repeat' split) <;> exact calm_of_ledger (by simp)

theorem cmdTrafficFlushQueue_calm : cmdTrafficFlushQueue.Calm hd := by
  refine calm_of_run rfl (fun n a s => ?_)
  dsimp only [cmdTrafficFlushQueue]
  exact calm_of_ledger (by simp)

theorem cmdTrafficSetPolicer_calm : cmdTrafficSetPolicer.Calm hd := by
  refine calm_of_run rfl (fun n a s => ?_)
  dsimp only [cmdTrafficSetPolicer]
  exact calm_of_ledger (by simp)

theorem cmdTrafficSetShaper_calm : cmdTrafficSetShaper.Calm hd := by
  refine calm_of_run rfl (fun n a s => ?_)
  dsimp only [cmdTrafficSetShaper]
  exact calm_of_ledger (by simp)

theorem cmdTrafficSetPause_calm : cmdTrafficSetPause.Calm hd := by
  refine calm_of_run rfl (fun n a s => ?_)
  dsimp only [cmdTrafficSetPause]
  refine calm_of_ledger ?_
  rw [done_state, checkAccounts_ledger]
  simp only [apply_ite State.ledger, noteIdle_ledger, modPause_ledger,
    forEach_ledger _ _ _ (fun i t => countPaused_ledger _ i t), ite_self]

theorem cmdTrafficSetGate_calm : cmdTrafficSetGate.Calm hd := by
  refine calm_of_run rfl (fun n a s => ?_)
  dsimp only [cmdTrafficSetGate]
  exact calm_of_ledger (by simp)

theorem cmdTrafficSetHistogram_calm : cmdTrafficSetHistogram.Calm hd := by
  refine calm_of_run rfl (fun n a s => ?_)
  dsimp only [cmdTrafficSetHistogram]
  exact calm_of_ledger (by simp)

theorem cmdTrafficRead_calm : cmdTrafficRead.Calm hd := by
  refine calm_of_run rfl (fun n a s => ?_)
  dsimp only [cmdTrafficRead]
  (repeat' split) <;> exact calm_of_ledger (by simp)

theorem cmdTrafficReadHistogram_calm : cmdTrafficReadHistogram.Calm hd := by
  refine calm_of_run rfl (fun n a s => ?_)
  dsimp only [cmdTrafficReadHistogram]
  exact calm_of_ledger (by simp)

theorem cmdCipherSetCak_calm (a1 : Option Sys2Proof.Bytes) : (cmdCipherSetCak a1).Calm hd := by
  refine calm_of_run rfl (fun n a s => ?_)
  dsimp only [cmdCipherSetCak]
  (repeat' split) <;> exact calm_of_ledger (by simp)

theorem cmdCipherSetMacsec_calm : cmdCipherSetMacsec.Calm hd := by
  refine calm_of_run rfl (fun n a s => ?_)
  dsimp only [cmdCipherSetMacsec]
  exact calm_of_ledger (by simp)

theorem cmdCipherSetThreshold_calm : cmdCipherSetThreshold.Calm hd := by
  refine calm_of_run rfl (fun n a s => ?_)
  dsimp only [cmdCipherSetThreshold]
  exact calm_of_ledger (by simp)

theorem cmdCipherReadStatus_calm : cmdCipherReadStatus.Calm hd := by
  refine calm_of_run rfl (fun n a s => ?_)
  dsimp only [cmdCipherReadStatus]
  exact calm_of_ledger (by simp)

theorem cmdPowerSetCap_calm : cmdPowerSetCap.Calm hd := by
  refine calm_of_run rfl (fun n a s => ?_)
  dsimp only [cmdPowerSetCap]
  exact calm_of_ledger (by simp)

theorem cmdPowerSetDroop_calm : cmdPowerSetDroop.Calm hd := by
  refine calm_of_run rfl (fun n a s => ?_)
  dsimp only [cmdPowerSetDroop]
  exact calm_of_ledger (by simp)

theorem cmdPowerReadStatus_calm : cmdPowerReadStatus.Calm hd := by
  refine calm_of_run rfl (fun n a s => ?_)
  dsimp only [cmdPowerReadStatus]
  exact calm_of_ledger (by simp)

theorem cmdLaneConfigure_calm : cmdLaneConfigure.Calm hd := by
  refine calm_of_run rfl (fun n a s => ?_)
  dsimp only [cmdLaneConfigure]
  exact calm_of_ledger (by simp)

theorem cmdLaneSetTest_calm : cmdLaneSetTest.Calm hd := by
  refine calm_of_run rfl (fun n a s => ?_)
  dsimp only [cmdLaneSetTest]
  (repeat' split) <;> exact calm_of_ledger (by simp)

theorem cmdLaneInject_calm : cmdLaneInject.Calm hd := by
  refine calm_of_run rfl (fun n a s => ?_)
  dsimp only [cmdLaneInject]
  exact calm_of_ledger (by simp)

theorem cmdLaneReadStatus_calm : cmdLaneReadStatus.Calm hd := by
  refine calm_of_run rfl (fun n a s => ?_)
  dsimp only [cmdLaneReadStatus]
  exact calm_of_ledger (by simp)

theorem cmdLaneReadCounters_calm : cmdLaneReadCounters.Calm hd := by
  refine calm_of_run rfl (fun n a s => ?_)
  dsimp only [cmdLaneReadCounters]
  exact calm_of_ledger (by simp)

theorem cmdDeviceReadState_calm : cmdDeviceReadState.Calm hd := by
  refine calm_of_run rfl (fun n a s => ?_)
  dsimp only [cmdDeviceReadState]
  exact calm_of_ledger (by simp)

theorem cmdDeviceNop_calm : cmdDeviceNop.Calm hd := by
  refine calm_of_run rfl (fun n a s => ?_)
  dsimp only [cmdDeviceNop]
  exact calm_of_ledger (by simp)

theorem cmdDeviceReadIdentity_calm : cmdDeviceReadIdentity.Calm hd := by
  refine calm_of_run rfl (fun n a s => ?_)
  dsimp only [cmdDeviceReadIdentity]
  exact calm_of_ledger (by simp)

theorem cmdDeviceSetProfile_calm : cmdDeviceSetProfile.Calm hd := by
  refine calm_of_run rfl (fun n a s => ?_)
  dsimp only [cmdDeviceSetProfile]
  (repeat' split) <;> exact calm_of_ledger (by simp)

theorem cmdDeviceLeaveSafe_calm : cmdDeviceLeaveSafe.Calm false := by
  refine calm_of_run rfl (fun n a s => ?_)
  dsimp only [cmdDeviceLeaveSafe]
  split
  · exact Calm.refl s
  · rw [done_state]
    exact leaveSafe_calm s

theorem cmdPortConfigure_calm : cmdPortConfigure.Calm hd := by
  refine calm_of_run rfl (fun n a s => ?_)
  dsimp only [cmdPortConfigure]
  (repeat' split) <;> exact calm_of_ledger (by simp)

theorem cmdPortSetFilter_calm : cmdPortSetFilter.Calm hd := by
  refine calm_of_run rfl (fun n a s => ?_)
  dsimp only [cmdPortSetFilter]
  exact calm_of_ledger (by simp)

theorem cmdPortSetAggregation_calm : cmdPortSetAggregation.Calm hd := by
  refine calm_of_run rfl (fun n a s => ?_)
  dsimp only [cmdPortSetAggregation]
  exact calm_of_ledger (by simp)

theorem cmdPortSetMgmt_calm : cmdPortSetMgmt.Calm hd := by
  refine calm_of_run rfl (fun n a s => ?_)
  dsimp only [cmdPortSetMgmt]
  refine calm_of_ledger ?_
  rw [done_state]
  split
  · rw [raise_ledger, syncLanes_ledger]; rfl
  · rw [syncLanes_ledger]; rfl

theorem cmdPortSetLldp_calm : cmdPortSetLldp.Calm hd := by
  refine calm_of_run rfl (fun n a s => ?_)
  dsimp only [cmdPortSetLldp]
  exact calm_of_ledger (by simp)

theorem cmdPortReadStatus_calm : cmdPortReadStatus.Calm hd := by
  refine calm_of_run rfl (fun n a s => ?_)
  dsimp only [cmdPortReadStatus]
  exact calm_of_ledger (by simp)

theorem cmdPortReadCounters_calm : cmdPortReadCounters.Calm hd := by
  refine calm_of_run rfl (fun n a s => ?_)
  dsimp only [cmdPortReadCounters]
  exact calm_of_ledger (by simp)

theorem cmdFibreSetChannel_calm : cmdFibreSetChannel.Calm hd := by
  refine calm_of_run rfl (fun n a s => ?_)
  dsimp only [cmdFibreSetChannel]
  exact calm_of_ledger (by simp)

theorem cmdFibreSetBond_calm : cmdFibreSetBond.Calm hd := by
  refine calm_of_run rfl (fun n a s => ?_)
  dsimp only [cmdFibreSetBond]
  (repeat' split) <;> exact calm_of_ledger (by simp)

theorem cmdFibreSetGroups_calm : cmdFibreSetGroups.Calm hd := by
  refine calm_of_run rfl (fun n a s => ?_)
  dsimp only [cmdFibreSetGroups]
  (repeat' split) <;> exact calm_of_ledger (by simp)

theorem cmdFibreSetAllocQueues_calm : cmdFibreSetAllocQueues.Calm hd := by
  refine calm_of_run rfl (fun n a s => ?_)
  dsimp only [cmdFibreSetAllocQueues]
  (repeat' split) <;> exact calm_of_ledger (by simp)

theorem cmdFibreSetHeKey_calm : cmdFibreSetHeKey.Calm hd := by
  refine calm_of_run rfl (fun n a s => ?_)
  dsimp only [cmdFibreSetHeKey]
  exact calm_of_ledger (by simp)

theorem cmdFibreSetPolicy_calm : cmdFibreSetPolicy.Calm hd := by
  refine calm_of_run rfl (fun n a s => ?_)
  dsimp only [cmdFibreSetPolicy]
  exact calm_of_ledger (by simp)

theorem cmdFibreReadStatus_calm : cmdFibreReadStatus.Calm hd := by
  refine calm_of_run rfl (fun n a s => ?_)
  dsimp only [cmdFibreReadStatus]
  exact calm_of_ledger (by simp)

theorem cmdFibreReadCounters_calm : cmdFibreReadCounters.Calm hd := by
  refine calm_of_run rfl (fun n a s => ?_)
  dsimp only [cmdFibreReadCounters]
  (repeat' split) <;> exact calm_of_ledger (by simp)

theorem cmdParseLoad_calm : cmdParseLoad.Calm hd := by
  refine calm_of_run rfl (fun n a s => ?_)
  dsimp only [cmdParseLoad]
  exact calm_of_ledger (by simp)

theorem cmdParseInstall_calm : cmdParseInstall.Calm hd := by
  refine calm_of_run rfl (fun n a s => ?_)
  dsimp only [cmdParseInstall]
  exact calm_of_ledger (by simp)

theorem cmdRulesSetComparator_calm : cmdRulesSetComparator.Calm hd := by
  refine calm_of_run rfl (fun n a s => ?_)
  dsimp only [cmdRulesSetComparator]
  (repeat' split) <;> exact calm_of_ledger (by simp)

theorem cmdRulesBegin_calm : cmdRulesBegin.Calm hd := by
  refine calm_of_run rfl (fun n a s => ?_)
  dsimp only [cmdRulesBegin]
  (repeat' split) <;> exact calm_of_ledger (by simp)

theorem cmdRulesRemove_calm : cmdRulesRemove.Calm hd := by
  refine calm_of_run rfl (fun n a s => ?_)
  dsimp only [cmdRulesRemove]
  (repeat' split) <;> exact calm_of_ledger (by simp)

theorem cmdRulesAbort_calm : cmdRulesAbort.Calm hd := by
  refine calm_of_run rfl (fun n a s => ?_)
  dsimp only [cmdRulesAbort]
  (repeat' split) <;> exact calm_of_ledger (by simp)

theorem cmdRulesCommit_calm : cmdRulesCommit.Calm hd := by
  refine calm_of_run rfl (fun n a s => ?_)
  dsimp only [cmdRulesCommit]
  (repeat' split) <;> exact calm_of_ledger (by simp)

theorem cmdRulesRead_calm : cmdRulesRead.Calm hd := by
  refine calm_of_run rfl (fun n a s => ?_)
  dsimp only [cmdRulesRead]
  (repeat' split) <;> exact calm_of_ledger (by simp)

theorem cmdTableSetProfile_calm : cmdTableSetProfile.Calm hd := by
  refine calm_of_run rfl (fun n a s => ?_)
  dsimp only [cmdTableSetProfile]
  (repeat' split) <;> exact calm_of_ledger (by simp)

theorem cmdTableSetPort_calm : cmdTableSetPort.Calm hd := by
  refine calm_of_run rfl (fun n a s => ?_)
  dsimp only [cmdTableSetPort]
  exact calm_of_ledger (by simp)

theorem cmdTableSetVlan_calm : cmdTableSetVlan.Calm hd := by
  refine calm_of_run rfl (fun n a s => ?_)
  dsimp only [cmdTableSetVlan]
  exact calm_of_ledger (by simp)

theorem cmdTableSetAging_calm : cmdTableSetAging.Calm hd := by
  refine calm_of_run rfl (fun n a s => ?_)
  dsimp only [cmdTableSetAging]
  exact calm_of_ledger (by simp)

theorem cmdTableReadAged_calm : cmdTableReadAged.Calm hd := by
  refine calm_of_run rfl (fun n a s => ?_)
  dsimp only [cmdTableReadAged]
  exact calm_of_ledger (by simp)

theorem cmdDeviceSetRing_calm : cmdDeviceSetRing.Calm hd := by
  refine calm_of_run rfl (fun n a s => ?_)
  dsimp only [cmdDeviceSetRing]
  (repeat' split) <;> exact calm_of_ledger (by simp)

theorem cmdObsSetCounter_calm : cmdObsSetCounter.Calm hd := by
  refine calm_of_run rfl (fun n a s => ?_)
  dsimp only [cmdObsSetCounter]
  exact calm_of_ledger (by simp)

theorem cmdObsReadGroup_calm : cmdObsReadGroup.Calm hd := by
  refine calm_of_run rfl (fun n a s => ?_)
  dsimp only [cmdObsReadGroup]
  exact calm_of_ledger (by simp)

theorem cmdObsSetSampling_calm : cmdObsSetSampling.Calm hd := by
  refine calm_of_run rfl (fun n a s => ?_)
  dsimp only [cmdObsSetSampling]
  exact calm_of_ledger (by simp)

theorem cmdObsSetTrap_calm : cmdObsSetTrap.Calm hd := by
  refine calm_of_run rfl (fun n a s => ?_)
  dsimp only [cmdObsSetTrap]
  exact calm_of_ledger (by simp)

theorem cmdObsReadDrops_calm : cmdObsReadDrops.Calm hd := by
  refine calm_of_run rfl (fun n a s => ?_)
  dsimp only [cmdObsReadDrops]
  exact calm_of_ledger (by simp)

theorem cmdObsSetEcc_calm : cmdObsSetEcc.Calm hd := by
  refine calm_of_run rfl (fun n a s => ?_)
  dsimp only [cmdObsSetEcc]
  exact calm_of_ledger (by simp)

theorem cmdObsReadAudit_calm : cmdObsReadAudit.Calm hd := by
  refine calm_of_run rfl (fun n a s => ?_)
  dsimp only [cmdObsReadAudit]
  exact calm_of_ledger (by simp)

theorem cmdObsSetDump_calm : cmdObsSetDump.Calm hd := by
  refine calm_of_run rfl (fun n a s => ?_)
  dsimp only [cmdObsSetDump]
  exact calm_of_ledger (by simp)

theorem cmdObsSetIpfix_calm : cmdObsSetIpfix.Calm hd := by
  refine calm_of_run rfl (fun n a s => ?_)
  dsimp only [cmdObsSetIpfix]
  (repeat' split) <;> exact calm_of_ledger (by simp)

theorem cmdJournalRead_calm : cmdJournalRead.Calm hd := by
  refine calm_of_run rfl (fun n a s => ?_)
  dsimp only [cmdJournalRead]
  exact calm_of_ledger (by simp)

theorem cmdRecorderSet_calm : cmdRecorderSet.Calm hd := by
  refine calm_of_run rfl (fun n a s => ?_)
  dsimp only [cmdRecorderSet]
  exact calm_of_ledger (by simp)

theorem cmdRecorderRead_calm : cmdRecorderRead.Calm hd := by
  refine calm_of_run rfl (fun n a s => ?_)
  dsimp only [cmdRecorderRead]
  (repeat' split) <;> exact calm_of_ledger (by simp)

theorem cmdMaintReadVersion_calm : cmdMaintReadVersion.Calm hd := by
  refine calm_of_run rfl (fun n a s => ?_)
  dsimp only [cmdMaintReadVersion]
  exact calm_of_ledger (by simp)

theorem cmdMaintFlashWrite_calm : cmdMaintFlashWrite.Calm hd := by
  refine calm_of_run rfl (fun n a s => ?_)
  dsimp only [cmdMaintFlashWrite]
  (repeat' split) <;> exact calm_of_ledger (by simp)

theorem cmdMaintSelectImage_calm : cmdMaintSelectImage.Calm hd := by
  refine calm_of_run rfl (fun n a s => ?_)
  dsimp only [cmdMaintSelectImage]
  (repeat' split) <;> exact calm_of_ledger (by simp)

theorem cmdMaintSelfTest_calm : cmdMaintSelfTest.Calm hd := by
  refine calm_of_run rfl (fun n a s => ?_)
  dsimp only [cmdMaintSelfTest]
  exact calm_of_ledger (by simp)

theorem cmdMaintReplay_calm : cmdMaintReplay.Calm hd := by
  refine calm_of_run rfl (fun n a s => ?_)
  dsimp only [cmdMaintReplay]
  (repeat' split) <;> exact calm_of_ledger (by simp)

theorem deviceCommands_calm : ∀ c ∈ deviceCommands, c.Calm hd ∨ c = cmdDeviceLeaveSafe := by
  intro c h
  simp only [deviceCommands, List.mem_cons, List.not_mem_nil, or_false] at h
  rcases h with rfl | rfl | rfl | rfl | rfl | rfl | rfl | rfl | rfl | rfl | rfl | rfl
  · exact .inl cmdDeviceReadState_calm
  · exact .inl cmdDeviceStart_calm
  · exact .inl cmdDeviceStop_calm
  · exact .inl cmdDeviceSetProfile_calm
  · exact .inl cmdDeviceSetRing_calm
  · exact .inl cmdDeviceEnterMaintenance_calm
  · exact .inl cmdDeviceLeaveMaintenance_calm
  · exact .inr rfl
  · exact .inl cmdDeviceReset_calm
  · exact .inl cmdDeviceEraseKeys_calm
  · exact .inl cmdDeviceNop_calm
  · exact .inl cmdDeviceReadIdentity_calm

theorem fibreCommands_calm : ∀ c ∈ fibreCommands, c.Calm hd := by
  intro c h
  simp only [fibreCommands, List.mem_cons, List.not_mem_nil, or_false] at h
  rcases h with rfl | rfl | rfl | rfl | rfl | rfl | rfl | rfl | rfl | rfl
  · exact cmdFibreSetChannel_calm
  · exact cmdFibreSetBond_calm
  · exact cmdFibreSetGroups_calm
  · exact cmdFibreSetPortId_calm
  · exact cmdFibreSetUpstream_calm
  · exact cmdFibreSetAllocQueues_calm
  · exact cmdFibreSetHeKey_calm
  · exact cmdFibreSetPolicy_calm
  · exact cmdFibreReadStatus_calm
  · exact cmdFibreReadCounters_calm

theorem parseCommands_calm : ∀ c ∈ parseCommands, c.Calm hd := by
  intro c h
  simp only [parseCommands, List.mem_cons, List.not_mem_nil, or_false] at h
  rcases h with rfl | rfl | rfl | rfl | rfl | rfl | rfl | rfl | rfl
  · exact cmdParseLoad_calm
  · exact cmdParseInstall_calm
  · exact cmdRulesSetComparator_calm
  · exact cmdRulesBegin_calm
  · exact cmdRulesAdd_calm
  · exact cmdRulesRemove_calm
  · exact cmdRulesAbort_calm
  · exact cmdRulesCommit_calm
  · exact cmdRulesRead_calm

theorem tableCommands_calm : ∀ c ∈ tableCommands, c.Calm hd := by
  intro c h
  simp only [tableCommands, List.mem_cons, List.not_mem_nil, or_false] at h
  rcases h with rfl | rfl | rfl | rfl | rfl | rfl | rfl | rfl | rfl
  · exact cmdTableSetProfile_calm
  · exact cmdTableAdd_calm
  · exact cmdTableModify_calm
  · exact cmdTableDelete_calm
  · exact cmdTableRead_calm
  · exact cmdTableSetPort_calm
  · exact cmdTableSetVlan_calm
  · exact cmdTableSetAging_calm
  · exact cmdTableReadAged_calm

theorem trafficCommands_calm : ∀ c ∈ trafficCommands, c.Calm hd := by
  intro c h
  simp only [trafficCommands, List.mem_cons, List.not_mem_nil, or_false] at h
  rcases h with rfl | rfl | rfl | rfl | rfl | rfl | rfl | rfl | rfl
  · exact cmdTrafficSetQueue_calm
  · exact cmdTrafficFlushQueue_calm
  · exact cmdTrafficSetPolicer_calm
  · exact cmdTrafficSetShaper_calm
  · exact cmdTrafficSetPause_calm
  · exact cmdTrafficSetGate_calm
  · exact cmdTrafficSetHistogram_calm
  · exact cmdTrafficRead_calm
  · exact cmdTrafficReadHistogram_calm

theorem cipherCommands_calm : ∀ c ∈ cipherCommands, c.Calm hd := by
  intro c h
  simp only [cipherCommands, List.mem_cons, List.not_mem_nil, or_false] at h
  rcases h with rfl | rfl | rfl | rfl
  · exact cmdCipherSetCak_calm none
  · exact cmdCipherSetMacsec_calm
  · exact cmdCipherSetThreshold_calm
  · exact cmdCipherReadStatus_calm

theorem timeCommands_calm : ∀ c ∈ timeCommands, c.Calm hd := by
  intro c h
  simp only [timeCommands, List.mem_cons, List.not_mem_nil, or_false] at h
  rcases h with rfl | rfl | rfl | rfl | rfl | rfl | rfl | rfl | rfl | rfl
  · exact cmdTimeSet_calm
  · exact cmdTimeStep_calm
  · exact cmdTimeSetServo_calm
  · exact cmdTimeSelectDomain_calm
  · exact cmdTimeSetFibre_calm
  · exact cmdTimeReadFibre_calm
  · exact cmdTimeSetSource_calm
  · exact cmdTimeSetIo_calm
  · exact cmdTimeSetPtp_calm
  · exact cmdTimeReadStatus_calm

theorem portCommands_calm : ∀ c ∈ portCommands, c.Calm hd := by
  intro c h
  simp only [portCommands, List.mem_cons, List.not_mem_nil, or_false] at h
  rcases h with rfl | rfl | rfl | rfl | rfl | rfl | rfl | rfl
  · exact cmdPortConfigure_calm
  · exact cmdPortSetFilter_calm
  · exact cmdPortSetAddress_calm
  · exact cmdPortSetAggregation_calm
  · exact cmdPortSetMgmt_calm
  · exact cmdPortSetLldp_calm
  · exact cmdPortReadStatus_calm
  · exact cmdPortReadCounters_calm

theorem laneCommands_calm : ∀ c ∈ laneCommands, c.Calm hd := by
  intro c h
  simp only [laneCommands, List.mem_cons, List.not_mem_nil, or_false] at h
  rcases h with rfl | rfl | rfl | rfl | rfl
  · exact cmdLaneConfigure_calm
  · exact cmdLaneSetTest_calm
  · exact cmdLaneInject_calm
  · exact cmdLaneReadStatus_calm
  · exact cmdLaneReadCounters_calm

theorem powerCommands_calm : ∀ c ∈ powerCommands, c.Calm hd := by
  intro c h
  simp only [powerCommands, List.mem_cons, List.not_mem_nil, or_false] at h
  rcases h with rfl | rfl | rfl | rfl
  · exact cmdPowerSetState_calm
  · exact cmdPowerSetCap_calm
  · exact cmdPowerSetDroop_calm
  · exact cmdPowerReadStatus_calm

theorem observabilityCommands_calm : ∀ c ∈ observabilityCommands, c.Calm hd := by
  intro c h
  simp only [observabilityCommands, List.mem_cons, List.not_mem_nil, or_false] at h
  rcases h with rfl | rfl | rfl | rfl | rfl | rfl | rfl | rfl | rfl
  · exact cmdObsSetCounter_calm
  · exact cmdObsSetDump_calm
  · exact cmdObsReadGroup_calm
  · exact cmdObsSetSampling_calm
  · exact cmdObsReadAudit_calm
  · exact cmdObsSetIpfix_calm
  · exact cmdObsSetTrap_calm
  · exact cmdObsReadDrops_calm
  · exact cmdObsSetEcc_calm

theorem journalCommands_calm : ∀ c ∈ journalCommands, c.Calm hd := by
  intro c h
  simp only [journalCommands, List.mem_cons, List.not_mem_nil, or_false] at h
  rcases h with rfl | rfl | rfl
  · exact cmdJournalRead_calm
  · exact cmdRecorderSet_calm
  · exact cmdRecorderRead_calm

theorem maintenanceCommands_calm : ∀ c ∈ maintenanceCommands, c.Calm hd := by
  intro c h
  simp only [maintenanceCommands, List.mem_cons, List.not_mem_nil, or_false] at h
  rcases h with rfl | rfl | rfl | rfl | rfl | rfl
  · exact cmdMaintReadVersion_calm
  · exact cmdMaintFlashWrite_calm
  · exact cmdMaintSelectImage_calm
  · exact cmdMaintSelfTest_calm
  · exact cmdMaintReplay_calm
  · exact cmdMaintAbort_calm

/-- Every command is calm; DEVICE_LEAVE_SAFE alone ends a halted state. -/
theorem cmdOf_cases (op : Nat) : ∀ c, cmdOf op = some c → c.Calm hd ∨ c = cmdDeviceLeaveSafe := by
  intro c h
  have m := List.mem_of_find?_eq_some h
  simp only [allCommands, List.mem_append] at m
  rcases m with ((((((((((((m | m) | m) | m) | m) | m) | m) | m) | m) | m) | m) | m) | m)
  · exact deviceCommands_calm c m
  · exact .inl (fibreCommands_calm c m)
  · exact .inl (parseCommands_calm c m)
  · exact .inl (tableCommands_calm c m)
  · exact .inl (trafficCommands_calm c m)
  · exact .inl (cipherCommands_calm c m)
  · exact .inl (timeCommands_calm c m)
  · exact .inl (portCommands_calm c m)
  · exact .inl (laneCommands_calm c m)
  · exact .inl (powerCommands_calm c m)
  · exact .inl (observabilityCommands_calm c m)
  · exact .inl (journalCommands_calm c m)
  · exact .inl (maintenanceCommands_calm c m)

theorem cmdOf_calm (op : Nat) : ∀ c, cmdOf op = some c → c.Calm false := by
  intro c h
  rcases cmdOf_cases op c h with g | rfl
  · exact g
  · exact cmdDeviceLeaveSafe_calm

/-- A command judged to an ending other than its own run is calm, DEVICE_LEAVE_SAFE with them: without items it
never comes to its run. -/
theorem runCommand_ended_calm (op : Nat) (c : CmdSpec) (h : cmdOf op = some c) (n : Nat) (q : Word32) (a : Bytes)
    (l : Nat) (e : Ending) (w : e ≠ .run) (s : State) (g : c.legal s a = true) :
    Calm hd s (runCommand c n q a l e s) := by
  rcases cmdOf_cases op c h with k | rfl
  · exact runCommand_calm c k n q a l e s g
  · refine runCommand_calm_of _ n q a l e s (fun r => absurd r ?_) (fun f e => by cases e)
    cases e
    · exact absurd rfl w
    all_goals exact fun r => by cases r

theorem execUnknownOpcode_calm (n : Fin 16) (s : State) : ∀ t, execUnknownOpcode n s = .next t → Calm hd s t := by
  unfold execUnknownOpcode
  split
  · exact fun t h => by rw [← next_inj h]; exact Calm.refl s
  · intro t h
    rw [← next_inj h]
    split
    · rename_i w
      refine Calm.after (popBell_ledger s) (judge_calm_of _ _ _ _ _ (fun x _ g => ?_))
      exact absurd (w.symm.trans g) (by decide)
    · exact Calm.refl s

theorem undo_calm (r : Running) (s : State) : Calm hd s (undo r s) := calm_of_ledger (undo_ledger r s)

theorem execCommandDeadlineExpiry_calm (n : Fin 16) (k : Nat) (s : State) (i : Bool) :
    ∀ t, execCommandDeadlineExpiry n k s i = .next t → Calm hd s t := by
  have ended : ∀ o : Option (Nat → Nat → Bytes → State → Ran), (if i = true then Ending.internal
      else if k = 0 then Ending.early
      else match o with
        | some _ => .items k
        | none => .rolledBack) ≠ .run := by
    intro o; split
    · exact fun h => by cases h
    · split
      · exact fun h => by cases h
      · cases o <;> exact fun h => by cases h
  have pass : ∀ d, (if i = true then s else passTo d s).ledger = s.ledger := fun d => by
    split
    · rfl
    · exact passTo_ledger ..
  unfold execCommandDeadlineExpiry
  intro t h
  split at h
  · rw [← next_inj h]
    exact calm_ite _ (calm_of_ledger (pass _)) (Calm.after (pass _) ((undo_calm ..).trans (conclude_calm ..)))
  · split at h
    · rw [← next_inj h]; exact Calm.refl s
    · rw [← next_inj h]
      refine Calm.after ((popBell_ledger _).trans (pass _)) (judge_calm_of _ _ _ _ _ ?_)
      exact fun x hx _ q a l _ g => runCommand_ended_calm _ x hx _ q a l _ (ended _) _ g

theorem calm_of_next {s x : State} (h : Calm hd s x) : ∀ t, (.next x : Answer) = .next t → Calm hd s t := by
  intro t e; rw [← next_inj e]; exact h

theorem calm_next_ite {s : State} (c : Prop) [Decidable c] {a b : Answer}
    (ha : ∀ t, a = .next t → Calm hd s t) (hb : ∀ t, b = .next t → Calm hd s t) :
    ∀ t, (if c then a else b) = .next t → Calm hd s t := by
  intro t; split
  · exact ha t
  · exact hb t

theorem calm_next_self (s : State) : ∀ t, (.next s : Answer) = .next t → Calm hd s t :=
  calm_of_next (Calm.refl s)

theorem execMbxDoorbell_calm (v : Word32) (s : State) : ∀ t, execMbxDoorbell v s = .next t → Calm hd s t := by
  unfold execMbxDoorbell
  split
  · exact calm_of_next (calm_of_ledger (bump_ledger ..))
  · exact calm_of_next (ringBell_calm ..)

theorem execMbxStatusRead_calm (n : Fin 16) (s : State) : ∀ t, execMbxStatusRead n s = .next t → Calm hd s t := by
  unfold execMbxStatusRead
  dsimp only
  exact calm_next_ite _ (calm_of_next (Calm.after (emit_ledger ..) (mbxWrite_calm ..)))
    (calm_of_next (calm_of_ledger (emit_ledger ..)))

theorem twf_writeEnabled {m : Tab Byte} (a : Nat) (l : List (Option Byte)) (h : twf 0 m = true) :
    twf 0 (writeEnabled m a l) = true := by
  induction l generalizing m a with
  | nil => exact h
  | cons o l ih =>
    cases o with
    | none => exact ih _ h
    | some b => exact ih _ (twf_tset 0 a b h)

theorem execMailboxWrite_calm (n : Fin 16) (off : Nat) (data : List (Option Byte)) (s : State) :
    ∀ t, execMailboxWrite n off data s = .next t → Calm hd s t := by
  unfold execMailboxWrite
  dsimp only
  have h : (if off + data.length > 0x800 then bump (ck 440 4 (n.val * 2)) 1 s else s).ledger = s.ledger := by
    split
    · exact bump_ledger ..
    · rfl
  generalize (if off + data.length > 0x800 then bump (ck 440 4 (n.val * 2)) 1 s else s) = x at h
  refine calm_next_ite _ (calm_of_next (calm_of_ledger ?_)) (calm_next_ite _ (calm_of_next (calm_of_ledger h))
    (calm_next_ite _ (calm_of_next (calm_of_ledger ?_)) (calm_of_next (Calm.after h ?_))))
  · exact refuseAccess_ledger ..
  · rw [bump_ledger, h]
  · exact calm_mbox x _ (twf_writeEnabled _ _)

theorem execAlarm_calm (src : Fin 5) (s : State) : ∀ t, execAlarm src s = .next t → Calm hd s t :=
  calm_of_next (raiseAlarm_calm ..)

theorem execEraseDone_calm (s : State) : ∀ t, execEraseDone s = .next t → Calm hd s t := by
  have keep : ∀ b : Bool, ({ s with dev := { s.dev with erasing := b } } : State).ledger = s.ledger :=
    fun _ => rfl
  unfold execEraseDone
  refine calm_next_ite _ (calm_of_next (Calm.after ?_ (concludeErase_calm _))) (calm_next_self s)
  rw [raise_ledger, bump_ledger, keep]

theorem execTamperCheck_calm (b : Bool) (s : State) : ∀ t, execTamperCheck b s = .next t → Calm hd s t := by
  have keep : ∀ p : Power, ({ s with pow := p } : State).ledger = s.ledger := fun _ => rfl
  unfold execTamperCheck
  refine calm_next_ite _ (calm_of_next (calm_of_ledger ?_)) (calm_of_next (calm_ite _ ?_ ?_))
  · rw [assertSource_ledger, keep]
  · exact Calm.after (keep _) (holdSource_calm ..)
  · exact calm_of_ledger (keep _)

theorem execLockstepMismatch_calm (s : State) : ∀ t, execLockstepMismatch s = .next t → Calm hd s t := by
  have keep : ∀ b : Bool, ({ s with dev := { s.dev with lockstep := b } } : State).ledger = s.ledger :=
    fun _ => rfl
  unfold execLockstepMismatch
  exact calm_of_next (calm_ite _ (calm_of_ledger (keep _)) (Calm.after (keep _) (raiseAlarm_calm ..)))

theorem execWatchdog_calm (l : Fin 32) (s : State) : ∀ t, execWatchdog l s = .next t → Calm hd s t := by
  unfold execWatchdog
  exact calm_next_ite _ (calm_of_next (Calm.after (amberRecord_ledger ..) (warmReset_calm ..))) (calm_next_self s)

/-- A deglitch filter is calm when the change of the pin is. -/
theorem deglitch_calm (row unit w h : Nat) (f : State → State) (s : State) (g : ∀ x, Calm hd x (f x)) :
    Calm hd s (deglitch row unit w h f s) := by
  unfold deglitch
  exact calm_ite _ (calm_of_ledger (bump_ledger ..)) (Calm.after (passTo_ledger ..) (g _))

theorem execHiveMemoryError_calm (s : State) : ∀ t, execHiveMemoryError s = .next t → Calm hd s t := by
  unfold execHiveMemoryError
  refine calm_next_ite _ (calm_of_next (Calm.after ?_ (warmReset_calm ..))) (calm_next_self s)
  rw [raise_ledger]
  exact (takeFree_ledger _).trans (bump_ledger ..)

theorem execThermalConversion_calm (k : Fin 24) (v : Int) (s : State) (m : List (Fin 24 × Int)) :
    ∀ t, execThermalConversion k v s m = .next t → Calm hd s t := by
  unfold execThermalConversion
  generalize (k, v) :: m = l
  have g1 : (l.foldl (fun s e => noteReading e s) s).ledger = s.ledger :=
    foldl_ledger l (fun s e => noteReading e s) (fun t e => noteReading_ledger e t) s
  dsimp only
  generalize l.foldl (fun s e => noteReading e s) s = y at g1 ⊢
  have g : (if (crossing s l).isEmpty = true then y else beginThrottle (lowest (crossing s l)) y).ledger = s.ledger := by
    split
    · exact g1
    · exact (beginThrottle_ledger ..).trans g1
  generalize (if (crossing s l).isEmpty = true then y else beginThrottle (lowest (crossing s l)) y) = x at g ⊢
  apply calm_next_ite
  · exact calm_of_next (Calm.after g (holdSource_calm 2 x))
  apply calm_next_ite
  · exact calm_of_next (calm_of_ledger g)
  · exact calm_of_next (calm_of_ledger ((assertSource_ledger ..).trans g))

theorem execD2Entry_calm (s : State) : ∀ t, execD2Entry s = .next t → Calm hd s t := by
  unfold execD2Entry
  exact calm_next_ite _ (calm_of_next (Calm.after (passFrame_ledger ..) (enterD2_calm _))) (calm_next_self s)

theorem execD3EntryDone_calm (s : State) : ∀ t, execD3EntryDone s = .next t → Calm hd s t := by
  unfold execD3EntryDone
  exact calm_next_ite _ (calm_of_next (finishD3_calm s)) (calm_next_self s)

theorem execPowerStateChangeDone_calm (s : State) : ∀ t, execPowerStateChangeDone s = .next t → Calm hd s t := by
  unfold execPowerStateChangeDone
  split
  · exact calm_of_next (Calm.after (enterPower_ledger ..) (concludePower_calm ..))
  · exact calm_of_next (Calm.after (enterPower_ledger ..) (concludePower_calm ..))
  · exact calm_next_self s

theorem execD2ExitDone_calm (l : List (Fin 24)) (s : State) : ∀ t, execD2ExitDone l s = .next t → Calm hd s t := by
  unfold execD2ExitDone
  exact calm_next_ite _ (calm_of_next (endExit_calm ..)) (calm_next_self s)

theorem execD3ExitDone_calm (l : List (Fin 24)) (s : State) : ∀ t, execD3ExitDone l s = .next t → Calm hd s t := by
  unfold execD3ExitDone
  exact calm_next_ite _ (calm_of_next (endExit_calm ..)) (calm_next_self s)

theorem execPowerOn_calm (s : State) : ∀ t, execPowerOn s = .next t → Calm hd s t := by
  have keep : ∀ (x : State) (c : Tab Nat) (u : Supply), ({ x with cnt := c, sup := u } : State).ledger = x.ledger :=
    fun _ _ _ => rfl
  unfold execPowerOn
  exact calm_next_ite _ (calm_next_self s) (calm_of_next ((coldReset_calm ..).then (keep _ _ _)))

theorem execUnderVoltageLockout_calm (s : State) : ∀ t, execUnderVoltageLockout s = .next t → Calm hd s t := by
  have keep : ∀ (x : State) (u : Supply), ({ x with sup := u } : State).ledger = x.ledger := fun _ _ => rfl
  unfold execUnderVoltageLockout
  exact calm_of_next (((blank_calm s).then (keep _ _)).then (showPins_ledger ..))

theorem execPinReset_calm (s : State) (h : Nat) : ∀ t, execPinReset s h = .next t → Calm hd s t := by
  have keep : ∀ (x : State) (b : Bool), ({ x with dev := { x.dev with pinLow := b } } : State).ledger
      = x.ledger := fun _ _ => rfl
  unfold execPinReset
  exact calm_next_ite _ (calm_next_self s) (calm_of_next (deglitch_calm _ _ _ _ _ _ (fun x =>
    (coldReset_calm 0x02 x).then (keep _ _))))

theorem execVinSample_calm (v : Nat) (s : State) : ∀ t, execVinSample v s = .next t → Calm hd s t := by
  have keep : ∀ u : Supply, ({ s with sup := u } : State).ledger = s.ledger := fun _ => rfl
  have h : ∀ u : Supply, (if v < 2600 then dyingGaspOnset (noteGood (markVin v { s with sup := u }))
      else noteGood (markVin v { s with sup := u })).ledger = s.ledger := by
    intro u; split <;> simp [keep]
  unfold execVinSample
  refine calm_next_ite _ (calm_next_self s) (calm_of_next (calm_ite _
    (Calm.after (h _) (holdSource_calm ..)) (calm_of_ledger ?_)))
  rw [assertSource_ledger, h]

theorem rebuild_calm (s : State) : Calm hd s (rebuild s) := by
  unfold rebuild
  split
  · exact (Calm.after (mailboxesFromJournal_ledger s) (journal_calm ..)).then
      ((restoreBank_ledger ..).trans (wakeBankFreely_ledger ..))
  · exact Calm.refl s

theorem execLoadingComplete_calm (s : State) : ∀ t, execLoadingComplete s = .next t → Calm false s t := by
  have keep : ∀ (x : State) (r w : Bool) (o : Option Nat) (u : Time),
      ({ x with dev := { x.dev with ready := r, readyAt := o, warm := w }, time := u } : State).ledger = x.ledger :=
    fun _ _ _ _ _ => rfl
  have h1 : Calm false s (forEach replicaIslands realign (markReset (reseed (rebuild s)))) := by
    refine (rebuild_calm s).then ?_
    rw [forEach_ledger _ _ _ (fun i t => realign_ledger i t), markReset_ledger, reseed_ledger]
  have h : ∀ (x y : State) (r w : Bool) (o : Option Nat) (u : Time), Calm false s x →
      Calm false s (showPins y (syncLanes (changeState .standby
        { x with dev := { x.dev with ready := r, readyAt := o, warm := w }, time := u }))) :=
    fun x y r w o u hx => ((((hx.then (keep _ r w o u)).trans
      (changeState_calm .standby _ (fun h => absurd h (by decide)))).then (syncLanes_ledger _)).then (showPins_ledger ..))
  unfold execLoadingComplete
  exact calm_next_ite _ (calm_next_self s) (calm_of_next (calm_ite _ ((h _ _ _ _ _ _ h1).trans (becomeSafe_calm _))
    (h _ _ _ _ _ _ h1)))

/-- In a device state other than LOADING the end of loading has no occasion. -/
theorem execLoadingComplete_idle (s : State) (h : s.dev.state ≠ .loading) : execLoadingComplete s = .next s := by
  unfold execLoadingComplete
  rw [if_pos (by simp [h])]

theorem execDegradedEvaluation_calm (s : State) :
    ∀ t, execDegradedEvaluation s = .next t → Calm hd s t := by
  have h : ∀ d, halted s.dev.state = false → Calm hd s (changeState d s) :=
    fun d w => changeState_calm _ _ (fun _ g => by rw [w] at g; cases g)
  unfold execDegradedEvaluation
  split <;> rename_i e
  · exact calm_next_ite _ (calm_next_self s) (calm_of_next (h _ (by rw [e]; rfl)))
  · exact calm_next_ite _ (calm_of_next (h _ (by rw [e]; rfl))) (calm_next_self s)
  · exact calm_next_self s

theorem execResetRelease_calm (s : State) (h : Nat) : ∀ t, execResetRelease s h = .next t → Calm hd s t := by
  have keep : ∀ (x : State) (a b l : Bool) (n : Nat) (p : Power), ({ x with
      dev := { x.dev with released := a, releasedAt := n, pinLow := b }, pow := p
      hif := { x.hif with linkUp := l } } : State).ledger = x.ledger := fun _ _ _ _ _ _ => rfl
  have rise : ∀ x, Calm hd x ((fun (s : State) =>
      let s1 := passTo s.sup.releaseAt s
      enterLoading { s1 with
        dev := { s1.dev with released := true, releasedAt := s1.now, pinLow := false }
        pow := { s1.pow with railsUp := true, changed := s1.now, levelAt := s1.now }
        hif := { s1.hif with linkUp := !s1.hif.perst } }) x) := fun x =>
    Calm.after ((keep _ _ _ _ _ _).trans (passTo_ledger ..)) (enterLoading_calm _)
  unfold execResetRelease
  exact calm_next_ite _ (calm_of_next (calm_ite _ (deglitch_calm _ _ _ _ _ _ rise) (rise s))) (calm_next_self s)

theorem execRefclk156Qualify_calm (s : State) : ∀ t, execRefclk156Qualify s = .next t → Calm hd s t := by
  have keep : ∀ u : Supply, ({ s with sup := u } : State).ledger = s.ledger := fun _ => rfl
  unfold execRefclk156Qualify
  exact calm_next_ite _ (calm_next_self s) (calm_of_next (calm_ite _ (Calm.after (keep _) (enterLoading_calm _))
    (calm_of_ledger ((bump_ledger ..).trans (keep _)))))

theorem onAccepted_calm (k : Nat) (f : RxMsg → State → State) (s : State)
    (h : ∀ m x, Calm hd x (f m x)) : Calm hd s (onAccepted k f s) := by
  have keep : ∀ b : Fib, ({ s with fib := b } : State).ledger = s.ledger := fun _ => rfl
  unfold onAccepted
  split
  · exact Calm.refl s
  · exact calm_ite _ (Calm.after (keep _) (h _ _)) (Calm.refl s)

theorem execDozeReply_calm (s : State) : ∀ t, execDozeReply s = .next t → Calm hd s t :=
  calm_of_next (onAccepted_calm _ _ s applyDozeReply_calm)

theorem execScrubRead_calm (r : Fin 15) (a : Nat) (v : EccVerdict) (s : State) (u : Bool) :
    ∀ t, execScrubRead r a v s u = .next t → Calm hd s t := by
  have h : (bump (ck 511 18 r.val) 1 (moveScrubber r.val a s)).ledger = s.ledger := by
    rw [bump_ledger, moveScrubber_ledger]
  unfold execScrubRead
  exact calm_next_ite _ (calm_next_self s) (calm_next_ite _ (calm_of_next (readByUser_calm ..))
    (calm_next_ite _ (calm_next_self s) (calm_next_ite _ (calm_of_next (calm_of_ledger h))
      (calm_of_next (Calm.after h (decideWord_calm ..))))))

theorem execRestoration_calm (r : Fin 15) (a : Nat) (b : Bool) (s : State) :
    ∀ t, execRestoration r a b s = .next t → Calm hd s t := by
  have w : (retireHeld r a (wakeForWord r a s)).ledger = s.ledger := by
    rw [retireHeld_ledger, wakeForWord_ledger]
  unfold execRestoration
  dsimp only
  split
  · exact calm_next_self s
  · refine calm_next_ite _ (calm_next_self s) (calm_of_next (calm_of_ledger ?_))
    rw [restoreBank_ledger, wakeForWord_ledger]
  · refine calm_next_ite _ (calm_next_self s) (calm_next_ite _ (calm_of_next (calm_of_ledger ?_))
      (calm_of_next (Calm.then (Calm.after ?_ (restoredItem_calm ..)) (bump_ledger ..))))
    · rw [failRestore_ledger, w]
    · rw [supersede_ledger, goodWord_ledger, recover_ledger, w]

theorem execBackgroundCommandDone_calm (n : Fin 16) (r : BgResult) (s : State) :
    ∀ t, execBackgroundCommandDone n r s = .next t → Calm hd s t := by
  unfold execBackgroundCommandDone
  split
  · exact calm_next_self s
  · split
    · exact calm_of_next (calm_ite _ (endFlashWrite_calm ..) (Calm.refl s))
    · exact calm_of_next (calm_ite _ (conclude_calm ..) (Calm.refl s))
    · exact calm_of_next (calm_ite _ (conclude_calm ..) (Calm.refl s))
    · exact calm_of_next (conclude_calm ..)

/-- An answer that leaves the ledger alone. -/
theorem calm_of_kept {s : State} {a : Answer} (h : ∀ t, a = .next t → t.ledger = s.ledger) :
    ∀ t, a = .next t → Calm hd s t := fun t e => calm_of_ledger (h t e)

theorem writeMsixWord_ledger (off : Nat) (d : List (Option Byte)) (s : State) :
    (writeMsixWord off d s).ledger = s.ledger := by
  have h : ∀ x : State, x.ledger = s.ledger → (if dmaOk x then sendPending [off / 16] x else x).ledger = s.ledger := by
    intro x hx
    split
    · rw [sendPending_ledger, hx]
    · exact hx
  unfold writeMsixWord
  split
  · rfl
  · exact h _ (setVec_ledger _ _ s)

theorem bar4Write_ledger (off : Nat) (d : List (Option Byte)) (s : State) : (bar4Write off d s).ledger = s.ledger := by
  unfold bar4Write
  split
  · exact refuseAccess_ledger ..
  · dsimp only
    split
    · rw [writeMsixWord_ledger, writeMsixWord_ledger]
    · exact writeMsixWord_ledger ..

theorem bar0Read_calm (off len : Nat) (s : State) : ∀ t, bar0Read off len s = .next t → Calm hd s t := by
  have keep : ∀ (x : State) (l : List Out), ({ x with out := l } : State).ledger = x.ledger := fun _ _ => rfl
  unfold bar0Read
  refine calm_next_ite _ (calm_of_next (calm_of_ledger (refuseAccess_ledger ..))) ?_
  refine calm_next_ite _ ?_ (calm_of_next (calm_of_ledger (emit_ledger ..)))
  split
  · rename_i e
    exact calm_of_next ((execMbxStatusRead_calm _ s _ e).then ((emit_ledger ..).trans (keep ..)))
  · rename_i h
    exact fun t e => absurd e (h t)

theorem bar2Read_ledger (off : Nat) (s : State) : ∀ t, bar2Read off s = .next t → t.ledger = s.ledger := by
  unfold bar2Read
  refine ledger_of_ite _ _ _ _ (execRegisterLowWordRead_ledger off s) (ledger_of_ite _ _ _ _ ?_ ?_)
  · refine ledger_of_next ?_
    rw [emit_ledger, foldl_ledger _ _ (fun t j => copyWindow_ledger _ t), wakeJournal_ledger]
  · exact ledger_of_next (emit_ledger ..)

theorem bar2Write_calm (off : Nat) (v : Word32) (s : State) : ∀ t, bar2Write off v s = .next t → Calm hd s t := by
  unfold bar2Write
  refine calm_next_ite _ (execMbxDoorbell_calm v s) (calm_of_kept ?_)
  refine ledger_of_ite _ _ _ _ (execMbxDoneClear_ledger v 0 s) ?_
  refine ledger_of_ite _ _ _ _ (execMbxIrqEnWrite_ledger v s) ?_
  refine ledger_of_ite _ _ _ _ (execFaultStatusClear_ledger v 0 s) ?_
  refine ledger_of_ite _ _ _ _ (ledger_of_ite _ _ _ _ (execEvtEnable_ledger s) (execEvtDisable_ledger s)) ?_
  refine ledger_of_ite _ _ _ _ (execRegisterLowWordWrite_ledger off v s) ?_
  refine ledger_of_ite _ _ _ _ (execEvtConsumerWrite_ledger v s) ?_
  refine ledger_of_ite _ _ _ _ (execJrnWindowSeqWrite_ledger v s) ?_
  refine ledger_of_ite _ _ _ _ (execTimeSnap_ledger v s) ?_
  refine ledger_of_ite _ _ _ _ (execMdioCmdGo_ledger v s) ?_
  refine ledger_of_ite _ _ _ _ (execMsixModWrite_ledger _ v s) ?_
  refine ledger_of_ite _ _ _ _ (execHringRxTailWrite_ledger _ v s) ?_
  refine ledger_of_ite _ _ _ _ (execHringTxTailWrite_ledger _ v s) ?_
  exact execRegisterWrite_ledger off v s

/-- An access of the host leaves the queue alone and the mailboxes and the journal in order. -/
theorem execUnsupportedRequest_calm (b : Bar) (s : State) (a : Option HostAccess) :
    ∀ t, execUnsupportedRequest b s a = .next t → Calm hd s t := by
  have keep : ∀ (x : State) (p : Pcie), ({ x with hif := { x.hif with pcie := p } } : State).ledger = x.ledger :=
    fun _ _ => rfl
  have refused : ∀ k, ∀ t, (.next (refuseAccess k s) : Answer) = .next t → Calm hd s t :=
    fun k => calm_of_next (calm_of_ledger (refuseAccess_ledger ..))
  unfold execUnsupportedRequest
  split
  · exact refused b
  · unfold access
    split
    · exact bar0Read_calm _ _ s
    · exact calm_next_ite _ (calm_of_kept (bar2Read_ledger _ s)) (refused _)
    · exact calm_of_next (calm_of_ledger (bar4Read_ledger ..))
    · exact execMailboxWrite_calm _ _ _ s
    · exact calm_next_ite _ (bar2Write_calm _ _ s) (refused _)
    · exact calm_of_next (calm_of_ledger (bar4Write_ledger ..))
    · exact calm_next_ite _ (calm_of_next (calm_of_ledger (emit_ledger ..)))
        (calm_of_next (calm_of_ledger ((emit_ledger ..).trans (configWord_ledger ..))))
    · exact calm_next_ite _ (calm_of_next (calm_of_ledger (emit_ledger ..))) (calm_of_next (calm_of_ledger (keep ..)))

end Sys2Proof.Machine
end

