-- ==== Sys2Proof/Laws/MailboxBytes.lean ====
section
/-! SUPPORT. Reads of a mailbox after writes of it: what was written, and what stands elsewhere. -/

namespace Sys2Proof.Machine

open Sys2Proof

theorem byteAt_cons_succ (b : Byte) (l : Bytes) (i : Nat) : byteAt (b :: l) (i + 1) = byteAt l i := rfl

theorem le_cons_succ (b : Byte) (l : Bytes) (off n : Nat) : le (b :: l) (off + 1) n = le l off n := by
  induction n generalizing off with
  | zero => rfl
  | succ n ih => simp only [le, byteAt_cons_succ, ih]

/-- A value written as n little-endian bytes and read back (R5). -/
theorem le_leBytes (n v : Nat) : le (leBytes n v) 0 n = v % 256 ^ n := by
  induction n generalizing v with
  | zero => simp [le, Nat.mod_one]
  | succ n ih =>
    have h : byteAt (leBytes (n + 1) v) 0 = v % 256 := by
      simp [leBytes, byteAt]
    have g : le (leBytes (n + 1) v) 1 n = v / 256 % 256 ^ n := by
      rw [leBytes, le_cons_succ, ih]
    simp only [le, h, Nat.zero_add, g, Nat.pow_succ']
    rw [Nat.mod_mul]

@[simp] theorem leBytes_length (n v : Nat) : (leBytes n v).length = n := by
  induction n generalizing v with
  | zero => rfl
  | succ n ih => simp [leBytes, ih]

/-! ### Bytes -/

theorem tget_mbxWrite (n off : Nat) (b : Bytes) (s : State) (a : Nat) :
    tget 0 (mbxWrite n off b s).hif.mbox a
      = if mbxAddr n off ≤ a ∧ a < mbxAddr n off + b.length then b.getD (a - mbxAddr n off) 0
        else tget 0 s.hif.mbox a := tget_putBytes ..

theorem tget_clearResponse (n : Nat) (s : State) (a : Nat) :
    tget 0 (clearResponse n s).hif.mbox a
      = if mbxAddr n 0x840 ≤ a ∧ a < mbxAddr n 0x1000 then 0 else tget 0 s.hif.mbox a := tget_zeroBytes ..

/-! ### Fields -/

/-- A read of exactly what was written. -/
@[simp] theorem mbxRead_mbxWrite (n off : Nat) (b : Bytes) (s : State) :
    mbxRead (mbxWrite n off b s) n off b.length = b := getBytes_putBytes ..

/-- A read apart from what was written. -/
theorem mbxRead_mbxWrite_apart (n off m o len : Nat) (b : Bytes) (s : State)
    (h : mbxAddr m o + len ≤ mbxAddr n off ∨ mbxAddr n off + b.length ≤ mbxAddr m o) :
    mbxRead (mbxWrite n off b s) m o len = mbxRead s m o len := by
  refine getBytes_congr (fun i hi => ?_)
  rw [tget_mbxWrite, if_neg (by omega)]

/-- A read below the response data. -/
theorem mbxRead_clearResponse (n m o len : Nat) (s : State)
    (h : mbxAddr m o + len ≤ mbxAddr n 0x840 ∨ mbxAddr n 0x1000 ≤ mbxAddr m o) :
    mbxRead (clearResponse n s) m o len = mbxRead s m o len := by
  refine getBytes_congr (fun i hi => ?_)
  rw [tget_clearResponse, if_neg (by omega)]

/-- A field read back after it was written. -/
theorem mbxField_mbxWrite (n off len v : Nat) (s : State) :
    mbxField (mbxWrite n off (leBytes len v) s) n off len = v % 256 ^ len := by
  have h := mbxRead_mbxWrite n off (leBytes len v) s
  rw [leBytes_length] at h
  unfold mbxField
  rw [h, le_leBytes]

/-- A field apart from what was written. -/
theorem mbxField_mbxWrite_apart (n off m o len : Nat) (b : Bytes) (s : State)
    (h : mbxAddr m o + len ≤ mbxAddr n off ∨ mbxAddr n off + b.length ≤ mbxAddr m o) :
    mbxField (mbxWrite n off b s) m o len = mbxField s m o len := by
  unfold mbxField
  rw [mbxRead_mbxWrite_apart _ _ _ _ _ _ _ h]

/-! ### Bits -/

theorem bit_eq_testBit (w i : Nat) : bit w i = w.testBit i := by
  unfold bit
  rw [Nat.testBit_eq_decide_div_mod_eq]
  exact Bool.beq_eq_decide_eq _ _

end Sys2Proof.Machine
end

