-- ==== Sys2Proof/Laws/Frames.lean ====
section
/-! SUPPORT. Laws of frames on a client port: a frame check sequence that is appended checks, and an SGMII rate of
one repeats nothing. -/

namespace Sys2Proof.Laws

open Sys2Proof.Machine

@[simp] theorem fcsBytes_length (b : Bytes) : (fcsBytes b).length = 4 := by simp [fcsBytes]

/-- A frame closed with its frame check sequence passes the check. -/
@[simp] theorem fcsOk_append_fcsBytes (b : Bytes) : fcsOk (b ++ fcsBytes b) = true := by simp [fcsOk]

@[simp] theorem unrepeat_one (b : Bytes) : unrepeat 1 b = b := by
  refine List.ext_getElem (by simp [unrepeat]) fun i h _ => ?_
  simp [unrepeat] at h ⊢
  simp [h]

end Sys2Proof.Laws
end

