-- ==== Sys2Proof/Laws/Mailbox.lean ====
section
/-! SUPPORT. What taking a command up comes to, once for every command: its own run decides, when the
command is accepted. -/

namespace Sys2Proof.Machine

open Sys2Proof

/-! ### Accepted commands -/

/-- What acceptance says, part by part. -/
theorem accepted_parts {c : CmdSpec} {n : Nat} {s : State} (h : accepted c n s = true) :
    ∃ b, frontBell s n = some b ∧ mbxField s n 4 2 = c.opcode ∧ seqNew s n = true
      ∧ stepThree (some c) n (mbxField s n 6 2) (cmdArgs s n) (popBell s) = none
      ∧ stepFour c (mbxField s n 8 4) (cmdArgs s n) (popBell s) = none
      ∧ c.legal (popBell s) (cmdArgs s n) = true ∧ s.now ≤ deadlineAt c n b s
      ∧ (underWay n s).now ≤ deadlineAt c n b s ∧ busyWith c (underWay n s) = none := by
  unfold accepted at h
  cases hb : frontBell s n with
  | none => rw [hb] at h; exact absurd h (by simp)
  | some b =>
    rw [hb] at h
    simp only [Bool.and_eq_true, decide_eq_true_iff, Option.isNone_iff_eq_none] at h
    obtain ⟨⟨⟨⟨⟨⟨⟨h1, h2⟩, h3⟩, h4⟩, h5⟩, h6⟩, h7⟩, h8⟩ := h
    exact ⟨b, rfl, h1, h2, h3, h4, h5, h6, h7, h8⟩

/-- An accepted command reaches its own run, on the state without its ring. -/
theorem takeUp_accepted {c : CmdSpec} {n : Nat} {s : State} (h : accepted c n s = true) :
    ∃ b, frontBell s n = some b ∧
      takeUp c n s = runCommand c n (cmdSeq s n) (cmdArgs s n) (deadlineAt c n b s) .run (popBell s) := by
  obtain ⟨b, hb, h1, h2, h3, h4, h5, h6, _, _⟩ := accepted_parts h
  · refine ⟨b, hb, ?_⟩
    unfold takeUp
    rw [hb]
    simp only [h1, if_true]
    unfold seqNew at h2
    rw [Bool.and_eq_true] at h2
    obtain ⟨hz, hd⟩ := h2
    have hz : cmdSeq s n ≠ 0 := by simpa using hz
    unfold judge
    simp only []
    rw [show BitVec.ofNat 32 (mbxField (popBell s) n 0 4) = cmdSeq s n from rfl, if_neg hz]
    have e4 : mbxRead (popBell s) n 64 (min (mbxField (popBell s) n 6 2) 1984) = cmdArgs s n := rfl
    have e5 : mbxField (popBell s) n 6 2 = mbxField s n 6 2 := rfl
    have e6 : mbxField (popBell s) n 8 4 = mbxField s n 8 4 := rfl
    have e7 : lastSeq (popBell s) n = lastSeq s n := rfl
    rw [e4, e5, e6, e7]
    have last : (if mbxField s n 8 4 = 0 then c.deadline else mbxField s n 8 4)
        = (if mbxField s n 8 4 = 0 then c.deadline else mbxField s n 8 4) := rfl
    have tail : (match stepThree (some c) n (mbxField s n 6 2) (cmdArgs s n) (popBell s), some c with
        | some off, _ => finish n (cmdSeq s n) (mbxField (popBell s) n 4 2) (cmdArgs s n) true stFormat
            false false (leBytes 4 off) (rejectCommand 3 n (popBell s))
        | none, none => popBell s
        | none, some c =>
          match stepFour c (mbxField s n 8 4) (cmdArgs s n) (popBell s) with
          | some (st, off) => finish n (cmdSeq s n) (mbxField (popBell s) n 4 2) (cmdArgs s n) true st
              false false (leBytes 4 off) (rejectCommand 4 n (popBell s))
          | none =>
            if (!c.legal (popBell s) (cmdArgs s n)) = true then
              finish n (cmdSeq s n) (mbxField (popBell s) n 4 2) (cmdArgs s n) false
                (if (popBell s).dev.state = .safe then stSafe else stState) false false
                (leBytes 4 (stateWord (popBell s))) (rejectCommand 5 n (popBell s))
            else runCommand c n (cmdSeq s n) (cmdArgs s n)
              (b.at_ + us (if mbxField s n 8 4 = 0 then c.deadline else mbxField s n 8 4))
              ((none : Option Ending).getD
                (if b.at_ + us (if mbxField s n 8 4 = 0 then c.deadline else mbxField s n 8 4)
                  < (popBell s).now then .early else .run)) (popBell s))
        = runCommand c n (cmdSeq s n) (cmdArgs s n) (deadlineAt c n b s) .run (popBell s) := by
      rw [h3]
      simp only [h4, h5, Bool.not_true, Bool.false_eq_true, if_false]
      have hn : ¬ deadlineAt c n b s < (popBell s).now := Nat.not_lt.mpr h6
      unfold deadlineAt at hn ⊢
      rw [if_neg hn]
      rfl
    cases hl : lastSeq s n with
    | none =>
      simp only []
      rw [if_neg (by decide), if_neg (by decide)]
      exact tail
    | some l =>
      rw [hl] at hd
      simp only [Bool.and_eq_true, decide_eq_true_iff] at hd
      simp only []
      rw [if_neg (by omega), if_neg (by omega)]
      exact tail

/-- A command that is not late after its wakes and finds no other in its way comes to its own run. -/
theorem runCommand_run (c : CmdSpec) (n : Nat) (q : Word32) (a : Bytes) (l : Nat) (s : State)
    (h : (beginCommand n s).now ≤ l) (g : busyWith c (beginCommand n s) = none) :
    runCommand c n q a l .run s = endRan c n q a l false (c.run n a (beginCommand n s)) := by
  unfold runCommand
  generalize beginCommand n s = u at h g ⊢
  have e : finalEnding c a l .run u = .run := if_neg (Nat.not_lt.mpr h)
  dsimp only
  rw [e]
  dsimp only
  rw [g]

/-- The run of an accepted command is its own, its deadline met when its wakes are over. -/
theorem runCommand_accepted {c : CmdSpec} {n : Nat} {s : State} (h : accepted c n s = true) :
    ∃ b, frontBell s n = some b ∧ takeUp c n s
      = endRan c n (cmdSeq s n) (cmdArgs s n) (deadlineAt c n b s) false (c.run n (cmdArgs s n) (underWay n s)) := by
  obtain ⟨b, hb, g⟩ := takeUp_accepted h
  obtain ⟨b', hb', _, _, _, _, _, _, h7, h8⟩ := accepted_parts h
  have e : b = b' := Option.some.inj (hb.symm.trans hb')
  subst e
  exact ⟨b, hb, g.trans (runCommand_run c n _ _ _ _ h7 h8)⟩

/-- An accepted command that is final at once is answered. -/
theorem takeUp_final {c : CmdSpec} {n : Nat} {s t : State} {st : Nat} {d : Bytes}
    (h : accepted c n s = true) (e : c.run n (cmdArgs s n) (underWay n s) = .final st d t) :
    takeUp c n s = answered c n s st d t := by
  obtain ⟨b, _, g⟩ := runCommand_accepted h
  rw [g, e]
  rfl

/-- An accepted command that is not final at once waits. -/
theorem takeUp_waits {c : CmdSpec} {n : Nat} {s t : State} {x : Bool}
    (h : accepted c n s = true) (e : c.run n (cmdArgs s n) (underWay n s) = .waits x t) :
    takeUp c n s = heldBack c n s x t := by
  obtain ⟨b, hb, g⟩ := runCommand_accepted h
  rw [g, e]
  unfold heldBack
  rw [hb]
  rfl

/-- An accepted command that resets the device is never final. -/
theorem takeUp_never {c : CmdSpec} {n : Nat} {s t : State}
    (h : accepted c n s = true) (e : c.run n (cmdArgs s n) (underWay n s) = .never t) :
    takeUp c n s = t := by
  obtain ⟨b, _, g⟩ := runCommand_accepted h
  rw [g, e]
  rfl

end Sys2Proof.Machine
end

