-- ==== Sys2Proof/Laws/State.lean ====
section
/-! SUPPORT. What the named updates leave alone, one lemma for each field of the state, and what is read
of a unit after it was changed. -/

namespace Sys2Proof.Machine

open Sys2Proof

/-! ### Fields -/

@[simp] theorem bump_pending (k n : Nat) (s : State) : (bump k n s).pending = s.pending := rfl
@[simp] theorem bump_now (k n : Nat) (s : State) : (bump k n s).now = s.now := rfl
@[simp] theorem bump_fresh (k n : Nat) (s : State) : (bump k n s).fresh = s.fresh := rfl
@[simp] theorem bump_out (k n : Nat) (s : State) : (bump k n s).out = s.out := rfl
@[simp] theorem bump_dev (k n : Nat) (s : State) : (bump k n s).dev = s.dev := rfl
@[simp] theorem bump_hif (k n : Nat) (s : State) : (bump k n s).hif = s.hif := rfl
@[simp] theorem bump_fib (k n : Nat) (s : State) : (bump k n s).fib = s.fib := rfl
@[simp] theorem bump_up (k n : Nat) (s : State) : (bump k n s).up = s.up := rfl
@[simp] theorem bump_cls (k n : Nat) (s : State) : (bump k n s).cls = s.cls := rfl
@[simp] theorem bump_tab (k n : Nat) (s : State) : (bump k n s).tab = s.tab := rfl
@[simp] theorem bump_tm (k n : Nat) (s : State) : (bump k n s).tm = s.tm := rfl
@[simp] theorem bump_cip (k n : Nat) (s : State) : (bump k n s).cip = s.cip := rfl
@[simp] theorem bump_time (k n : Nat) (s : State) : (bump k n s).time = s.time := rfl
@[simp] theorem bump_prt (k n : Nat) (s : State) : (bump k n s).prt = s.prt := rfl
@[simp] theorem bump_lan (k n : Nat) (s : State) : (bump k n s).lan = s.lan := rfl
@[simp] theorem bump_pow (k n : Nat) (s : State) : (bump k n s).pow = s.pow := rfl
@[simp] theorem bump_mem (k n : Nat) (s : State) : (bump k n s).mem = s.mem := rfl
@[simp] theorem bump_obs (k n : Nat) (s : State) : (bump k n s).obs = s.obs := rfl
@[simp] theorem bump_mnt (k n : Nat) (s : State) : (bump k n s).mnt = s.mnt := rfl
@[simp] theorem bump_sup (k n : Nat) (s : State) : (bump k n s).sup = s.sup := rfl
@[simp] theorem bump_brg (k n : Nat) (s : State) : (bump k n s).brg = s.brg := rfl

@[simp] theorem setCount_pending (k n : Nat) (s : State) : (setCount k n s).pending = s.pending := rfl
@[simp] theorem setCount_now (k n : Nat) (s : State) : (setCount k n s).now = s.now := rfl
@[simp] theorem setCount_fresh (k n : Nat) (s : State) : (setCount k n s).fresh = s.fresh := rfl
@[simp] theorem setCount_out (k n : Nat) (s : State) : (setCount k n s).out = s.out := rfl
@[simp] theorem setCount_dev (k n : Nat) (s : State) : (setCount k n s).dev = s.dev := rfl
@[simp] theorem setCount_hif (k n : Nat) (s : State) : (setCount k n s).hif = s.hif := rfl
@[simp] theorem setCount_fib (k n : Nat) (s : State) : (setCount k n s).fib = s.fib := rfl
@[simp] theorem setCount_up (k n : Nat) (s : State) : (setCount k n s).up = s.up := rfl
@[simp] theorem setCount_cls (k n : Nat) (s : State) : (setCount k n s).cls = s.cls := rfl
@[simp] theorem setCount_tab (k n : Nat) (s : State) : (setCount k n s).tab = s.tab := rfl
@[simp] theorem setCount_tm (k n : Nat) (s : State) : (setCount k n s).tm = s.tm := rfl
@[simp] theorem setCount_cip (k n : Nat) (s : State) : (setCount k n s).cip = s.cip := rfl
@[simp] theorem setCount_time (k n : Nat) (s : State) : (setCount k n s).time = s.time := rfl
@[simp] theorem setCount_prt (k n : Nat) (s : State) : (setCount k n s).prt = s.prt := rfl
@[simp] theorem setCount_lan (k n : Nat) (s : State) : (setCount k n s).lan = s.lan := rfl
@[simp] theorem setCount_pow (k n : Nat) (s : State) : (setCount k n s).pow = s.pow := rfl
@[simp] theorem setCount_mem (k n : Nat) (s : State) : (setCount k n s).mem = s.mem := rfl
@[simp] theorem setCount_obs (k n : Nat) (s : State) : (setCount k n s).obs = s.obs := rfl
@[simp] theorem setCount_mnt (k n : Nat) (s : State) : (setCount k n s).mnt = s.mnt := rfl
@[simp] theorem setCount_sup (k n : Nat) (s : State) : (setCount k n s).sup = s.sup := rfl
@[simp] theorem setCount_brg (k n : Nat) (s : State) : (setCount k n s).brg = s.brg := rfl

@[simp] theorem emit_pending (o : Out) (s : State) : (emit o s).pending = s.pending := rfl
@[simp] theorem emit_now (o : Out) (s : State) : (emit o s).now = s.now := rfl
@[simp] theorem emit_fresh (o : Out) (s : State) : (emit o s).fresh = s.fresh := rfl
@[simp] theorem emit_cnt (o : Out) (s : State) : (emit o s).cnt = s.cnt := rfl
@[simp] theorem emit_dev (o : Out) (s : State) : (emit o s).dev = s.dev := rfl
@[simp] theorem emit_hif (o : Out) (s : State) : (emit o s).hif = s.hif := rfl
@[simp] theorem emit_fib (o : Out) (s : State) : (emit o s).fib = s.fib := rfl
@[simp] theorem emit_up (o : Out) (s : State) : (emit o s).up = s.up := rfl
@[simp] theorem emit_cls (o : Out) (s : State) : (emit o s).cls = s.cls := rfl
@[simp] theorem emit_tab (o : Out) (s : State) : (emit o s).tab = s.tab := rfl
@[simp] theorem emit_tm (o : Out) (s : State) : (emit o s).tm = s.tm := rfl
@[simp] theorem emit_cip (o : Out) (s : State) : (emit o s).cip = s.cip := rfl
@[simp] theorem emit_time (o : Out) (s : State) : (emit o s).time = s.time := rfl
@[simp] theorem emit_prt (o : Out) (s : State) : (emit o s).prt = s.prt := rfl
@[simp] theorem emit_lan (o : Out) (s : State) : (emit o s).lan = s.lan := rfl
@[simp] theorem emit_pow (o : Out) (s : State) : (emit o s).pow = s.pow := rfl
@[simp] theorem emit_mem (o : Out) (s : State) : (emit o s).mem = s.mem := rfl
@[simp] theorem emit_obs (o : Out) (s : State) : (emit o s).obs = s.obs := rfl
@[simp] theorem emit_mnt (o : Out) (s : State) : (emit o s).mnt = s.mnt := rfl
@[simp] theorem emit_sup (o : Out) (s : State) : (emit o s).sup = s.sup := rfl
@[simp] theorem emit_brg (o : Out) (s : State) : (emit o s).brg = s.brg := rfl

@[simp] theorem setVec_pending (v : Nat) (x : MsixVec) (s : State) : (setVec v x s).pending = s.pending := rfl
@[simp] theorem setVec_now (v : Nat) (x : MsixVec) (s : State) : (setVec v x s).now = s.now := rfl
@[simp] theorem setVec_fresh (v : Nat) (x : MsixVec) (s : State) : (setVec v x s).fresh = s.fresh := rfl
@[simp] theorem setVec_out (v : Nat) (x : MsixVec) (s : State) : (setVec v x s).out = s.out := rfl
@[simp] theorem setVec_cnt (v : Nat) (x : MsixVec) (s : State) : (setVec v x s).cnt = s.cnt := rfl
@[simp] theorem setVec_dev (v : Nat) (x : MsixVec) (s : State) : (setVec v x s).dev = s.dev := rfl
@[simp] theorem setVec_fib (v : Nat) (x : MsixVec) (s : State) : (setVec v x s).fib = s.fib := rfl
@[simp] theorem setVec_up (v : Nat) (x : MsixVec) (s : State) : (setVec v x s).up = s.up := rfl
@[simp] theorem setVec_cls (v : Nat) (x : MsixVec) (s : State) : (setVec v x s).cls = s.cls := rfl
@[simp] theorem setVec_tab (v : Nat) (x : MsixVec) (s : State) : (setVec v x s).tab = s.tab := rfl
@[simp] theorem setVec_tm (v : Nat) (x : MsixVec) (s : State) : (setVec v x s).tm = s.tm := rfl
@[simp] theorem setVec_cip (v : Nat) (x : MsixVec) (s : State) : (setVec v x s).cip = s.cip := rfl
@[simp] theorem setVec_time (v : Nat) (x : MsixVec) (s : State) : (setVec v x s).time = s.time := rfl
@[simp] theorem setVec_prt (v : Nat) (x : MsixVec) (s : State) : (setVec v x s).prt = s.prt := rfl
@[simp] theorem setVec_lan (v : Nat) (x : MsixVec) (s : State) : (setVec v x s).lan = s.lan := rfl
@[simp] theorem setVec_pow (v : Nat) (x : MsixVec) (s : State) : (setVec v x s).pow = s.pow := rfl
@[simp] theorem setVec_mem (v : Nat) (x : MsixVec) (s : State) : (setVec v x s).mem = s.mem := rfl
@[simp] theorem setVec_obs (v : Nat) (x : MsixVec) (s : State) : (setVec v x s).obs = s.obs := rfl
@[simp] theorem setVec_mnt (v : Nat) (x : MsixVec) (s : State) : (setVec v x s).mnt = s.mnt := rfl
@[simp] theorem setVec_sup (v : Nat) (x : MsixVec) (s : State) : (setVec v x s).sup = s.sup := rfl
@[simp] theorem setVec_brg (v : Nat) (x : MsixVec) (s : State) : (setVec v x s).brg = s.brg := rfl

@[simp] theorem setCause_pending (i : Nat) (b : Bool) (s : State) : (setCause i b s).pending = s.pending := rfl
@[simp] theorem setCause_now (i : Nat) (b : Bool) (s : State) : (setCause i b s).now = s.now := rfl
@[simp] theorem setCause_fresh (i : Nat) (b : Bool) (s : State) : (setCause i b s).fresh = s.fresh := rfl
@[simp] theorem setCause_out (i : Nat) (b : Bool) (s : State) : (setCause i b s).out = s.out := rfl
@[simp] theorem setCause_cnt (i : Nat) (b : Bool) (s : State) : (setCause i b s).cnt = s.cnt := rfl
@[simp] theorem setCause_hif (i : Nat) (b : Bool) (s : State) : (setCause i b s).hif = s.hif := rfl
@[simp] theorem setCause_fib (i : Nat) (b : Bool) (s : State) : (setCause i b s).fib = s.fib := rfl
@[simp] theorem setCause_up (i : Nat) (b : Bool) (s : State) : (setCause i b s).up = s.up := rfl
@[simp] theorem setCause_cls (i : Nat) (b : Bool) (s : State) : (setCause i b s).cls = s.cls := rfl
@[simp] theorem setCause_tab (i : Nat) (b : Bool) (s : State) : (setCause i b s).tab = s.tab := rfl
@[simp] theorem setCause_tm (i : Nat) (b : Bool) (s : State) : (setCause i b s).tm = s.tm := rfl
@[simp] theorem setCause_cip (i : Nat) (b : Bool) (s : State) : (setCause i b s).cip = s.cip := rfl
@[simp] theorem setCause_time (i : Nat) (b : Bool) (s : State) : (setCause i b s).time = s.time := rfl
@[simp] theorem setCause_prt (i : Nat) (b : Bool) (s : State) : (setCause i b s).prt = s.prt := rfl
@[simp] theorem setCause_lan (i : Nat) (b : Bool) (s : State) : (setCause i b s).lan = s.lan := rfl
@[simp] theorem setCause_pow (i : Nat) (b : Bool) (s : State) : (setCause i b s).pow = s.pow := rfl
@[simp] theorem setCause_mem (i : Nat) (b : Bool) (s : State) : (setCause i b s).mem = s.mem := rfl
@[simp] theorem setCause_obs (i : Nat) (b : Bool) (s : State) : (setCause i b s).obs = s.obs := rfl
@[simp] theorem setCause_mnt (i : Nat) (b : Bool) (s : State) : (setCause i b s).mnt = s.mnt := rfl
@[simp] theorem setCause_sup (i : Nat) (b : Bool) (s : State) : (setCause i b s).sup = s.sup := rfl
@[simp] theorem setCause_brg (i : Nat) (b : Bool) (s : State) : (setCause i b s).brg = s.brg := rfl

@[simp] theorem popBell_pending (s : State) : (popBell s).pending = s.pending := rfl
@[simp] theorem popBell_now (s : State) : (popBell s).now = s.now := rfl
@[simp] theorem popBell_fresh (s : State) : (popBell s).fresh = s.fresh := rfl
@[simp] theorem popBell_out (s : State) : (popBell s).out = s.out := rfl
@[simp] theorem popBell_cnt (s : State) : (popBell s).cnt = s.cnt := rfl
@[simp] theorem popBell_dev (s : State) : (popBell s).dev = s.dev := rfl
@[simp] theorem popBell_fib (s : State) : (popBell s).fib = s.fib := rfl
@[simp] theorem popBell_up (s : State) : (popBell s).up = s.up := rfl
@[simp] theorem popBell_cls (s : State) : (popBell s).cls = s.cls := rfl
@[simp] theorem popBell_tab (s : State) : (popBell s).tab = s.tab := rfl
@[simp] theorem popBell_tm (s : State) : (popBell s).tm = s.tm := rfl
@[simp] theorem popBell_cip (s : State) : (popBell s).cip = s.cip := rfl
@[simp] theorem popBell_time (s : State) : (popBell s).time = s.time := rfl
@[simp] theorem popBell_prt (s : State) : (popBell s).prt = s.prt := rfl
@[simp] theorem popBell_lan (s : State) : (popBell s).lan = s.lan := rfl
@[simp] theorem popBell_pow (s : State) : (popBell s).pow = s.pow := rfl
@[simp] theorem popBell_mem (s : State) : (popBell s).mem = s.mem := rfl
@[simp] theorem popBell_obs (s : State) : (popBell s).obs = s.obs := rfl
@[simp] theorem popBell_mnt (s : State) : (popBell s).mnt = s.mnt := rfl
@[simp] theorem popBell_sup (s : State) : (popBell s).sup = s.sup := rfl
@[simp] theorem popBell_brg (s : State) : (popBell s).brg = s.brg := rfl

@[simp] theorem mbxWrite_pending (n off : Nat) (b : Bytes) (s : State) :
    (mbxWrite n off b s).pending = s.pending := rfl
@[simp] theorem mbxWrite_now (n off : Nat) (b : Bytes) (s : State) : (mbxWrite n off b s).now = s.now := rfl
@[simp] theorem mbxWrite_fresh (n off : Nat) (b : Bytes) (s : State) : (mbxWrite n off b s).fresh = s.fresh := rfl
@[simp] theorem mbxWrite_out (n off : Nat) (b : Bytes) (s : State) : (mbxWrite n off b s).out = s.out := rfl
@[simp] theorem mbxWrite_cnt (n off : Nat) (b : Bytes) (s : State) : (mbxWrite n off b s).cnt = s.cnt := rfl
@[simp] theorem mbxWrite_dev (n off : Nat) (b : Bytes) (s : State) : (mbxWrite n off b s).dev = s.dev := rfl
@[simp] theorem mbxWrite_fib (n off : Nat) (b : Bytes) (s : State) : (mbxWrite n off b s).fib = s.fib := rfl
@[simp] theorem mbxWrite_up (n off : Nat) (b : Bytes) (s : State) : (mbxWrite n off b s).up = s.up := rfl
@[simp] theorem mbxWrite_cls (n off : Nat) (b : Bytes) (s : State) : (mbxWrite n off b s).cls = s.cls := rfl
@[simp] theorem mbxWrite_tab (n off : Nat) (b : Bytes) (s : State) : (mbxWrite n off b s).tab = s.tab := rfl
@[simp] theorem mbxWrite_tm (n off : Nat) (b : Bytes) (s : State) : (mbxWrite n off b s).tm = s.tm := rfl
@[simp] theorem mbxWrite_cip (n off : Nat) (b : Bytes) (s : State) : (mbxWrite n off b s).cip = s.cip := rfl
@[simp] theorem mbxWrite_time (n off : Nat) (b : Bytes) (s : State) : (mbxWrite n off b s).time = s.time := rfl
@[simp] theorem mbxWrite_prt (n off : Nat) (b : Bytes) (s : State) : (mbxWrite n off b s).prt = s.prt := rfl
@[simp] theorem mbxWrite_lan (n off : Nat) (b : Bytes) (s : State) : (mbxWrite n off b s).lan = s.lan := rfl
@[simp] theorem mbxWrite_pow (n off : Nat) (b : Bytes) (s : State) : (mbxWrite n off b s).pow = s.pow := rfl
@[simp] theorem mbxWrite_mem (n off : Nat) (b : Bytes) (s : State) : (mbxWrite n off b s).mem = s.mem := rfl
@[simp] theorem mbxWrite_obs (n off : Nat) (b : Bytes) (s : State) : (mbxWrite n off b s).obs = s.obs := rfl
@[simp] theorem mbxWrite_mnt (n off : Nat) (b : Bytes) (s : State) : (mbxWrite n off b s).mnt = s.mnt := rfl
@[simp] theorem mbxWrite_sup (n off : Nat) (b : Bytes) (s : State) : (mbxWrite n off b s).sup = s.sup := rfl
@[simp] theorem mbxWrite_brg (n off : Nat) (b : Bytes) (s : State) : (mbxWrite n off b s).brg = s.brg := rfl

@[simp] theorem clearResponse_pending (n : Nat) (s : State) : (clearResponse n s).pending = s.pending := rfl
@[simp] theorem clearResponse_now (n : Nat) (s : State) : (clearResponse n s).now = s.now := rfl
@[simp] theorem clearResponse_fresh (n : Nat) (s : State) : (clearResponse n s).fresh = s.fresh := rfl
@[simp] theorem clearResponse_out (n : Nat) (s : State) : (clearResponse n s).out = s.out := rfl
@[simp] theorem clearResponse_cnt (n : Nat) (s : State) : (clearResponse n s).cnt = s.cnt := rfl
@[simp] theorem clearResponse_dev (n : Nat) (s : State) : (clearResponse n s).dev = s.dev := rfl
@[simp] theorem clearResponse_fib (n : Nat) (s : State) : (clearResponse n s).fib = s.fib := rfl
@[simp] theorem clearResponse_up (n : Nat) (s : State) : (clearResponse n s).up = s.up := rfl
@[simp] theorem clearResponse_cls (n : Nat) (s : State) : (clearResponse n s).cls = s.cls := rfl
@[simp] theorem clearResponse_tab (n : Nat) (s : State) : (clearResponse n s).tab = s.tab := rfl
@[simp] theorem clearResponse_tm (n : Nat) (s : State) : (clearResponse n s).tm = s.tm := rfl
@[simp] theorem clearResponse_cip (n : Nat) (s : State) : (clearResponse n s).cip = s.cip := rfl
@[simp] theorem clearResponse_time (n : Nat) (s : State) : (clearResponse n s).time = s.time := rfl
@[simp] theorem clearResponse_prt (n : Nat) (s : State) : (clearResponse n s).prt = s.prt := rfl
@[simp] theorem clearResponse_lan (n : Nat) (s : State) : (clearResponse n s).lan = s.lan := rfl
@[simp] theorem clearResponse_pow (n : Nat) (s : State) : (clearResponse n s).pow = s.pow := rfl
@[simp] theorem clearResponse_mem (n : Nat) (s : State) : (clearResponse n s).mem = s.mem := rfl
@[simp] theorem clearResponse_obs (n : Nat) (s : State) : (clearResponse n s).obs = s.obs := rfl
@[simp] theorem clearResponse_mnt (n : Nat) (s : State) : (clearResponse n s).mnt = s.mnt := rfl
@[simp] theorem clearResponse_sup (n : Nat) (s : State) : (clearResponse n s).sup = s.sup := rfl
@[simp] theorem clearResponse_brg (n : Nat) (s : State) : (clearResponse n s).brg = s.brg := rfl

@[simp] theorem modRx_pending (ch : Nat) (f : RxChan → RxChan) (s : State) : (modRx ch f s).pending = s.pending := rfl
@[simp] theorem modRx_now (ch : Nat) (f : RxChan → RxChan) (s : State) : (modRx ch f s).now = s.now := rfl
@[simp] theorem modRx_fresh (ch : Nat) (f : RxChan → RxChan) (s : State) : (modRx ch f s).fresh = s.fresh := rfl
@[simp] theorem modRx_out (ch : Nat) (f : RxChan → RxChan) (s : State) : (modRx ch f s).out = s.out := rfl
@[simp] theorem modRx_cnt (ch : Nat) (f : RxChan → RxChan) (s : State) : (modRx ch f s).cnt = s.cnt := rfl
@[simp] theorem modRx_dev (ch : Nat) (f : RxChan → RxChan) (s : State) : (modRx ch f s).dev = s.dev := rfl
@[simp] theorem modRx_hif (ch : Nat) (f : RxChan → RxChan) (s : State) : (modRx ch f s).hif = s.hif := rfl
@[simp] theorem modRx_up (ch : Nat) (f : RxChan → RxChan) (s : State) : (modRx ch f s).up = s.up := rfl
@[simp] theorem modRx_cls (ch : Nat) (f : RxChan → RxChan) (s : State) : (modRx ch f s).cls = s.cls := rfl
@[simp] theorem modRx_tab (ch : Nat) (f : RxChan → RxChan) (s : State) : (modRx ch f s).tab = s.tab := rfl
@[simp] theorem modRx_tm (ch : Nat) (f : RxChan → RxChan) (s : State) : (modRx ch f s).tm = s.tm := rfl
@[simp] theorem modRx_cip (ch : Nat) (f : RxChan → RxChan) (s : State) : (modRx ch f s).cip = s.cip := rfl
@[simp] theorem modRx_time (ch : Nat) (f : RxChan → RxChan) (s : State) : (modRx ch f s).time = s.time := rfl
@[simp] theorem modRx_prt (ch : Nat) (f : RxChan → RxChan) (s : State) : (modRx ch f s).prt = s.prt := rfl
@[simp] theorem modRx_lan (ch : Nat) (f : RxChan → RxChan) (s : State) : (modRx ch f s).lan = s.lan := rfl
@[simp] theorem modRx_pow (ch : Nat) (f : RxChan → RxChan) (s : State) : (modRx ch f s).pow = s.pow := rfl
@[simp] theorem modRx_mem (ch : Nat) (f : RxChan → RxChan) (s : State) : (modRx ch f s).mem = s.mem := rfl
@[simp] theorem modRx_obs (ch : Nat) (f : RxChan → RxChan) (s : State) : (modRx ch f s).obs = s.obs := rfl
@[simp] theorem modRx_mnt (ch : Nat) (f : RxChan → RxChan) (s : State) : (modRx ch f s).mnt = s.mnt := rfl
@[simp] theorem modRx_sup (ch : Nat) (f : RxChan → RxChan) (s : State) : (modRx ch f s).sup = s.sup := rfl
@[simp] theorem modRx_brg (ch : Nat) (f : RxChan → RxChan) (s : State) : (modRx ch f s).brg = s.brg := rfl

@[simp] theorem modBond_pending (f : Bond → Bond) (s : State) : (modBond f s).pending = s.pending := rfl
@[simp] theorem modBond_now (f : Bond → Bond) (s : State) : (modBond f s).now = s.now := rfl
@[simp] theorem modBond_fresh (f : Bond → Bond) (s : State) : (modBond f s).fresh = s.fresh := rfl
@[simp] theorem modBond_out (f : Bond → Bond) (s : State) : (modBond f s).out = s.out := rfl
@[simp] theorem modBond_cnt (f : Bond → Bond) (s : State) : (modBond f s).cnt = s.cnt := rfl
@[simp] theorem modBond_dev (f : Bond → Bond) (s : State) : (modBond f s).dev = s.dev := rfl
@[simp] theorem modBond_hif (f : Bond → Bond) (s : State) : (modBond f s).hif = s.hif := rfl
@[simp] theorem modBond_up (f : Bond → Bond) (s : State) : (modBond f s).up = s.up := rfl
@[simp] theorem modBond_cls (f : Bond → Bond) (s : State) : (modBond f s).cls = s.cls := rfl
@[simp] theorem modBond_tab (f : Bond → Bond) (s : State) : (modBond f s).tab = s.tab := rfl
@[simp] theorem modBond_tm (f : Bond → Bond) (s : State) : (modBond f s).tm = s.tm := rfl
@[simp] theorem modBond_cip (f : Bond → Bond) (s : State) : (modBond f s).cip = s.cip := rfl
@[simp] theorem modBond_time (f : Bond → Bond) (s : State) : (modBond f s).time = s.time := rfl
@[simp] theorem modBond_prt (f : Bond → Bond) (s : State) : (modBond f s).prt = s.prt := rfl
@[simp] theorem modBond_lan (f : Bond → Bond) (s : State) : (modBond f s).lan = s.lan := rfl
@[simp] theorem modBond_pow (f : Bond → Bond) (s : State) : (modBond f s).pow = s.pow := rfl
@[simp] theorem modBond_mem (f : Bond → Bond) (s : State) : (modBond f s).mem = s.mem := rfl
@[simp] theorem modBond_obs (f : Bond → Bond) (s : State) : (modBond f s).obs = s.obs := rfl
@[simp] theorem modBond_mnt (f : Bond → Bond) (s : State) : (modBond f s).mnt = s.mnt := rfl
@[simp] theorem modBond_sup (f : Bond → Bond) (s : State) : (modBond f s).sup = s.sup := rfl
@[simp] theorem modBond_brg (f : Bond → Bond) (s : State) : (modBond f s).brg = s.brg := rfl

@[simp] theorem modAct_pending (ch : Nat) (f : ActChan → ActChan) (s : State) :
    (modAct ch f s).pending = s.pending := rfl
@[simp] theorem modAct_now (ch : Nat) (f : ActChan → ActChan) (s : State) : (modAct ch f s).now = s.now := rfl
@[simp] theorem modAct_fresh (ch : Nat) (f : ActChan → ActChan) (s : State) : (modAct ch f s).fresh = s.fresh := rfl
@[simp] theorem modAct_out (ch : Nat) (f : ActChan → ActChan) (s : State) : (modAct ch f s).out = s.out := rfl
@[simp] theorem modAct_cnt (ch : Nat) (f : ActChan → ActChan) (s : State) : (modAct ch f s).cnt = s.cnt := rfl
@[simp] theorem modAct_dev (ch : Nat) (f : ActChan → ActChan) (s : State) : (modAct ch f s).dev = s.dev := rfl
@[simp] theorem modAct_hif (ch : Nat) (f : ActChan → ActChan) (s : State) : (modAct ch f s).hif = s.hif := rfl
@[simp] theorem modAct_up (ch : Nat) (f : ActChan → ActChan) (s : State) : (modAct ch f s).up = s.up := rfl
@[simp] theorem modAct_cls (ch : Nat) (f : ActChan → ActChan) (s : State) : (modAct ch f s).cls = s.cls := rfl
@[simp] theorem modAct_tab (ch : Nat) (f : ActChan → ActChan) (s : State) : (modAct ch f s).tab = s.tab := rfl
@[simp] theorem modAct_tm (ch : Nat) (f : ActChan → ActChan) (s : State) : (modAct ch f s).tm = s.tm := rfl
@[simp] theorem modAct_cip (ch : Nat) (f : ActChan → ActChan) (s : State) : (modAct ch f s).cip = s.cip := rfl
@[simp] theorem modAct_time (ch : Nat) (f : ActChan → ActChan) (s : State) : (modAct ch f s).time = s.time := rfl
@[simp] theorem modAct_prt (ch : Nat) (f : ActChan → ActChan) (s : State) : (modAct ch f s).prt = s.prt := rfl
@[simp] theorem modAct_lan (ch : Nat) (f : ActChan → ActChan) (s : State) : (modAct ch f s).lan = s.lan := rfl
@[simp] theorem modAct_pow (ch : Nat) (f : ActChan → ActChan) (s : State) : (modAct ch f s).pow = s.pow := rfl
@[simp] theorem modAct_mem (ch : Nat) (f : ActChan → ActChan) (s : State) : (modAct ch f s).mem = s.mem := rfl
@[simp] theorem modAct_obs (ch : Nat) (f : ActChan → ActChan) (s : State) : (modAct ch f s).obs = s.obs := rfl
@[simp] theorem modAct_mnt (ch : Nat) (f : ActChan → ActChan) (s : State) : (modAct ch f s).mnt = s.mnt := rfl
@[simp] theorem modAct_sup (ch : Nat) (f : ActChan → ActChan) (s : State) : (modAct ch f s).sup = s.sup := rfl
@[simp] theorem modAct_brg (ch : Nat) (f : ActChan → ActChan) (s : State) : (modAct ch f s).brg = s.brg := rfl

@[simp] theorem modGroup_pending (g : Nat) (f : Group → Group) (s : State) :
    (modGroup g f s).pending = s.pending := rfl
@[simp] theorem modGroup_now (g : Nat) (f : Group → Group) (s : State) : (modGroup g f s).now = s.now := rfl
@[simp] theorem modGroup_fresh (g : Nat) (f : Group → Group) (s : State) : (modGroup g f s).fresh = s.fresh := rfl
@[simp] theorem modGroup_out (g : Nat) (f : Group → Group) (s : State) : (modGroup g f s).out = s.out := rfl
@[simp] theorem modGroup_cnt (g : Nat) (f : Group → Group) (s : State) : (modGroup g f s).cnt = s.cnt := rfl
@[simp] theorem modGroup_dev (g : Nat) (f : Group → Group) (s : State) : (modGroup g f s).dev = s.dev := rfl
@[simp] theorem modGroup_hif (g : Nat) (f : Group → Group) (s : State) : (modGroup g f s).hif = s.hif := rfl
@[simp] theorem modGroup_up (g : Nat) (f : Group → Group) (s : State) : (modGroup g f s).up = s.up := rfl
@[simp] theorem modGroup_cls (g : Nat) (f : Group → Group) (s : State) : (modGroup g f s).cls = s.cls := rfl
@[simp] theorem modGroup_tab (g : Nat) (f : Group → Group) (s : State) : (modGroup g f s).tab = s.tab := rfl
@[simp] theorem modGroup_tm (g : Nat) (f : Group → Group) (s : State) : (modGroup g f s).tm = s.tm := rfl
@[simp] theorem modGroup_cip (g : Nat) (f : Group → Group) (s : State) : (modGroup g f s).cip = s.cip := rfl
@[simp] theorem modGroup_time (g : Nat) (f : Group → Group) (s : State) : (modGroup g f s).time = s.time := rfl
@[simp] theorem modGroup_prt (g : Nat) (f : Group → Group) (s : State) : (modGroup g f s).prt = s.prt := rfl
@[simp] theorem modGroup_lan (g : Nat) (f : Group → Group) (s : State) : (modGroup g f s).lan = s.lan := rfl
@[simp] theorem modGroup_pow (g : Nat) (f : Group → Group) (s : State) : (modGroup g f s).pow = s.pow := rfl
@[simp] theorem modGroup_mem (g : Nat) (f : Group → Group) (s : State) : (modGroup g f s).mem = s.mem := rfl
@[simp] theorem modGroup_obs (g : Nat) (f : Group → Group) (s : State) : (modGroup g f s).obs = s.obs := rfl
@[simp] theorem modGroup_mnt (g : Nat) (f : Group → Group) (s : State) : (modGroup g f s).mnt = s.mnt := rfl
@[simp] theorem modGroup_sup (g : Nat) (f : Group → Group) (s : State) : (modGroup g f s).sup = s.sup := rfl
@[simp] theorem modGroup_brg (g : Nat) (f : Group → Group) (s : State) : (modGroup g f s).brg = s.brg := rfl

@[simp] theorem modTx_pending (ch : Nat) (f : TxChan → TxChan) (s : State) : (modTx ch f s).pending = s.pending := rfl
@[simp] theorem modTx_now (ch : Nat) (f : TxChan → TxChan) (s : State) : (modTx ch f s).now = s.now := rfl
@[simp] theorem modTx_fresh (ch : Nat) (f : TxChan → TxChan) (s : State) : (modTx ch f s).fresh = s.fresh := rfl
@[simp] theorem modTx_out (ch : Nat) (f : TxChan → TxChan) (s : State) : (modTx ch f s).out = s.out := rfl
@[simp] theorem modTx_cnt (ch : Nat) (f : TxChan → TxChan) (s : State) : (modTx ch f s).cnt = s.cnt := rfl
@[simp] theorem modTx_dev (ch : Nat) (f : TxChan → TxChan) (s : State) : (modTx ch f s).dev = s.dev := rfl
@[simp] theorem modTx_hif (ch : Nat) (f : TxChan → TxChan) (s : State) : (modTx ch f s).hif = s.hif := rfl
@[simp] theorem modTx_fib (ch : Nat) (f : TxChan → TxChan) (s : State) : (modTx ch f s).fib = s.fib := rfl
@[simp] theorem modTx_cls (ch : Nat) (f : TxChan → TxChan) (s : State) : (modTx ch f s).cls = s.cls := rfl
@[simp] theorem modTx_tab (ch : Nat) (f : TxChan → TxChan) (s : State) : (modTx ch f s).tab = s.tab := rfl
@[simp] theorem modTx_tm (ch : Nat) (f : TxChan → TxChan) (s : State) : (modTx ch f s).tm = s.tm := rfl
@[simp] theorem modTx_cip (ch : Nat) (f : TxChan → TxChan) (s : State) : (modTx ch f s).cip = s.cip := rfl
@[simp] theorem modTx_time (ch : Nat) (f : TxChan → TxChan) (s : State) : (modTx ch f s).time = s.time := rfl
@[simp] theorem modTx_prt (ch : Nat) (f : TxChan → TxChan) (s : State) : (modTx ch f s).prt = s.prt := rfl
@[simp] theorem modTx_lan (ch : Nat) (f : TxChan → TxChan) (s : State) : (modTx ch f s).lan = s.lan := rfl
@[simp] theorem modTx_pow (ch : Nat) (f : TxChan → TxChan) (s : State) : (modTx ch f s).pow = s.pow := rfl
@[simp] theorem modTx_mem (ch : Nat) (f : TxChan → TxChan) (s : State) : (modTx ch f s).mem = s.mem := rfl
@[simp] theorem modTx_obs (ch : Nat) (f : TxChan → TxChan) (s : State) : (modTx ch f s).obs = s.obs := rfl
@[simp] theorem modTx_mnt (ch : Nat) (f : TxChan → TxChan) (s : State) : (modTx ch f s).mnt = s.mnt := rfl
@[simp] theorem modTx_sup (ch : Nat) (f : TxChan → TxChan) (s : State) : (modTx ch f s).sup = s.sup := rfl
@[simp] theorem modTx_brg (ch : Nat) (f : TxChan → TxChan) (s : State) : (modTx ch f s).brg = s.brg := rfl

@[simp] theorem modPort_pending (p : Nat) (f : Port → Port) (s : State) : (modPort p f s).pending = s.pending := rfl
@[simp] theorem modPort_now (p : Nat) (f : Port → Port) (s : State) : (modPort p f s).now = s.now := rfl
@[simp] theorem modPort_fresh (p : Nat) (f : Port → Port) (s : State) : (modPort p f s).fresh = s.fresh := rfl
@[simp] theorem modPort_out (p : Nat) (f : Port → Port) (s : State) : (modPort p f s).out = s.out := rfl
@[simp] theorem modPort_cnt (p : Nat) (f : Port → Port) (s : State) : (modPort p f s).cnt = s.cnt := rfl
@[simp] theorem modPort_dev (p : Nat) (f : Port → Port) (s : State) : (modPort p f s).dev = s.dev := rfl
@[simp] theorem modPort_hif (p : Nat) (f : Port → Port) (s : State) : (modPort p f s).hif = s.hif := rfl
@[simp] theorem modPort_fib (p : Nat) (f : Port → Port) (s : State) : (modPort p f s).fib = s.fib := rfl
@[simp] theorem modPort_up (p : Nat) (f : Port → Port) (s : State) : (modPort p f s).up = s.up := rfl
@[simp] theorem modPort_cls (p : Nat) (f : Port → Port) (s : State) : (modPort p f s).cls = s.cls := rfl
@[simp] theorem modPort_tab (p : Nat) (f : Port → Port) (s : State) : (modPort p f s).tab = s.tab := rfl
@[simp] theorem modPort_tm (p : Nat) (f : Port → Port) (s : State) : (modPort p f s).tm = s.tm := rfl
@[simp] theorem modPort_cip (p : Nat) (f : Port → Port) (s : State) : (modPort p f s).cip = s.cip := rfl
@[simp] theorem modPort_time (p : Nat) (f : Port → Port) (s : State) : (modPort p f s).time = s.time := rfl
@[simp] theorem modPort_lan (p : Nat) (f : Port → Port) (s : State) : (modPort p f s).lan = s.lan := rfl
@[simp] theorem modPort_pow (p : Nat) (f : Port → Port) (s : State) : (modPort p f s).pow = s.pow := rfl
@[simp] theorem modPort_mem (p : Nat) (f : Port → Port) (s : State) : (modPort p f s).mem = s.mem := rfl
@[simp] theorem modPort_obs (p : Nat) (f : Port → Port) (s : State) : (modPort p f s).obs = s.obs := rfl
@[simp] theorem modPort_mnt (p : Nat) (f : Port → Port) (s : State) : (modPort p f s).mnt = s.mnt := rfl
@[simp] theorem modPort_sup (p : Nat) (f : Port → Port) (s : State) : (modPort p f s).sup = s.sup := rfl
@[simp] theorem modPort_brg (p : Nat) (f : Port → Port) (s : State) : (modPort p f s).brg = s.brg := rfl

@[simp] theorem modLane_pending (l : Nat) (f : Lane → Lane) (s : State) : (modLane l f s).pending = s.pending := rfl
@[simp] theorem modLane_now (l : Nat) (f : Lane → Lane) (s : State) : (modLane l f s).now = s.now := rfl
@[simp] theorem modLane_fresh (l : Nat) (f : Lane → Lane) (s : State) : (modLane l f s).fresh = s.fresh := rfl
@[simp] theorem modLane_out (l : Nat) (f : Lane → Lane) (s : State) : (modLane l f s).out = s.out := rfl
@[simp] theorem modLane_cnt (l : Nat) (f : Lane → Lane) (s : State) : (modLane l f s).cnt = s.cnt := rfl
@[simp] theorem modLane_dev (l : Nat) (f : Lane → Lane) (s : State) : (modLane l f s).dev = s.dev := rfl
@[simp] theorem modLane_hif (l : Nat) (f : Lane → Lane) (s : State) : (modLane l f s).hif = s.hif := rfl
@[simp] theorem modLane_fib (l : Nat) (f : Lane → Lane) (s : State) : (modLane l f s).fib = s.fib := rfl
@[simp] theorem modLane_up (l : Nat) (f : Lane → Lane) (s : State) : (modLane l f s).up = s.up := rfl
@[simp] theorem modLane_cls (l : Nat) (f : Lane → Lane) (s : State) : (modLane l f s).cls = s.cls := rfl
@[simp] theorem modLane_tab (l : Nat) (f : Lane → Lane) (s : State) : (modLane l f s).tab = s.tab := rfl
@[simp] theorem modLane_tm (l : Nat) (f : Lane → Lane) (s : State) : (modLane l f s).tm = s.tm := rfl
@[simp] theorem modLane_cip (l : Nat) (f : Lane → Lane) (s : State) : (modLane l f s).cip = s.cip := rfl
@[simp] theorem modLane_time (l : Nat) (f : Lane → Lane) (s : State) : (modLane l f s).time = s.time := rfl
@[simp] theorem modLane_prt (l : Nat) (f : Lane → Lane) (s : State) : (modLane l f s).prt = s.prt := rfl
@[simp] theorem modLane_pow (l : Nat) (f : Lane → Lane) (s : State) : (modLane l f s).pow = s.pow := rfl
@[simp] theorem modLane_mem (l : Nat) (f : Lane → Lane) (s : State) : (modLane l f s).mem = s.mem := rfl
@[simp] theorem modLane_obs (l : Nat) (f : Lane → Lane) (s : State) : (modLane l f s).obs = s.obs := rfl
@[simp] theorem modLane_mnt (l : Nat) (f : Lane → Lane) (s : State) : (modLane l f s).mnt = s.mnt := rfl
@[simp] theorem modLane_sup (l : Nat) (f : Lane → Lane) (s : State) : (modLane l f s).sup = s.sup := rfl
@[simp] theorem modLane_brg (l : Nat) (f : Lane → Lane) (s : State) : (modLane l f s).brg = s.brg := rfl

@[simp] theorem modQueue_pending (q : Nat) (f : Queue → Queue) (s : State) :
    (modQueue q f s).pending = s.pending := rfl
@[simp] theorem modQueue_now (q : Nat) (f : Queue → Queue) (s : State) : (modQueue q f s).now = s.now := rfl
@[simp] theorem modQueue_fresh (q : Nat) (f : Queue → Queue) (s : State) : (modQueue q f s).fresh = s.fresh := rfl
@[simp] theorem modQueue_out (q : Nat) (f : Queue → Queue) (s : State) : (modQueue q f s).out = s.out := rfl
@[simp] theorem modQueue_cnt (q : Nat) (f : Queue → Queue) (s : State) : (modQueue q f s).cnt = s.cnt := rfl
@[simp] theorem modQueue_dev (q : Nat) (f : Queue → Queue) (s : State) : (modQueue q f s).dev = s.dev := rfl
@[simp] theorem modQueue_hif (q : Nat) (f : Queue → Queue) (s : State) : (modQueue q f s).hif = s.hif := rfl
@[simp] theorem modQueue_fib (q : Nat) (f : Queue → Queue) (s : State) : (modQueue q f s).fib = s.fib := rfl
@[simp] theorem modQueue_up (q : Nat) (f : Queue → Queue) (s : State) : (modQueue q f s).up = s.up := rfl
@[simp] theorem modQueue_cls (q : Nat) (f : Queue → Queue) (s : State) : (modQueue q f s).cls = s.cls := rfl
@[simp] theorem modQueue_tab (q : Nat) (f : Queue → Queue) (s : State) : (modQueue q f s).tab = s.tab := rfl
@[simp] theorem modQueue_cip (q : Nat) (f : Queue → Queue) (s : State) : (modQueue q f s).cip = s.cip := rfl
@[simp] theorem modQueue_time (q : Nat) (f : Queue → Queue) (s : State) : (modQueue q f s).time = s.time := rfl
@[simp] theorem modQueue_prt (q : Nat) (f : Queue → Queue) (s : State) : (modQueue q f s).prt = s.prt := rfl
@[simp] theorem modQueue_lan (q : Nat) (f : Queue → Queue) (s : State) : (modQueue q f s).lan = s.lan := rfl
@[simp] theorem modQueue_pow (q : Nat) (f : Queue → Queue) (s : State) : (modQueue q f s).pow = s.pow := rfl
@[simp] theorem modQueue_mem (q : Nat) (f : Queue → Queue) (s : State) : (modQueue q f s).mem = s.mem := rfl
@[simp] theorem modQueue_obs (q : Nat) (f : Queue → Queue) (s : State) : (modQueue q f s).obs = s.obs := rfl
@[simp] theorem modQueue_mnt (q : Nat) (f : Queue → Queue) (s : State) : (modQueue q f s).mnt = s.mnt := rfl
@[simp] theorem modQueue_sup (q : Nat) (f : Queue → Queue) (s : State) : (modQueue q f s).sup = s.sup := rfl
@[simp] theorem modQueue_brg (q : Nat) (f : Queue → Queue) (s : State) : (modQueue q f s).brg = s.brg := rfl

@[simp] theorem modPause_pending (p : Nat) (f : PauseCfg → PauseCfg) (s : State) :
    (modPause p f s).pending = s.pending := rfl
@[simp] theorem modPause_now (p : Nat) (f : PauseCfg → PauseCfg) (s : State) : (modPause p f s).now = s.now := rfl
@[simp] theorem modPause_fresh (p : Nat) (f : PauseCfg → PauseCfg) (s : State) :
    (modPause p f s).fresh = s.fresh := rfl
@[simp] theorem modPause_out (p : Nat) (f : PauseCfg → PauseCfg) (s : State) : (modPause p f s).out = s.out := rfl
@[simp] theorem modPause_cnt (p : Nat) (f : PauseCfg → PauseCfg) (s : State) : (modPause p f s).cnt = s.cnt := rfl
@[simp] theorem modPause_dev (p : Nat) (f : PauseCfg → PauseCfg) (s : State) : (modPause p f s).dev = s.dev := rfl
@[simp] theorem modPause_hif (p : Nat) (f : PauseCfg → PauseCfg) (s : State) : (modPause p f s).hif = s.hif := rfl
@[simp] theorem modPause_fib (p : Nat) (f : PauseCfg → PauseCfg) (s : State) : (modPause p f s).fib = s.fib := rfl
@[simp] theorem modPause_up (p : Nat) (f : PauseCfg → PauseCfg) (s : State) : (modPause p f s).up = s.up := rfl
@[simp] theorem modPause_cls (p : Nat) (f : PauseCfg → PauseCfg) (s : State) : (modPause p f s).cls = s.cls := rfl
@[simp] theorem modPause_tab (p : Nat) (f : PauseCfg → PauseCfg) (s : State) : (modPause p f s).tab = s.tab := rfl
@[simp] theorem modPause_cip (p : Nat) (f : PauseCfg → PauseCfg) (s : State) : (modPause p f s).cip = s.cip := rfl
@[simp] theorem modPause_time (p : Nat) (f : PauseCfg → PauseCfg) (s : State) : (modPause p f s).time = s.time := rfl
@[simp] theorem modPause_prt (p : Nat) (f : PauseCfg → PauseCfg) (s : State) : (modPause p f s).prt = s.prt := rfl
@[simp] theorem modPause_lan (p : Nat) (f : PauseCfg → PauseCfg) (s : State) : (modPause p f s).lan = s.lan := rfl
@[simp] theorem modPause_pow (p : Nat) (f : PauseCfg → PauseCfg) (s : State) : (modPause p f s).pow = s.pow := rfl
@[simp] theorem modPause_mem (p : Nat) (f : PauseCfg → PauseCfg) (s : State) : (modPause p f s).mem = s.mem := rfl
@[simp] theorem modPause_obs (p : Nat) (f : PauseCfg → PauseCfg) (s : State) : (modPause p f s).obs = s.obs := rfl
@[simp] theorem modPause_mnt (p : Nat) (f : PauseCfg → PauseCfg) (s : State) : (modPause p f s).mnt = s.mnt := rfl
@[simp] theorem modPause_sup (p : Nat) (f : PauseCfg → PauseCfg) (s : State) : (modPause p f s).sup = s.sup := rfl
@[simp] theorem modPause_brg (p : Nat) (f : PauseCfg → PauseCfg) (s : State) : (modPause p f s).brg = s.brg := rfl

@[simp] theorem modMacsec_pending (p : Nat) (f : Macsec → Macsec) (s : State) :
    (modMacsec p f s).pending = s.pending := rfl
@[simp] theorem modMacsec_now (p : Nat) (f : Macsec → Macsec) (s : State) : (modMacsec p f s).now = s.now := rfl
@[simp] theorem modMacsec_fresh (p : Nat) (f : Macsec → Macsec) (s : State) : (modMacsec p f s).fresh = s.fresh := rfl
@[simp] theorem modMacsec_out (p : Nat) (f : Macsec → Macsec) (s : State) : (modMacsec p f s).out = s.out := rfl
@[simp] theorem modMacsec_cnt (p : Nat) (f : Macsec → Macsec) (s : State) : (modMacsec p f s).cnt = s.cnt := rfl
@[simp] theorem modMacsec_dev (p : Nat) (f : Macsec → Macsec) (s : State) : (modMacsec p f s).dev = s.dev := rfl
@[simp] theorem modMacsec_hif (p : Nat) (f : Macsec → Macsec) (s : State) : (modMacsec p f s).hif = s.hif := rfl
@[simp] theorem modMacsec_fib (p : Nat) (f : Macsec → Macsec) (s : State) : (modMacsec p f s).fib = s.fib := rfl
@[simp] theorem modMacsec_up (p : Nat) (f : Macsec → Macsec) (s : State) : (modMacsec p f s).up = s.up := rfl
@[simp] theorem modMacsec_cls (p : Nat) (f : Macsec → Macsec) (s : State) : (modMacsec p f s).cls = s.cls := rfl
@[simp] theorem modMacsec_tab (p : Nat) (f : Macsec → Macsec) (s : State) : (modMacsec p f s).tab = s.tab := rfl
@[simp] theorem modMacsec_tm (p : Nat) (f : Macsec → Macsec) (s : State) : (modMacsec p f s).tm = s.tm := rfl
@[simp] theorem modMacsec_time (p : Nat) (f : Macsec → Macsec) (s : State) : (modMacsec p f s).time = s.time := rfl
@[simp] theorem modMacsec_prt (p : Nat) (f : Macsec → Macsec) (s : State) : (modMacsec p f s).prt = s.prt := rfl
@[simp] theorem modMacsec_lan (p : Nat) (f : Macsec → Macsec) (s : State) : (modMacsec p f s).lan = s.lan := rfl
@[simp] theorem modMacsec_pow (p : Nat) (f : Macsec → Macsec) (s : State) : (modMacsec p f s).pow = s.pow := rfl
@[simp] theorem modMacsec_mem (p : Nat) (f : Macsec → Macsec) (s : State) : (modMacsec p f s).mem = s.mem := rfl
@[simp] theorem modMacsec_obs (p : Nat) (f : Macsec → Macsec) (s : State) : (modMacsec p f s).obs = s.obs := rfl
@[simp] theorem modMacsec_mnt (p : Nat) (f : Macsec → Macsec) (s : State) : (modMacsec p f s).mnt = s.mnt := rfl
@[simp] theorem modMacsec_sup (p : Nat) (f : Macsec → Macsec) (s : State) : (modMacsec p f s).sup = s.sup := rfl
@[simp] theorem modMacsec_brg (p : Nat) (f : Macsec → Macsec) (s : State) : (modMacsec p f s).brg = s.brg := rfl

@[simp] theorem modPipe_pending (p : Nat) (f : Pipe → Pipe) (s : State) : (modPipe p f s).pending = s.pending := rfl
@[simp] theorem modPipe_now (p : Nat) (f : Pipe → Pipe) (s : State) : (modPipe p f s).now = s.now := rfl
@[simp] theorem modPipe_fresh (p : Nat) (f : Pipe → Pipe) (s : State) : (modPipe p f s).fresh = s.fresh := rfl
@[simp] theorem modPipe_out (p : Nat) (f : Pipe → Pipe) (s : State) : (modPipe p f s).out = s.out := rfl
@[simp] theorem modPipe_cnt (p : Nat) (f : Pipe → Pipe) (s : State) : (modPipe p f s).cnt = s.cnt := rfl
@[simp] theorem modPipe_dev (p : Nat) (f : Pipe → Pipe) (s : State) : (modPipe p f s).dev = s.dev := rfl
@[simp] theorem modPipe_hif (p : Nat) (f : Pipe → Pipe) (s : State) : (modPipe p f s).hif = s.hif := rfl
@[simp] theorem modPipe_fib (p : Nat) (f : Pipe → Pipe) (s : State) : (modPipe p f s).fib = s.fib := rfl
@[simp] theorem modPipe_up (p : Nat) (f : Pipe → Pipe) (s : State) : (modPipe p f s).up = s.up := rfl
@[simp] theorem modPipe_cls (p : Nat) (f : Pipe → Pipe) (s : State) : (modPipe p f s).cls = s.cls := rfl
@[simp] theorem modPipe_tab (p : Nat) (f : Pipe → Pipe) (s : State) : (modPipe p f s).tab = s.tab := rfl
@[simp] theorem modPipe_tm (p : Nat) (f : Pipe → Pipe) (s : State) : (modPipe p f s).tm = s.tm := rfl
@[simp] theorem modPipe_time (p : Nat) (f : Pipe → Pipe) (s : State) : (modPipe p f s).time = s.time := rfl
@[simp] theorem modPipe_prt (p : Nat) (f : Pipe → Pipe) (s : State) : (modPipe p f s).prt = s.prt := rfl
@[simp] theorem modPipe_lan (p : Nat) (f : Pipe → Pipe) (s : State) : (modPipe p f s).lan = s.lan := rfl
@[simp] theorem modPipe_pow (p : Nat) (f : Pipe → Pipe) (s : State) : (modPipe p f s).pow = s.pow := rfl
@[simp] theorem modPipe_mem (p : Nat) (f : Pipe → Pipe) (s : State) : (modPipe p f s).mem = s.mem := rfl
@[simp] theorem modPipe_obs (p : Nat) (f : Pipe → Pipe) (s : State) : (modPipe p f s).obs = s.obs := rfl
@[simp] theorem modPipe_mnt (p : Nat) (f : Pipe → Pipe) (s : State) : (modPipe p f s).mnt = s.mnt := rfl
@[simp] theorem modPipe_sup (p : Nat) (f : Pipe → Pipe) (s : State) : (modPipe p f s).sup = s.sup := rfl
@[simp] theorem modPipe_brg (p : Nat) (f : Pipe → Pipe) (s : State) : (modPipe p f s).brg = s.brg := rfl

@[simp] theorem modRegion_pending (r : Nat) (f : Region → Region) (s : State) :
    (modRegion r f s).pending = s.pending := rfl
@[simp] theorem modRegion_now (r : Nat) (f : Region → Region) (s : State) : (modRegion r f s).now = s.now := rfl
@[simp] theorem modRegion_fresh (r : Nat) (f : Region → Region) (s : State) : (modRegion r f s).fresh = s.fresh := rfl
@[simp] theorem modRegion_out (r : Nat) (f : Region → Region) (s : State) : (modRegion r f s).out = s.out := rfl
@[simp] theorem modRegion_cnt (r : Nat) (f : Region → Region) (s : State) : (modRegion r f s).cnt = s.cnt := rfl
@[simp] theorem modRegion_dev (r : Nat) (f : Region → Region) (s : State) : (modRegion r f s).dev = s.dev := rfl
@[simp] theorem modRegion_hif (r : Nat) (f : Region → Region) (s : State) : (modRegion r f s).hif = s.hif := rfl
@[simp] theorem modRegion_fib (r : Nat) (f : Region → Region) (s : State) : (modRegion r f s).fib = s.fib := rfl
@[simp] theorem modRegion_up (r : Nat) (f : Region → Region) (s : State) : (modRegion r f s).up = s.up := rfl
@[simp] theorem modRegion_cls (r : Nat) (f : Region → Region) (s : State) : (modRegion r f s).cls = s.cls := rfl
@[simp] theorem modRegion_tab (r : Nat) (f : Region → Region) (s : State) : (modRegion r f s).tab = s.tab := rfl
@[simp] theorem modRegion_tm (r : Nat) (f : Region → Region) (s : State) : (modRegion r f s).tm = s.tm := rfl
@[simp] theorem modRegion_cip (r : Nat) (f : Region → Region) (s : State) : (modRegion r f s).cip = s.cip := rfl
@[simp] theorem modRegion_time (r : Nat) (f : Region → Region) (s : State) : (modRegion r f s).time = s.time := rfl
@[simp] theorem modRegion_prt (r : Nat) (f : Region → Region) (s : State) : (modRegion r f s).prt = s.prt := rfl
@[simp] theorem modRegion_lan (r : Nat) (f : Region → Region) (s : State) : (modRegion r f s).lan = s.lan := rfl
@[simp] theorem modRegion_pow (r : Nat) (f : Region → Region) (s : State) : (modRegion r f s).pow = s.pow := rfl
@[simp] theorem modRegion_obs (r : Nat) (f : Region → Region) (s : State) : (modRegion r f s).obs = s.obs := rfl
@[simp] theorem modRegion_mnt (r : Nat) (f : Region → Region) (s : State) : (modRegion r f s).mnt = s.mnt := rfl
@[simp] theorem modRegion_sup (r : Nat) (f : Region → Region) (s : State) : (modRegion r f s).sup = s.sup := rfl
@[simp] theorem modRegion_brg (r : Nat) (f : Region → Region) (s : State) : (modRegion r f s).brg = s.brg := rfl

@[simp] theorem modDetect_pending (d : Nat) (f : Detect → Detect) (s : State) :
    (modDetect d f s).pending = s.pending := rfl
@[simp] theorem modDetect_now (d : Nat) (f : Detect → Detect) (s : State) : (modDetect d f s).now = s.now := rfl
@[simp] theorem modDetect_fresh (d : Nat) (f : Detect → Detect) (s : State) : (modDetect d f s).fresh = s.fresh := rfl
@[simp] theorem modDetect_out (d : Nat) (f : Detect → Detect) (s : State) : (modDetect d f s).out = s.out := rfl
@[simp] theorem modDetect_cnt (d : Nat) (f : Detect → Detect) (s : State) : (modDetect d f s).cnt = s.cnt := rfl
@[simp] theorem modDetect_dev (d : Nat) (f : Detect → Detect) (s : State) : (modDetect d f s).dev = s.dev := rfl
@[simp] theorem modDetect_hif (d : Nat) (f : Detect → Detect) (s : State) : (modDetect d f s).hif = s.hif := rfl
@[simp] theorem modDetect_fib (d : Nat) (f : Detect → Detect) (s : State) : (modDetect d f s).fib = s.fib := rfl
@[simp] theorem modDetect_up (d : Nat) (f : Detect → Detect) (s : State) : (modDetect d f s).up = s.up := rfl
@[simp] theorem modDetect_cls (d : Nat) (f : Detect → Detect) (s : State) : (modDetect d f s).cls = s.cls := rfl
@[simp] theorem modDetect_tab (d : Nat) (f : Detect → Detect) (s : State) : (modDetect d f s).tab = s.tab := rfl
@[simp] theorem modDetect_tm (d : Nat) (f : Detect → Detect) (s : State) : (modDetect d f s).tm = s.tm := rfl
@[simp] theorem modDetect_cip (d : Nat) (f : Detect → Detect) (s : State) : (modDetect d f s).cip = s.cip := rfl
@[simp] theorem modDetect_time (d : Nat) (f : Detect → Detect) (s : State) : (modDetect d f s).time = s.time := rfl
@[simp] theorem modDetect_prt (d : Nat) (f : Detect → Detect) (s : State) : (modDetect d f s).prt = s.prt := rfl
@[simp] theorem modDetect_lan (d : Nat) (f : Detect → Detect) (s : State) : (modDetect d f s).lan = s.lan := rfl
@[simp] theorem modDetect_mem (d : Nat) (f : Detect → Detect) (s : State) : (modDetect d f s).mem = s.mem := rfl
@[simp] theorem modDetect_obs (d : Nat) (f : Detect → Detect) (s : State) : (modDetect d f s).obs = s.obs := rfl
@[simp] theorem modDetect_mnt (d : Nat) (f : Detect → Detect) (s : State) : (modDetect d f s).mnt = s.mnt := rfl
@[simp] theorem modDetect_sup (d : Nat) (f : Detect → Detect) (s : State) : (modDetect d f s).sup = s.sup := rfl
@[simp] theorem modDetect_brg (d : Nat) (f : Detect → Detect) (s : State) : (modDetect d f s).brg = s.brg := rfl

@[simp] theorem modSensor_pending (d : Nat) (f : Sensor → Sensor) (s : State) :
    (modSensor d f s).pending = s.pending := rfl
@[simp] theorem modSensor_now (d : Nat) (f : Sensor → Sensor) (s : State) : (modSensor d f s).now = s.now := rfl
@[simp] theorem modSensor_fresh (d : Nat) (f : Sensor → Sensor) (s : State) : (modSensor d f s).fresh = s.fresh := rfl
@[simp] theorem modSensor_out (d : Nat) (f : Sensor → Sensor) (s : State) : (modSensor d f s).out = s.out := rfl
@[simp] theorem modSensor_cnt (d : Nat) (f : Sensor → Sensor) (s : State) : (modSensor d f s).cnt = s.cnt := rfl
@[simp] theorem modSensor_dev (d : Nat) (f : Sensor → Sensor) (s : State) : (modSensor d f s).dev = s.dev := rfl
@[simp] theorem modSensor_hif (d : Nat) (f : Sensor → Sensor) (s : State) : (modSensor d f s).hif = s.hif := rfl
@[simp] theorem modSensor_fib (d : Nat) (f : Sensor → Sensor) (s : State) : (modSensor d f s).fib = s.fib := rfl
@[simp] theorem modSensor_up (d : Nat) (f : Sensor → Sensor) (s : State) : (modSensor d f s).up = s.up := rfl
@[simp] theorem modSensor_cls (d : Nat) (f : Sensor → Sensor) (s : State) : (modSensor d f s).cls = s.cls := rfl
@[simp] theorem modSensor_tab (d : Nat) (f : Sensor → Sensor) (s : State) : (modSensor d f s).tab = s.tab := rfl
@[simp] theorem modSensor_tm (d : Nat) (f : Sensor → Sensor) (s : State) : (modSensor d f s).tm = s.tm := rfl
@[simp] theorem modSensor_cip (d : Nat) (f : Sensor → Sensor) (s : State) : (modSensor d f s).cip = s.cip := rfl
@[simp] theorem modSensor_time (d : Nat) (f : Sensor → Sensor) (s : State) : (modSensor d f s).time = s.time := rfl
@[simp] theorem modSensor_prt (d : Nat) (f : Sensor → Sensor) (s : State) : (modSensor d f s).prt = s.prt := rfl
@[simp] theorem modSensor_lan (d : Nat) (f : Sensor → Sensor) (s : State) : (modSensor d f s).lan = s.lan := rfl
@[simp] theorem modSensor_mem (d : Nat) (f : Sensor → Sensor) (s : State) : (modSensor d f s).mem = s.mem := rfl
@[simp] theorem modSensor_obs (d : Nat) (f : Sensor → Sensor) (s : State) : (modSensor d f s).obs = s.obs := rfl
@[simp] theorem modSensor_mnt (d : Nat) (f : Sensor → Sensor) (s : State) : (modSensor d f s).mnt = s.mnt := rfl
@[simp] theorem modSensor_sup (d : Nat) (f : Sensor → Sensor) (s : State) : (modSensor d f s).sup = s.sup := rfl
@[simp] theorem modSensor_brg (d : Nat) (f : Sensor → Sensor) (s : State) : (modSensor d f s).brg = s.brg := rfl

@[simp] theorem modBank_pending (g : Nat) (f : Bank → Bank) (s : State) : (modBank g f s).pending = s.pending := rfl
@[simp] theorem modBank_now (g : Nat) (f : Bank → Bank) (s : State) : (modBank g f s).now = s.now := rfl
@[simp] theorem modBank_fresh (g : Nat) (f : Bank → Bank) (s : State) : (modBank g f s).fresh = s.fresh := rfl
@[simp] theorem modBank_out (g : Nat) (f : Bank → Bank) (s : State) : (modBank g f s).out = s.out := rfl
@[simp] theorem modBank_cnt (g : Nat) (f : Bank → Bank) (s : State) : (modBank g f s).cnt = s.cnt := rfl
@[simp] theorem modBank_dev (g : Nat) (f : Bank → Bank) (s : State) : (modBank g f s).dev = s.dev := rfl
@[simp] theorem modBank_hif (g : Nat) (f : Bank → Bank) (s : State) : (modBank g f s).hif = s.hif := rfl
@[simp] theorem modBank_fib (g : Nat) (f : Bank → Bank) (s : State) : (modBank g f s).fib = s.fib := rfl
@[simp] theorem modBank_up (g : Nat) (f : Bank → Bank) (s : State) : (modBank g f s).up = s.up := rfl
@[simp] theorem modBank_cls (g : Nat) (f : Bank → Bank) (s : State) : (modBank g f s).cls = s.cls := rfl
@[simp] theorem modBank_tab (g : Nat) (f : Bank → Bank) (s : State) : (modBank g f s).tab = s.tab := rfl
@[simp] theorem modBank_tm (g : Nat) (f : Bank → Bank) (s : State) : (modBank g f s).tm = s.tm := rfl
@[simp] theorem modBank_cip (g : Nat) (f : Bank → Bank) (s : State) : (modBank g f s).cip = s.cip := rfl
@[simp] theorem modBank_time (g : Nat) (f : Bank → Bank) (s : State) : (modBank g f s).time = s.time := rfl
@[simp] theorem modBank_prt (g : Nat) (f : Bank → Bank) (s : State) : (modBank g f s).prt = s.prt := rfl
@[simp] theorem modBank_lan (g : Nat) (f : Bank → Bank) (s : State) : (modBank g f s).lan = s.lan := rfl
@[simp] theorem modBank_mem (g : Nat) (f : Bank → Bank) (s : State) : (modBank g f s).mem = s.mem := rfl
@[simp] theorem modBank_obs (g : Nat) (f : Bank → Bank) (s : State) : (modBank g f s).obs = s.obs := rfl
@[simp] theorem modBank_mnt (g : Nat) (f : Bank → Bank) (s : State) : (modBank g f s).mnt = s.mnt := rfl
@[simp] theorem modBank_sup (g : Nat) (f : Bank → Bank) (s : State) : (modBank g f s).sup = s.sup := rfl
@[simp] theorem modBank_brg (g : Nat) (f : Bank → Bank) (s : State) : (modBank g f s).brg = s.brg := rfl

@[simp] theorem modDomain_pending (d : Nat) (f : Domain → Domain) (s : State) :
    (modDomain d f s).pending = s.pending := rfl
@[simp] theorem modDomain_now (d : Nat) (f : Domain → Domain) (s : State) : (modDomain d f s).now = s.now := rfl
@[simp] theorem modDomain_fresh (d : Nat) (f : Domain → Domain) (s : State) : (modDomain d f s).fresh = s.fresh := rfl
@[simp] theorem modDomain_out (d : Nat) (f : Domain → Domain) (s : State) : (modDomain d f s).out = s.out := rfl
@[simp] theorem modDomain_cnt (d : Nat) (f : Domain → Domain) (s : State) : (modDomain d f s).cnt = s.cnt := rfl
@[simp] theorem modDomain_dev (d : Nat) (f : Domain → Domain) (s : State) : (modDomain d f s).dev = s.dev := rfl
@[simp] theorem modDomain_hif (d : Nat) (f : Domain → Domain) (s : State) : (modDomain d f s).hif = s.hif := rfl
@[simp] theorem modDomain_fib (d : Nat) (f : Domain → Domain) (s : State) : (modDomain d f s).fib = s.fib := rfl
@[simp] theorem modDomain_up (d : Nat) (f : Domain → Domain) (s : State) : (modDomain d f s).up = s.up := rfl
@[simp] theorem modDomain_cls (d : Nat) (f : Domain → Domain) (s : State) : (modDomain d f s).cls = s.cls := rfl
@[simp] theorem modDomain_tab (d : Nat) (f : Domain → Domain) (s : State) : (modDomain d f s).tab = s.tab := rfl
@[simp] theorem modDomain_tm (d : Nat) (f : Domain → Domain) (s : State) : (modDomain d f s).tm = s.tm := rfl
@[simp] theorem modDomain_cip (d : Nat) (f : Domain → Domain) (s : State) : (modDomain d f s).cip = s.cip := rfl
@[simp] theorem modDomain_time (d : Nat) (f : Domain → Domain) (s : State) : (modDomain d f s).time = s.time := rfl
@[simp] theorem modDomain_prt (d : Nat) (f : Domain → Domain) (s : State) : (modDomain d f s).prt = s.prt := rfl
@[simp] theorem modDomain_lan (d : Nat) (f : Domain → Domain) (s : State) : (modDomain d f s).lan = s.lan := rfl
@[simp] theorem modDomain_mem (d : Nat) (f : Domain → Domain) (s : State) : (modDomain d f s).mem = s.mem := rfl
@[simp] theorem modDomain_obs (d : Nat) (f : Domain → Domain) (s : State) : (modDomain d f s).obs = s.obs := rfl
@[simp] theorem modDomain_mnt (d : Nat) (f : Domain → Domain) (s : State) : (modDomain d f s).mnt = s.mnt := rfl
@[simp] theorem modDomain_sup (d : Nat) (f : Domain → Domain) (s : State) : (modDomain d f s).sup = s.sup := rfl
@[simp] theorem modDomain_brg (d : Nat) (f : Domain → Domain) (s : State) : (modDomain d f s).brg = s.brg := rfl

@[simp] theorem modIpfix_pending (f : Ipfix → Ipfix) (s : State) : (modIpfix f s).pending = s.pending := rfl
@[simp] theorem modIpfix_now (f : Ipfix → Ipfix) (s : State) : (modIpfix f s).now = s.now := rfl
@[simp] theorem modIpfix_fresh (f : Ipfix → Ipfix) (s : State) : (modIpfix f s).fresh = s.fresh := rfl
@[simp] theorem modIpfix_out (f : Ipfix → Ipfix) (s : State) : (modIpfix f s).out = s.out := rfl
@[simp] theorem modIpfix_cnt (f : Ipfix → Ipfix) (s : State) : (modIpfix f s).cnt = s.cnt := rfl
@[simp] theorem modIpfix_dev (f : Ipfix → Ipfix) (s : State) : (modIpfix f s).dev = s.dev := rfl
@[simp] theorem modIpfix_hif (f : Ipfix → Ipfix) (s : State) : (modIpfix f s).hif = s.hif := rfl
@[simp] theorem modIpfix_fib (f : Ipfix → Ipfix) (s : State) : (modIpfix f s).fib = s.fib := rfl
@[simp] theorem modIpfix_up (f : Ipfix → Ipfix) (s : State) : (modIpfix f s).up = s.up := rfl
@[simp] theorem modIpfix_cls (f : Ipfix → Ipfix) (s : State) : (modIpfix f s).cls = s.cls := rfl
@[simp] theorem modIpfix_tab (f : Ipfix → Ipfix) (s : State) : (modIpfix f s).tab = s.tab := rfl
@[simp] theorem modIpfix_tm (f : Ipfix → Ipfix) (s : State) : (modIpfix f s).tm = s.tm := rfl
@[simp] theorem modIpfix_cip (f : Ipfix → Ipfix) (s : State) : (modIpfix f s).cip = s.cip := rfl
@[simp] theorem modIpfix_time (f : Ipfix → Ipfix) (s : State) : (modIpfix f s).time = s.time := rfl
@[simp] theorem modIpfix_prt (f : Ipfix → Ipfix) (s : State) : (modIpfix f s).prt = s.prt := rfl
@[simp] theorem modIpfix_lan (f : Ipfix → Ipfix) (s : State) : (modIpfix f s).lan = s.lan := rfl
@[simp] theorem modIpfix_pow (f : Ipfix → Ipfix) (s : State) : (modIpfix f s).pow = s.pow := rfl
@[simp] theorem modIpfix_mem (f : Ipfix → Ipfix) (s : State) : (modIpfix f s).mem = s.mem := rfl
@[simp] theorem modIpfix_mnt (f : Ipfix → Ipfix) (s : State) : (modIpfix f s).mnt = s.mnt := rfl
@[simp] theorem modIpfix_sup (f : Ipfix → Ipfix) (s : State) : (modIpfix f s).sup = s.sup := rfl
@[simp] theorem modIpfix_brg (f : Ipfix → Ipfix) (s : State) : (modIpfix f s).brg = s.brg := rfl

@[simp] theorem modAlloc_pending (id : Nat) (f : Alloc → Alloc) (s : State) :
    (modAlloc id f s).pending = s.pending := rfl
@[simp] theorem modAlloc_now (id : Nat) (f : Alloc → Alloc) (s : State) : (modAlloc id f s).now = s.now := rfl
@[simp] theorem modAlloc_fresh (id : Nat) (f : Alloc → Alloc) (s : State) : (modAlloc id f s).fresh = s.fresh := rfl
@[simp] theorem modAlloc_out (id : Nat) (f : Alloc → Alloc) (s : State) : (modAlloc id f s).out = s.out := rfl
@[simp] theorem modAlloc_cnt (id : Nat) (f : Alloc → Alloc) (s : State) : (modAlloc id f s).cnt = s.cnt := rfl
@[simp] theorem modAlloc_dev (id : Nat) (f : Alloc → Alloc) (s : State) : (modAlloc id f s).dev = s.dev := rfl
@[simp] theorem modAlloc_hif (id : Nat) (f : Alloc → Alloc) (s : State) : (modAlloc id f s).hif = s.hif := rfl
@[simp] theorem modAlloc_fib (id : Nat) (f : Alloc → Alloc) (s : State) : (modAlloc id f s).fib = s.fib := rfl
@[simp] theorem modAlloc_cls (id : Nat) (f : Alloc → Alloc) (s : State) : (modAlloc id f s).cls = s.cls := rfl
@[simp] theorem modAlloc_tab (id : Nat) (f : Alloc → Alloc) (s : State) : (modAlloc id f s).tab = s.tab := rfl
@[simp] theorem modAlloc_tm (id : Nat) (f : Alloc → Alloc) (s : State) : (modAlloc id f s).tm = s.tm := rfl
@[simp] theorem modAlloc_cip (id : Nat) (f : Alloc → Alloc) (s : State) : (modAlloc id f s).cip = s.cip := rfl
@[simp] theorem modAlloc_time (id : Nat) (f : Alloc → Alloc) (s : State) : (modAlloc id f s).time = s.time := rfl
@[simp] theorem modAlloc_prt (id : Nat) (f : Alloc → Alloc) (s : State) : (modAlloc id f s).prt = s.prt := rfl
@[simp] theorem modAlloc_lan (id : Nat) (f : Alloc → Alloc) (s : State) : (modAlloc id f s).lan = s.lan := rfl
@[simp] theorem modAlloc_pow (id : Nat) (f : Alloc → Alloc) (s : State) : (modAlloc id f s).pow = s.pow := rfl
@[simp] theorem modAlloc_mem (id : Nat) (f : Alloc → Alloc) (s : State) : (modAlloc id f s).mem = s.mem := rfl
@[simp] theorem modAlloc_obs (id : Nat) (f : Alloc → Alloc) (s : State) : (modAlloc id f s).obs = s.obs := rfl
@[simp] theorem modAlloc_mnt (id : Nat) (f : Alloc → Alloc) (s : State) : (modAlloc id f s).mnt = s.mnt := rfl
@[simp] theorem modAlloc_sup (id : Nat) (f : Alloc → Alloc) (s : State) : (modAlloc id f s).sup = s.sup := rfl
@[simp] theorem modAlloc_brg (id : Nat) (f : Alloc → Alloc) (s : State) : (modAlloc id f s).brg = s.brg := rfl

@[simp] theorem modGate_pending (target : Nat) (f : Gate → Gate) (s : State) :
    (modGate target f s).pending = s.pending := rfl
@[simp] theorem modGate_now (target : Nat) (f : Gate → Gate) (s : State) : (modGate target f s).now = s.now := rfl
@[simp] theorem modGate_fresh (target : Nat) (f : Gate → Gate) (s : State) :
    (modGate target f s).fresh = s.fresh := rfl
@[simp] theorem modGate_out (target : Nat) (f : Gate → Gate) (s : State) : (modGate target f s).out = s.out := rfl
@[simp] theorem modGate_cnt (target : Nat) (f : Gate → Gate) (s : State) : (modGate target f s).cnt = s.cnt := rfl
@[simp] theorem modGate_dev (target : Nat) (f : Gate → Gate) (s : State) : (modGate target f s).dev = s.dev := rfl
@[simp] theorem modGate_hif (target : Nat) (f : Gate → Gate) (s : State) : (modGate target f s).hif = s.hif := rfl
@[simp] theorem modGate_fib (target : Nat) (f : Gate → Gate) (s : State) : (modGate target f s).fib = s.fib := rfl
@[simp] theorem modGate_up (target : Nat) (f : Gate → Gate) (s : State) : (modGate target f s).up = s.up := rfl
@[simp] theorem modGate_cls (target : Nat) (f : Gate → Gate) (s : State) : (modGate target f s).cls = s.cls := rfl
@[simp] theorem modGate_tab (target : Nat) (f : Gate → Gate) (s : State) : (modGate target f s).tab = s.tab := rfl
@[simp] theorem modGate_cip (target : Nat) (f : Gate → Gate) (s : State) : (modGate target f s).cip = s.cip := rfl
@[simp] theorem modGate_time (target : Nat) (f : Gate → Gate) (s : State) : (modGate target f s).time = s.time := rfl
@[simp] theorem modGate_prt (target : Nat) (f : Gate → Gate) (s : State) : (modGate target f s).prt = s.prt := rfl
@[simp] theorem modGate_lan (target : Nat) (f : Gate → Gate) (s : State) : (modGate target f s).lan = s.lan := rfl
@[simp] theorem modGate_pow (target : Nat) (f : Gate → Gate) (s : State) : (modGate target f s).pow = s.pow := rfl
@[simp] theorem modGate_mem (target : Nat) (f : Gate → Gate) (s : State) : (modGate target f s).mem = s.mem := rfl
@[simp] theorem modGate_obs (target : Nat) (f : Gate → Gate) (s : State) : (modGate target f s).obs = s.obs := rfl
@[simp] theorem modGate_mnt (target : Nat) (f : Gate → Gate) (s : State) : (modGate target f s).mnt = s.mnt := rfl
@[simp] theorem modGate_sup (target : Nat) (f : Gate → Gate) (s : State) : (modGate target f s).sup = s.sup := rfl
@[simp] theorem modGate_brg (target : Nat) (f : Gate → Gate) (s : State) : (modGate target f s).brg = s.brg := rfl

@[simp] theorem setPolicer_pending (n : Nat) (x : Policer) (s : State) : (setPolicer n x s).pending = s.pending := rfl
@[simp] theorem setPolicer_now (n : Nat) (x : Policer) (s : State) : (setPolicer n x s).now = s.now := rfl
@[simp] theorem setPolicer_fresh (n : Nat) (x : Policer) (s : State) : (setPolicer n x s).fresh = s.fresh := rfl
@[simp] theorem setPolicer_out (n : Nat) (x : Policer) (s : State) : (setPolicer n x s).out = s.out := rfl
@[simp] theorem setPolicer_cnt (n : Nat) (x : Policer) (s : State) : (setPolicer n x s).cnt = s.cnt := rfl
@[simp] theorem setPolicer_dev (n : Nat) (x : Policer) (s : State) : (setPolicer n x s).dev = s.dev := rfl
@[simp] theorem setPolicer_hif (n : Nat) (x : Policer) (s : State) : (setPolicer n x s).hif = s.hif := rfl
@[simp] theorem setPolicer_fib (n : Nat) (x : Policer) (s : State) : (setPolicer n x s).fib = s.fib := rfl
@[simp] theorem setPolicer_up (n : Nat) (x : Policer) (s : State) : (setPolicer n x s).up = s.up := rfl
@[simp] theorem setPolicer_cls (n : Nat) (x : Policer) (s : State) : (setPolicer n x s).cls = s.cls := rfl
@[simp] theorem setPolicer_tab (n : Nat) (x : Policer) (s : State) : (setPolicer n x s).tab = s.tab := rfl
@[simp] theorem setPolicer_cip (n : Nat) (x : Policer) (s : State) : (setPolicer n x s).cip = s.cip := rfl
@[simp] theorem setPolicer_time (n : Nat) (x : Policer) (s : State) : (setPolicer n x s).time = s.time := rfl
@[simp] theorem setPolicer_prt (n : Nat) (x : Policer) (s : State) : (setPolicer n x s).prt = s.prt := rfl
@[simp] theorem setPolicer_lan (n : Nat) (x : Policer) (s : State) : (setPolicer n x s).lan = s.lan := rfl
@[simp] theorem setPolicer_pow (n : Nat) (x : Policer) (s : State) : (setPolicer n x s).pow = s.pow := rfl
@[simp] theorem setPolicer_mem (n : Nat) (x : Policer) (s : State) : (setPolicer n x s).mem = s.mem := rfl
@[simp] theorem setPolicer_obs (n : Nat) (x : Policer) (s : State) : (setPolicer n x s).obs = s.obs := rfl
@[simp] theorem setPolicer_mnt (n : Nat) (x : Policer) (s : State) : (setPolicer n x s).mnt = s.mnt := rfl
@[simp] theorem setPolicer_sup (n : Nat) (x : Policer) (s : State) : (setPolicer n x s).sup = s.sup := rfl
@[simp] theorem setPolicer_brg (n : Nat) (x : Policer) (s : State) : (setPolicer n x s).brg = s.brg := rfl

@[simp] theorem setShaper_pending (n : Nat) (x : Shaper) (s : State) : (setShaper n x s).pending = s.pending := rfl
@[simp] theorem setShaper_now (n : Nat) (x : Shaper) (s : State) : (setShaper n x s).now = s.now := rfl
@[simp] theorem setShaper_fresh (n : Nat) (x : Shaper) (s : State) : (setShaper n x s).fresh = s.fresh := rfl
@[simp] theorem setShaper_out (n : Nat) (x : Shaper) (s : State) : (setShaper n x s).out = s.out := rfl
@[simp] theorem setShaper_cnt (n : Nat) (x : Shaper) (s : State) : (setShaper n x s).cnt = s.cnt := rfl
@[simp] theorem setShaper_dev (n : Nat) (x : Shaper) (s : State) : (setShaper n x s).dev = s.dev := rfl
@[simp] theorem setShaper_hif (n : Nat) (x : Shaper) (s : State) : (setShaper n x s).hif = s.hif := rfl
@[simp] theorem setShaper_fib (n : Nat) (x : Shaper) (s : State) : (setShaper n x s).fib = s.fib := rfl
@[simp] theorem setShaper_up (n : Nat) (x : Shaper) (s : State) : (setShaper n x s).up = s.up := rfl
@[simp] theorem setShaper_cls (n : Nat) (x : Shaper) (s : State) : (setShaper n x s).cls = s.cls := rfl
@[simp] theorem setShaper_tab (n : Nat) (x : Shaper) (s : State) : (setShaper n x s).tab = s.tab := rfl
@[simp] theorem setShaper_cip (n : Nat) (x : Shaper) (s : State) : (setShaper n x s).cip = s.cip := rfl
@[simp] theorem setShaper_time (n : Nat) (x : Shaper) (s : State) : (setShaper n x s).time = s.time := rfl
@[simp] theorem setShaper_prt (n : Nat) (x : Shaper) (s : State) : (setShaper n x s).prt = s.prt := rfl
@[simp] theorem setShaper_lan (n : Nat) (x : Shaper) (s : State) : (setShaper n x s).lan = s.lan := rfl
@[simp] theorem setShaper_pow (n : Nat) (x : Shaper) (s : State) : (setShaper n x s).pow = s.pow := rfl
@[simp] theorem setShaper_mem (n : Nat) (x : Shaper) (s : State) : (setShaper n x s).mem = s.mem := rfl
@[simp] theorem setShaper_obs (n : Nat) (x : Shaper) (s : State) : (setShaper n x s).obs = s.obs := rfl
@[simp] theorem setShaper_mnt (n : Nat) (x : Shaper) (s : State) : (setShaper n x s).mnt = s.mnt := rfl
@[simp] theorem setShaper_sup (n : Nat) (x : Shaper) (s : State) : (setShaper n x s).sup = s.sup := rfl
@[simp] theorem setShaper_brg (n : Nat) (x : Shaper) (s : State) : (setShaper n x s).brg = s.brg := rfl

@[simp] theorem setRx_pending (r : Nat) (x : Ring) (s : State) : (setRx r x s).pending = s.pending := rfl
@[simp] theorem setRx_now (r : Nat) (x : Ring) (s : State) : (setRx r x s).now = s.now := rfl
@[simp] theorem setRx_fresh (r : Nat) (x : Ring) (s : State) : (setRx r x s).fresh = s.fresh := rfl
@[simp] theorem setRx_out (r : Nat) (x : Ring) (s : State) : (setRx r x s).out = s.out := rfl
@[simp] theorem setRx_cnt (r : Nat) (x : Ring) (s : State) : (setRx r x s).cnt = s.cnt := rfl
@[simp] theorem setRx_dev (r : Nat) (x : Ring) (s : State) : (setRx r x s).dev = s.dev := rfl
@[simp] theorem setRx_fib (r : Nat) (x : Ring) (s : State) : (setRx r x s).fib = s.fib := rfl
@[simp] theorem setRx_up (r : Nat) (x : Ring) (s : State) : (setRx r x s).up = s.up := rfl
@[simp] theorem setRx_cls (r : Nat) (x : Ring) (s : State) : (setRx r x s).cls = s.cls := rfl
@[simp] theorem setRx_tab (r : Nat) (x : Ring) (s : State) : (setRx r x s).tab = s.tab := rfl
@[simp] theorem setRx_tm (r : Nat) (x : Ring) (s : State) : (setRx r x s).tm = s.tm := rfl
@[simp] theorem setRx_cip (r : Nat) (x : Ring) (s : State) : (setRx r x s).cip = s.cip := rfl
@[simp] theorem setRx_time (r : Nat) (x : Ring) (s : State) : (setRx r x s).time = s.time := rfl
@[simp] theorem setRx_prt (r : Nat) (x : Ring) (s : State) : (setRx r x s).prt = s.prt := rfl
@[simp] theorem setRx_lan (r : Nat) (x : Ring) (s : State) : (setRx r x s).lan = s.lan := rfl
@[simp] theorem setRx_pow (r : Nat) (x : Ring) (s : State) : (setRx r x s).pow = s.pow := rfl
@[simp] theorem setRx_mem (r : Nat) (x : Ring) (s : State) : (setRx r x s).mem = s.mem := rfl
@[simp] theorem setRx_obs (r : Nat) (x : Ring) (s : State) : (setRx r x s).obs = s.obs := rfl
@[simp] theorem setRx_mnt (r : Nat) (x : Ring) (s : State) : (setRx r x s).mnt = s.mnt := rfl
@[simp] theorem setRx_sup (r : Nat) (x : Ring) (s : State) : (setRx r x s).sup = s.sup := rfl
@[simp] theorem setRx_brg (r : Nat) (x : Ring) (s : State) : (setRx r x s).brg = s.brg := rfl

@[simp] theorem setTx_pending (r : Nat) (x : Ring) (s : State) : (setTx r x s).pending = s.pending := rfl
@[simp] theorem setTx_now (r : Nat) (x : Ring) (s : State) : (setTx r x s).now = s.now := rfl
@[simp] theorem setTx_fresh (r : Nat) (x : Ring) (s : State) : (setTx r x s).fresh = s.fresh := rfl
@[simp] theorem setTx_out (r : Nat) (x : Ring) (s : State) : (setTx r x s).out = s.out := rfl
@[simp] theorem setTx_cnt (r : Nat) (x : Ring) (s : State) : (setTx r x s).cnt = s.cnt := rfl
@[simp] theorem setTx_dev (r : Nat) (x : Ring) (s : State) : (setTx r x s).dev = s.dev := rfl
@[simp] theorem setTx_fib (r : Nat) (x : Ring) (s : State) : (setTx r x s).fib = s.fib := rfl
@[simp] theorem setTx_up (r : Nat) (x : Ring) (s : State) : (setTx r x s).up = s.up := rfl
@[simp] theorem setTx_cls (r : Nat) (x : Ring) (s : State) : (setTx r x s).cls = s.cls := rfl
@[simp] theorem setTx_tab (r : Nat) (x : Ring) (s : State) : (setTx r x s).tab = s.tab := rfl
@[simp] theorem setTx_tm (r : Nat) (x : Ring) (s : State) : (setTx r x s).tm = s.tm := rfl
@[simp] theorem setTx_cip (r : Nat) (x : Ring) (s : State) : (setTx r x s).cip = s.cip := rfl
@[simp] theorem setTx_time (r : Nat) (x : Ring) (s : State) : (setTx r x s).time = s.time := rfl
@[simp] theorem setTx_prt (r : Nat) (x : Ring) (s : State) : (setTx r x s).prt = s.prt := rfl
@[simp] theorem setTx_lan (r : Nat) (x : Ring) (s : State) : (setTx r x s).lan = s.lan := rfl
@[simp] theorem setTx_pow (r : Nat) (x : Ring) (s : State) : (setTx r x s).pow = s.pow := rfl
@[simp] theorem setTx_mem (r : Nat) (x : Ring) (s : State) : (setTx r x s).mem = s.mem := rfl
@[simp] theorem setTx_obs (r : Nat) (x : Ring) (s : State) : (setTx r x s).obs = s.obs := rfl
@[simp] theorem setTx_mnt (r : Nat) (x : Ring) (s : State) : (setTx r x s).mnt = s.mnt := rfl
@[simp] theorem setTx_sup (r : Nat) (x : Ring) (s : State) : (setTx r x s).sup = s.sup := rfl
@[simp] theorem setTx_brg (r : Nat) (x : Ring) (s : State) : (setTx r x s).brg = s.brg := rfl

@[simp] theorem setAgg_pending (i : Nat) (x : Aggregation) (s : State) : (setAgg i x s).pending = s.pending := rfl
@[simp] theorem setAgg_now (i : Nat) (x : Aggregation) (s : State) : (setAgg i x s).now = s.now := rfl
@[simp] theorem setAgg_fresh (i : Nat) (x : Aggregation) (s : State) : (setAgg i x s).fresh = s.fresh := rfl
@[simp] theorem setAgg_out (i : Nat) (x : Aggregation) (s : State) : (setAgg i x s).out = s.out := rfl
@[simp] theorem setAgg_cnt (i : Nat) (x : Aggregation) (s : State) : (setAgg i x s).cnt = s.cnt := rfl
@[simp] theorem setAgg_dev (i : Nat) (x : Aggregation) (s : State) : (setAgg i x s).dev = s.dev := rfl
@[simp] theorem setAgg_hif (i : Nat) (x : Aggregation) (s : State) : (setAgg i x s).hif = s.hif := rfl
@[simp] theorem setAgg_fib (i : Nat) (x : Aggregation) (s : State) : (setAgg i x s).fib = s.fib := rfl
@[simp] theorem setAgg_up (i : Nat) (x : Aggregation) (s : State) : (setAgg i x s).up = s.up := rfl
@[simp] theorem setAgg_cls (i : Nat) (x : Aggregation) (s : State) : (setAgg i x s).cls = s.cls := rfl
@[simp] theorem setAgg_tab (i : Nat) (x : Aggregation) (s : State) : (setAgg i x s).tab = s.tab := rfl
@[simp] theorem setAgg_tm (i : Nat) (x : Aggregation) (s : State) : (setAgg i x s).tm = s.tm := rfl
@[simp] theorem setAgg_cip (i : Nat) (x : Aggregation) (s : State) : (setAgg i x s).cip = s.cip := rfl
@[simp] theorem setAgg_time (i : Nat) (x : Aggregation) (s : State) : (setAgg i x s).time = s.time := rfl
@[simp] theorem setAgg_lan (i : Nat) (x : Aggregation) (s : State) : (setAgg i x s).lan = s.lan := rfl
@[simp] theorem setAgg_pow (i : Nat) (x : Aggregation) (s : State) : (setAgg i x s).pow = s.pow := rfl
@[simp] theorem setAgg_mem (i : Nat) (x : Aggregation) (s : State) : (setAgg i x s).mem = s.mem := rfl
@[simp] theorem setAgg_obs (i : Nat) (x : Aggregation) (s : State) : (setAgg i x s).obs = s.obs := rfl
@[simp] theorem setAgg_mnt (i : Nat) (x : Aggregation) (s : State) : (setAgg i x s).mnt = s.mnt := rfl
@[simp] theorem setAgg_sup (i : Nat) (x : Aggregation) (s : State) : (setAgg i x s).sup = s.sup := rfl
@[simp] theorem setAgg_brg (i : Nat) (x : Aggregation) (s : State) : (setAgg i x s).brg = s.brg := rfl

@[simp] theorem modSlot_pending (k : Nat) (f : Slot → Slot) (s : State) : (modSlot k f s).pending = s.pending := rfl
@[simp] theorem modSlot_now (k : Nat) (f : Slot → Slot) (s : State) : (modSlot k f s).now = s.now := rfl
@[simp] theorem modSlot_fresh (k : Nat) (f : Slot → Slot) (s : State) : (modSlot k f s).fresh = s.fresh := rfl
@[simp] theorem modSlot_out (k : Nat) (f : Slot → Slot) (s : State) : (modSlot k f s).out = s.out := rfl
@[simp] theorem modSlot_cnt (k : Nat) (f : Slot → Slot) (s : State) : (modSlot k f s).cnt = s.cnt := rfl
@[simp] theorem modSlot_dev (k : Nat) (f : Slot → Slot) (s : State) : (modSlot k f s).dev = s.dev := rfl
@[simp] theorem modSlot_hif (k : Nat) (f : Slot → Slot) (s : State) : (modSlot k f s).hif = s.hif := rfl
@[simp] theorem modSlot_fib (k : Nat) (f : Slot → Slot) (s : State) : (modSlot k f s).fib = s.fib := rfl
@[simp] theorem modSlot_up (k : Nat) (f : Slot → Slot) (s : State) : (modSlot k f s).up = s.up := rfl
@[simp] theorem modSlot_cls (k : Nat) (f : Slot → Slot) (s : State) : (modSlot k f s).cls = s.cls := rfl
@[simp] theorem modSlot_tab (k : Nat) (f : Slot → Slot) (s : State) : (modSlot k f s).tab = s.tab := rfl
@[simp] theorem modSlot_tm (k : Nat) (f : Slot → Slot) (s : State) : (modSlot k f s).tm = s.tm := rfl
@[simp] theorem modSlot_cip (k : Nat) (f : Slot → Slot) (s : State) : (modSlot k f s).cip = s.cip := rfl
@[simp] theorem modSlot_time (k : Nat) (f : Slot → Slot) (s : State) : (modSlot k f s).time = s.time := rfl
@[simp] theorem modSlot_prt (k : Nat) (f : Slot → Slot) (s : State) : (modSlot k f s).prt = s.prt := rfl
@[simp] theorem modSlot_lan (k : Nat) (f : Slot → Slot) (s : State) : (modSlot k f s).lan = s.lan := rfl
@[simp] theorem modSlot_pow (k : Nat) (f : Slot → Slot) (s : State) : (modSlot k f s).pow = s.pow := rfl
@[simp] theorem modSlot_mem (k : Nat) (f : Slot → Slot) (s : State) : (modSlot k f s).mem = s.mem := rfl
@[simp] theorem modSlot_obs (k : Nat) (f : Slot → Slot) (s : State) : (modSlot k f s).obs = s.obs := rfl
@[simp] theorem modSlot_sup (k : Nat) (f : Slot → Slot) (s : State) : (modSlot k f s).sup = s.sup := rfl
@[simp] theorem modSlot_brg (k : Nat) (f : Slot → Slot) (s : State) : (modSlot k f s).brg = s.brg := rfl

@[simp] theorem setTag_pending (k : Nat) (t : TagState) (s : State) : (setTag k t s).pending = s.pending := rfl
@[simp] theorem setTag_now (k : Nat) (t : TagState) (s : State) : (setTag k t s).now = s.now := rfl
@[simp] theorem setTag_fresh (k : Nat) (t : TagState) (s : State) : (setTag k t s).fresh = s.fresh := rfl
@[simp] theorem setTag_out (k : Nat) (t : TagState) (s : State) : (setTag k t s).out = s.out := rfl
@[simp] theorem setTag_cnt (k : Nat) (t : TagState) (s : State) : (setTag k t s).cnt = s.cnt := rfl
@[simp] theorem setTag_dev (k : Nat) (t : TagState) (s : State) : (setTag k t s).dev = s.dev := rfl
@[simp] theorem setTag_hif (k : Nat) (t : TagState) (s : State) : (setTag k t s).hif = s.hif := rfl
@[simp] theorem setTag_fib (k : Nat) (t : TagState) (s : State) : (setTag k t s).fib = s.fib := rfl
@[simp] theorem setTag_up (k : Nat) (t : TagState) (s : State) : (setTag k t s).up = s.up := rfl
@[simp] theorem setTag_tab (k : Nat) (t : TagState) (s : State) : (setTag k t s).tab = s.tab := rfl
@[simp] theorem setTag_tm (k : Nat) (t : TagState) (s : State) : (setTag k t s).tm = s.tm := rfl
@[simp] theorem setTag_cip (k : Nat) (t : TagState) (s : State) : (setTag k t s).cip = s.cip := rfl
@[simp] theorem setTag_time (k : Nat) (t : TagState) (s : State) : (setTag k t s).time = s.time := rfl
@[simp] theorem setTag_prt (k : Nat) (t : TagState) (s : State) : (setTag k t s).prt = s.prt := rfl
@[simp] theorem setTag_lan (k : Nat) (t : TagState) (s : State) : (setTag k t s).lan = s.lan := rfl
@[simp] theorem setTag_pow (k : Nat) (t : TagState) (s : State) : (setTag k t s).pow = s.pow := rfl
@[simp] theorem setTag_mem (k : Nat) (t : TagState) (s : State) : (setTag k t s).mem = s.mem := rfl
@[simp] theorem setTag_obs (k : Nat) (t : TagState) (s : State) : (setTag k t s).obs = s.obs := rfl
@[simp] theorem setTag_mnt (k : Nat) (t : TagState) (s : State) : (setTag k t s).mnt = s.mnt := rfl
@[simp] theorem setTag_sup (k : Nat) (t : TagState) (s : State) : (setTag k t s).sup = s.sup := rfl
@[simp] theorem setTag_brg (k : Nat) (t : TagState) (s : State) : (setTag k t s).brg = s.brg := rfl

@[simp] theorem mapVersions_pending (f : Rule → Byte) (s : State) : (mapVersions f s).pending = s.pending := rfl
@[simp] theorem mapVersions_now (f : Rule → Byte) (s : State) : (mapVersions f s).now = s.now := rfl
@[simp] theorem mapVersions_fresh (f : Rule → Byte) (s : State) : (mapVersions f s).fresh = s.fresh := rfl
@[simp] theorem mapVersions_out (f : Rule → Byte) (s : State) : (mapVersions f s).out = s.out := rfl
@[simp] theorem mapVersions_cnt (f : Rule → Byte) (s : State) : (mapVersions f s).cnt = s.cnt := rfl
@[simp] theorem mapVersions_dev (f : Rule → Byte) (s : State) : (mapVersions f s).dev = s.dev := rfl
@[simp] theorem mapVersions_hif (f : Rule → Byte) (s : State) : (mapVersions f s).hif = s.hif := rfl
@[simp] theorem mapVersions_fib (f : Rule → Byte) (s : State) : (mapVersions f s).fib = s.fib := rfl
@[simp] theorem mapVersions_up (f : Rule → Byte) (s : State) : (mapVersions f s).up = s.up := rfl
@[simp] theorem mapVersions_tab (f : Rule → Byte) (s : State) : (mapVersions f s).tab = s.tab := rfl
@[simp] theorem mapVersions_tm (f : Rule → Byte) (s : State) : (mapVersions f s).tm = s.tm := rfl
@[simp] theorem mapVersions_cip (f : Rule → Byte) (s : State) : (mapVersions f s).cip = s.cip := rfl
@[simp] theorem mapVersions_time (f : Rule → Byte) (s : State) : (mapVersions f s).time = s.time := rfl
@[simp] theorem mapVersions_prt (f : Rule → Byte) (s : State) : (mapVersions f s).prt = s.prt := rfl
@[simp] theorem mapVersions_lan (f : Rule → Byte) (s : State) : (mapVersions f s).lan = s.lan := rfl
@[simp] theorem mapVersions_pow (f : Rule → Byte) (s : State) : (mapVersions f s).pow = s.pow := rfl
@[simp] theorem mapVersions_mem (f : Rule → Byte) (s : State) : (mapVersions f s).mem = s.mem := rfl
@[simp] theorem mapVersions_obs (f : Rule → Byte) (s : State) : (mapVersions f s).obs = s.obs := rfl
@[simp] theorem mapVersions_mnt (f : Rule → Byte) (s : State) : (mapVersions f s).mnt = s.mnt := rfl
@[simp] theorem mapVersions_sup (f : Rule → Byte) (s : State) : (mapVersions f s).sup = s.sup := rfl
@[simp] theorem mapVersions_brg (f : Rule → Byte) (s : State) : (mapVersions f s).brg = s.brg := rfl

@[simp] theorem setMerge_pending (c : Nat) (l : List MergeEntry) (s : State) : (setMerge c l s).pending = s.pending := rfl
@[simp] theorem setMerge_now (c : Nat) (l : List MergeEntry) (s : State) : (setMerge c l s).now = s.now := rfl
@[simp] theorem setMerge_fresh (c : Nat) (l : List MergeEntry) (s : State) : (setMerge c l s).fresh = s.fresh := rfl
@[simp] theorem setMerge_out (c : Nat) (l : List MergeEntry) (s : State) : (setMerge c l s).out = s.out := rfl
@[simp] theorem setMerge_cnt (c : Nat) (l : List MergeEntry) (s : State) : (setMerge c l s).cnt = s.cnt := rfl
@[simp] theorem setMerge_dev (c : Nat) (l : List MergeEntry) (s : State) : (setMerge c l s).dev = s.dev := rfl
@[simp] theorem setMerge_hif (c : Nat) (l : List MergeEntry) (s : State) : (setMerge c l s).hif = s.hif := rfl
@[simp] theorem setMerge_fib (c : Nat) (l : List MergeEntry) (s : State) : (setMerge c l s).fib = s.fib := rfl
@[simp] theorem setMerge_up (c : Nat) (l : List MergeEntry) (s : State) : (setMerge c l s).up = s.up := rfl
@[simp] theorem setMerge_cls (c : Nat) (l : List MergeEntry) (s : State) : (setMerge c l s).cls = s.cls := rfl
@[simp] theorem setMerge_tab (c : Nat) (l : List MergeEntry) (s : State) : (setMerge c l s).tab = s.tab := rfl
@[simp] theorem setMerge_tm (c : Nat) (l : List MergeEntry) (s : State) : (setMerge c l s).tm = s.tm := rfl
@[simp] theorem setMerge_cip (c : Nat) (l : List MergeEntry) (s : State) : (setMerge c l s).cip = s.cip := rfl
@[simp] theorem setMerge_time (c : Nat) (l : List MergeEntry) (s : State) : (setMerge c l s).time = s.time := rfl
@[simp] theorem setMerge_prt (c : Nat) (l : List MergeEntry) (s : State) : (setMerge c l s).prt = s.prt := rfl
@[simp] theorem setMerge_lan (c : Nat) (l : List MergeEntry) (s : State) : (setMerge c l s).lan = s.lan := rfl
@[simp] theorem setMerge_pow (c : Nat) (l : List MergeEntry) (s : State) : (setMerge c l s).pow = s.pow := rfl
@[simp] theorem setMerge_obs (c : Nat) (l : List MergeEntry) (s : State) : (setMerge c l s).obs = s.obs := rfl
@[simp] theorem setMerge_mnt (c : Nat) (l : List MergeEntry) (s : State) : (setMerge c l s).mnt = s.mnt := rfl
@[simp] theorem setMerge_sup (c : Nat) (l : List MergeEntry) (s : State) : (setMerge c l s).sup = s.sup := rfl
@[simp] theorem setMerge_brg (c : Nat) (l : List MergeEntry) (s : State) : (setMerge c l s).brg = s.brg := rfl

@[simp] theorem setInput_pending (k i : Nat) (l : List Pkt) (s : State) : (setInput k i l s).pending = s.pending := rfl
@[simp] theorem setInput_now (k i : Nat) (l : List Pkt) (s : State) : (setInput k i l s).now = s.now := rfl
@[simp] theorem setInput_fresh (k i : Nat) (l : List Pkt) (s : State) : (setInput k i l s).fresh = s.fresh := rfl
@[simp] theorem setInput_out (k i : Nat) (l : List Pkt) (s : State) : (setInput k i l s).out = s.out := rfl
@[simp] theorem setInput_cnt (k i : Nat) (l : List Pkt) (s : State) : (setInput k i l s).cnt = s.cnt := rfl
@[simp] theorem setInput_dev (k i : Nat) (l : List Pkt) (s : State) : (setInput k i l s).dev = s.dev := rfl
@[simp] theorem setInput_hif (k i : Nat) (l : List Pkt) (s : State) : (setInput k i l s).hif = s.hif := rfl
@[simp] theorem setInput_fib (k i : Nat) (l : List Pkt) (s : State) : (setInput k i l s).fib = s.fib := rfl
@[simp] theorem setInput_up (k i : Nat) (l : List Pkt) (s : State) : (setInput k i l s).up = s.up := rfl
@[simp] theorem setInput_tab (k i : Nat) (l : List Pkt) (s : State) : (setInput k i l s).tab = s.tab := rfl
@[simp] theorem setInput_tm (k i : Nat) (l : List Pkt) (s : State) : (setInput k i l s).tm = s.tm := rfl
@[simp] theorem setInput_cip (k i : Nat) (l : List Pkt) (s : State) : (setInput k i l s).cip = s.cip := rfl
@[simp] theorem setInput_time (k i : Nat) (l : List Pkt) (s : State) : (setInput k i l s).time = s.time := rfl
@[simp] theorem setInput_prt (k i : Nat) (l : List Pkt) (s : State) : (setInput k i l s).prt = s.prt := rfl
@[simp] theorem setInput_lan (k i : Nat) (l : List Pkt) (s : State) : (setInput k i l s).lan = s.lan := rfl
@[simp] theorem setInput_pow (k i : Nat) (l : List Pkt) (s : State) : (setInput k i l s).pow = s.pow := rfl
@[simp] theorem setInput_mem (k i : Nat) (l : List Pkt) (s : State) : (setInput k i l s).mem = s.mem := rfl
@[simp] theorem setInput_obs (k i : Nat) (l : List Pkt) (s : State) : (setInput k i l s).obs = s.obs := rfl
@[simp] theorem setInput_mnt (k i : Nat) (l : List Pkt) (s : State) : (setInput k i l s).mnt = s.mnt := rfl
@[simp] theorem setInput_sup (k i : Nat) (l : List Pkt) (s : State) : (setInput k i l s).sup = s.sup := rfl
@[simp] theorem setInput_brg (k i : Nat) (l : List Pkt) (s : State) : (setInput k i l s).brg = s.brg := rfl

@[simp] theorem setRef_pending (fid : Nat) (r : FrameRef) (s : State) : (setRef fid r s).pending = s.pending := rfl
@[simp] theorem setRef_now (fid : Nat) (r : FrameRef) (s : State) : (setRef fid r s).now = s.now := rfl
@[simp] theorem setRef_fresh (fid : Nat) (r : FrameRef) (s : State) : (setRef fid r s).fresh = s.fresh := rfl
@[simp] theorem setRef_out (fid : Nat) (r : FrameRef) (s : State) : (setRef fid r s).out = s.out := rfl
@[simp] theorem setRef_cnt (fid : Nat) (r : FrameRef) (s : State) : (setRef fid r s).cnt = s.cnt := rfl
@[simp] theorem setRef_dev (fid : Nat) (r : FrameRef) (s : State) : (setRef fid r s).dev = s.dev := rfl
@[simp] theorem setRef_hif (fid : Nat) (r : FrameRef) (s : State) : (setRef fid r s).hif = s.hif := rfl
@[simp] theorem setRef_fib (fid : Nat) (r : FrameRef) (s : State) : (setRef fid r s).fib = s.fib := rfl
@[simp] theorem setRef_up (fid : Nat) (r : FrameRef) (s : State) : (setRef fid r s).up = s.up := rfl
@[simp] theorem setRef_cls (fid : Nat) (r : FrameRef) (s : State) : (setRef fid r s).cls = s.cls := rfl
@[simp] theorem setRef_tab (fid : Nat) (r : FrameRef) (s : State) : (setRef fid r s).tab = s.tab := rfl
@[simp] theorem setRef_cip (fid : Nat) (r : FrameRef) (s : State) : (setRef fid r s).cip = s.cip := rfl
@[simp] theorem setRef_time (fid : Nat) (r : FrameRef) (s : State) : (setRef fid r s).time = s.time := rfl
@[simp] theorem setRef_prt (fid : Nat) (r : FrameRef) (s : State) : (setRef fid r s).prt = s.prt := rfl
@[simp] theorem setRef_lan (fid : Nat) (r : FrameRef) (s : State) : (setRef fid r s).lan = s.lan := rfl
@[simp] theorem setRef_pow (fid : Nat) (r : FrameRef) (s : State) : (setRef fid r s).pow = s.pow := rfl
@[simp] theorem setRef_mem (fid : Nat) (r : FrameRef) (s : State) : (setRef fid r s).mem = s.mem := rfl
@[simp] theorem setRef_obs (fid : Nat) (r : FrameRef) (s : State) : (setRef fid r s).obs = s.obs := rfl
@[simp] theorem setRef_mnt (fid : Nat) (r : FrameRef) (s : State) : (setRef fid r s).mnt = s.mnt := rfl
@[simp] theorem setRef_sup (fid : Nat) (r : FrameRef) (s : State) : (setRef fid r s).sup = s.sup := rfl
@[simp] theorem setRef_brg (fid : Nat) (r : FrameRef) (s : State) : (setRef fid r s).brg = s.brg := rfl

@[simp] theorem setFreeDescriptors_pending (e n : Nat) (s : State) : (setFreeDescriptors e n s).pending = s.pending := rfl
@[simp] theorem setFreeDescriptors_now (e n : Nat) (s : State) : (setFreeDescriptors e n s).now = s.now := rfl
@[simp] theorem setFreeDescriptors_fresh (e n : Nat) (s : State) : (setFreeDescriptors e n s).fresh = s.fresh := rfl
@[simp] theorem setFreeDescriptors_out (e n : Nat) (s : State) : (setFreeDescriptors e n s).out = s.out := rfl
@[simp] theorem setFreeDescriptors_cnt (e n : Nat) (s : State) : (setFreeDescriptors e n s).cnt = s.cnt := rfl
@[simp] theorem setFreeDescriptors_dev (e n : Nat) (s : State) : (setFreeDescriptors e n s).dev = s.dev := rfl
@[simp] theorem setFreeDescriptors_hif (e n : Nat) (s : State) : (setFreeDescriptors e n s).hif = s.hif := rfl
@[simp] theorem setFreeDescriptors_fib (e n : Nat) (s : State) : (setFreeDescriptors e n s).fib = s.fib := rfl
@[simp] theorem setFreeDescriptors_up (e n : Nat) (s : State) : (setFreeDescriptors e n s).up = s.up := rfl
@[simp] theorem setFreeDescriptors_cls (e n : Nat) (s : State) : (setFreeDescriptors e n s).cls = s.cls := rfl
@[simp] theorem setFreeDescriptors_tab (e n : Nat) (s : State) : (setFreeDescriptors e n s).tab = s.tab := rfl
@[simp] theorem setFreeDescriptors_tm (e n : Nat) (s : State) : (setFreeDescriptors e n s).tm = s.tm := rfl
@[simp] theorem setFreeDescriptors_time (e n : Nat) (s : State) : (setFreeDescriptors e n s).time = s.time := rfl
@[simp] theorem setFreeDescriptors_prt (e n : Nat) (s : State) : (setFreeDescriptors e n s).prt = s.prt := rfl
@[simp] theorem setFreeDescriptors_lan (e n : Nat) (s : State) : (setFreeDescriptors e n s).lan = s.lan := rfl
@[simp] theorem setFreeDescriptors_pow (e n : Nat) (s : State) : (setFreeDescriptors e n s).pow = s.pow := rfl
@[simp] theorem setFreeDescriptors_mem (e n : Nat) (s : State) : (setFreeDescriptors e n s).mem = s.mem := rfl
@[simp] theorem setFreeDescriptors_obs (e n : Nat) (s : State) : (setFreeDescriptors e n s).obs = s.obs := rfl
@[simp] theorem setFreeDescriptors_mnt (e n : Nat) (s : State) : (setFreeDescriptors e n s).mnt = s.mnt := rfl
@[simp] theorem setFreeDescriptors_sup (e n : Nat) (s : State) : (setFreeDescriptors e n s).sup = s.sup := rfl
@[simp] theorem setFreeDescriptors_brg (e n : Nat) (s : State) : (setFreeDescriptors e n s).brg = s.brg := rfl

@[simp] theorem setRoot_pending (r : Nat) (v : BitVec 256) (s : State) : (setRoot r v s).pending = s.pending := rfl
@[simp] theorem setRoot_now (r : Nat) (v : BitVec 256) (s : State) : (setRoot r v s).now = s.now := rfl
@[simp] theorem setRoot_fresh (r : Nat) (v : BitVec 256) (s : State) : (setRoot r v s).fresh = s.fresh := rfl
@[simp] theorem setRoot_out (r : Nat) (v : BitVec 256) (s : State) : (setRoot r v s).out = s.out := rfl
@[simp] theorem setRoot_cnt (r : Nat) (v : BitVec 256) (s : State) : (setRoot r v s).cnt = s.cnt := rfl
@[simp] theorem setRoot_dev (r : Nat) (v : BitVec 256) (s : State) : (setRoot r v s).dev = s.dev := rfl
@[simp] theorem setRoot_hif (r : Nat) (v : BitVec 256) (s : State) : (setRoot r v s).hif = s.hif := rfl
@[simp] theorem setRoot_fib (r : Nat) (v : BitVec 256) (s : State) : (setRoot r v s).fib = s.fib := rfl
@[simp] theorem setRoot_up (r : Nat) (v : BitVec 256) (s : State) : (setRoot r v s).up = s.up := rfl
@[simp] theorem setRoot_cls (r : Nat) (v : BitVec 256) (s : State) : (setRoot r v s).cls = s.cls := rfl
@[simp] theorem setRoot_tab (r : Nat) (v : BitVec 256) (s : State) : (setRoot r v s).tab = s.tab := rfl
@[simp] theorem setRoot_tm (r : Nat) (v : BitVec 256) (s : State) : (setRoot r v s).tm = s.tm := rfl
@[simp] theorem setRoot_time (r : Nat) (v : BitVec 256) (s : State) : (setRoot r v s).time = s.time := rfl
@[simp] theorem setRoot_prt (r : Nat) (v : BitVec 256) (s : State) : (setRoot r v s).prt = s.prt := rfl
@[simp] theorem setRoot_lan (r : Nat) (v : BitVec 256) (s : State) : (setRoot r v s).lan = s.lan := rfl
@[simp] theorem setRoot_pow (r : Nat) (v : BitVec 256) (s : State) : (setRoot r v s).pow = s.pow := rfl
@[simp] theorem setRoot_mem (r : Nat) (v : BitVec 256) (s : State) : (setRoot r v s).mem = s.mem := rfl
@[simp] theorem setRoot_obs (r : Nat) (v : BitVec 256) (s : State) : (setRoot r v s).obs = s.obs := rfl
@[simp] theorem setRoot_mnt (r : Nat) (v : BitVec 256) (s : State) : (setRoot r v s).mnt = s.mnt := rfl
@[simp] theorem setRoot_sup (r : Nat) (v : BitVec 256) (s : State) : (setRoot r v s).sup = s.sup := rfl
@[simp] theorem setRoot_brg (r : Nat) (v : BitVec 256) (s : State) : (setRoot r v s).brg = s.brg := rfl

@[simp] theorem setStream_pending (k : Nat) (x : Stream) (s : State) : (setStream k x s).pending = s.pending := rfl
@[simp] theorem setStream_now (k : Nat) (x : Stream) (s : State) : (setStream k x s).now = s.now := rfl
@[simp] theorem setStream_fresh (k : Nat) (x : Stream) (s : State) : (setStream k x s).fresh = s.fresh := rfl
@[simp] theorem setStream_out (k : Nat) (x : Stream) (s : State) : (setStream k x s).out = s.out := rfl
@[simp] theorem setStream_cnt (k : Nat) (x : Stream) (s : State) : (setStream k x s).cnt = s.cnt := rfl
@[simp] theorem setStream_dev (k : Nat) (x : Stream) (s : State) : (setStream k x s).dev = s.dev := rfl
@[simp] theorem setStream_hif (k : Nat) (x : Stream) (s : State) : (setStream k x s).hif = s.hif := rfl
@[simp] theorem setStream_fib (k : Nat) (x : Stream) (s : State) : (setStream k x s).fib = s.fib := rfl
@[simp] theorem setStream_up (k : Nat) (x : Stream) (s : State) : (setStream k x s).up = s.up := rfl
@[simp] theorem setStream_cls (k : Nat) (x : Stream) (s : State) : (setStream k x s).cls = s.cls := rfl
@[simp] theorem setStream_tab (k : Nat) (x : Stream) (s : State) : (setStream k x s).tab = s.tab := rfl
@[simp] theorem setStream_tm (k : Nat) (x : Stream) (s : State) : (setStream k x s).tm = s.tm := rfl
@[simp] theorem setStream_cip (k : Nat) (x : Stream) (s : State) : (setStream k x s).cip = s.cip := rfl
@[simp] theorem setStream_time (k : Nat) (x : Stream) (s : State) : (setStream k x s).time = s.time := rfl
@[simp] theorem setStream_prt (k : Nat) (x : Stream) (s : State) : (setStream k x s).prt = s.prt := rfl
@[simp] theorem setStream_lan (k : Nat) (x : Stream) (s : State) : (setStream k x s).lan = s.lan := rfl
@[simp] theorem setStream_pow (k : Nat) (x : Stream) (s : State) : (setStream k x s).pow = s.pow := rfl
@[simp] theorem setStream_mem (k : Nat) (x : Stream) (s : State) : (setStream k x s).mem = s.mem := rfl
@[simp] theorem setStream_mnt (k : Nat) (x : Stream) (s : State) : (setStream k x s).mnt = s.mnt := rfl
@[simp] theorem setStream_sup (k : Nat) (x : Stream) (s : State) : (setStream k x s).sup = s.sup := rfl
@[simp] theorem setStream_brg (k : Nat) (x : Stream) (s : State) : (setStream k x s).brg = s.brg := rfl

@[simp] theorem setBridge_pending (n : Nat) (b : Bridge) (s : State) : (setBridge n b s).pending = s.pending := rfl
@[simp] theorem setBridge_now (n : Nat) (b : Bridge) (s : State) : (setBridge n b s).now = s.now := rfl
@[simp] theorem setBridge_fresh (n : Nat) (b : Bridge) (s : State) : (setBridge n b s).fresh = s.fresh := rfl
@[simp] theorem setBridge_out (n : Nat) (b : Bridge) (s : State) : (setBridge n b s).out = s.out := rfl
@[simp] theorem setBridge_cnt (n : Nat) (b : Bridge) (s : State) : (setBridge n b s).cnt = s.cnt := rfl
@[simp] theorem setBridge_dev (n : Nat) (b : Bridge) (s : State) : (setBridge n b s).dev = s.dev := rfl
@[simp] theorem setBridge_hif (n : Nat) (b : Bridge) (s : State) : (setBridge n b s).hif = s.hif := rfl
@[simp] theorem setBridge_fib (n : Nat) (b : Bridge) (s : State) : (setBridge n b s).fib = s.fib := rfl
@[simp] theorem setBridge_up (n : Nat) (b : Bridge) (s : State) : (setBridge n b s).up = s.up := rfl
@[simp] theorem setBridge_cls (n : Nat) (b : Bridge) (s : State) : (setBridge n b s).cls = s.cls := rfl
@[simp] theorem setBridge_tab (n : Nat) (b : Bridge) (s : State) : (setBridge n b s).tab = s.tab := rfl
@[simp] theorem setBridge_tm (n : Nat) (b : Bridge) (s : State) : (setBridge n b s).tm = s.tm := rfl
@[simp] theorem setBridge_cip (n : Nat) (b : Bridge) (s : State) : (setBridge n b s).cip = s.cip := rfl
@[simp] theorem setBridge_time (n : Nat) (b : Bridge) (s : State) : (setBridge n b s).time = s.time := rfl
@[simp] theorem setBridge_prt (n : Nat) (b : Bridge) (s : State) : (setBridge n b s).prt = s.prt := rfl
@[simp] theorem setBridge_lan (n : Nat) (b : Bridge) (s : State) : (setBridge n b s).lan = s.lan := rfl
@[simp] theorem setBridge_pow (n : Nat) (b : Bridge) (s : State) : (setBridge n b s).pow = s.pow := rfl
@[simp] theorem setBridge_mem (n : Nat) (b : Bridge) (s : State) : (setBridge n b s).mem = s.mem := rfl
@[simp] theorem setBridge_obs (n : Nat) (b : Bridge) (s : State) : (setBridge n b s).obs = s.obs := rfl
@[simp] theorem setBridge_mnt (n : Nat) (b : Bridge) (s : State) : (setBridge n b s).mnt = s.mnt := rfl
@[simp] theorem setBridge_sup (n : Nat) (b : Bridge) (s : State) : (setBridge n b s).sup = s.sup := rfl

@[simp] theorem setGpio_pending (dir out : Word16) (s : State) : (setGpio dir out s).pending = s.pending := rfl
@[simp] theorem setGpio_now (dir out : Word16) (s : State) : (setGpio dir out s).now = s.now := rfl
@[simp] theorem setGpio_fresh (dir out : Word16) (s : State) : (setGpio dir out s).fresh = s.fresh := rfl
@[simp] theorem setGpio_out (dir out : Word16) (s : State) : (setGpio dir out s).out = s.out := rfl
@[simp] theorem setGpio_cnt (dir out : Word16) (s : State) : (setGpio dir out s).cnt = s.cnt := rfl
@[simp] theorem setGpio_dev (dir out : Word16) (s : State) : (setGpio dir out s).dev = s.dev := rfl
@[simp] theorem setGpio_fib (dir out : Word16) (s : State) : (setGpio dir out s).fib = s.fib := rfl
@[simp] theorem setGpio_up (dir out : Word16) (s : State) : (setGpio dir out s).up = s.up := rfl
@[simp] theorem setGpio_cls (dir out : Word16) (s : State) : (setGpio dir out s).cls = s.cls := rfl
@[simp] theorem setGpio_tab (dir out : Word16) (s : State) : (setGpio dir out s).tab = s.tab := rfl
@[simp] theorem setGpio_tm (dir out : Word16) (s : State) : (setGpio dir out s).tm = s.tm := rfl
@[simp] theorem setGpio_cip (dir out : Word16) (s : State) : (setGpio dir out s).cip = s.cip := rfl
@[simp] theorem setGpio_time (dir out : Word16) (s : State) : (setGpio dir out s).time = s.time := rfl
@[simp] theorem setGpio_prt (dir out : Word16) (s : State) : (setGpio dir out s).prt = s.prt := rfl
@[simp] theorem setGpio_lan (dir out : Word16) (s : State) : (setGpio dir out s).lan = s.lan := rfl
@[simp] theorem setGpio_pow (dir out : Word16) (s : State) : (setGpio dir out s).pow = s.pow := rfl
@[simp] theorem setGpio_mem (dir out : Word16) (s : State) : (setGpio dir out s).mem = s.mem := rfl
@[simp] theorem setGpio_obs (dir out : Word16) (s : State) : (setGpio dir out s).obs = s.obs := rfl
@[simp] theorem setGpio_mnt (dir out : Word16) (s : State) : (setGpio dir out s).mnt = s.mnt := rfl
@[simp] theorem setGpio_sup (dir out : Word16) (s : State) : (setGpio dir out s).sup = s.sup := rfl
@[simp] theorem setGpio_brg (dir out : Word16) (s : State) : (setGpio dir out s).brg = s.brg := rfl

@[simp] theorem setBelow_pending (o : Option Nat) (s : State) : (setBelow o s).pending = s.pending := rfl
@[simp] theorem setBelow_now (o : Option Nat) (s : State) : (setBelow o s).now = s.now := rfl
@[simp] theorem setBelow_fresh (o : Option Nat) (s : State) : (setBelow o s).fresh = s.fresh := rfl
@[simp] theorem setBelow_out (o : Option Nat) (s : State) : (setBelow o s).out = s.out := rfl
@[simp] theorem setBelow_cnt (o : Option Nat) (s : State) : (setBelow o s).cnt = s.cnt := rfl
@[simp] theorem setBelow_dev (o : Option Nat) (s : State) : (setBelow o s).dev = s.dev := rfl
@[simp] theorem setBelow_hif (o : Option Nat) (s : State) : (setBelow o s).hif = s.hif := rfl
@[simp] theorem setBelow_fib (o : Option Nat) (s : State) : (setBelow o s).fib = s.fib := rfl
@[simp] theorem setBelow_up (o : Option Nat) (s : State) : (setBelow o s).up = s.up := rfl
@[simp] theorem setBelow_cls (o : Option Nat) (s : State) : (setBelow o s).cls = s.cls := rfl
@[simp] theorem setBelow_tab (o : Option Nat) (s : State) : (setBelow o s).tab = s.tab := rfl
@[simp] theorem setBelow_tm (o : Option Nat) (s : State) : (setBelow o s).tm = s.tm := rfl
@[simp] theorem setBelow_cip (o : Option Nat) (s : State) : (setBelow o s).cip = s.cip := rfl
@[simp] theorem setBelow_time (o : Option Nat) (s : State) : (setBelow o s).time = s.time := rfl
@[simp] theorem setBelow_prt (o : Option Nat) (s : State) : (setBelow o s).prt = s.prt := rfl
@[simp] theorem setBelow_lan (o : Option Nat) (s : State) : (setBelow o s).lan = s.lan := rfl
@[simp] theorem setBelow_mem (o : Option Nat) (s : State) : (setBelow o s).mem = s.mem := rfl
@[simp] theorem setBelow_obs (o : Option Nat) (s : State) : (setBelow o s).obs = s.obs := rfl
@[simp] theorem setBelow_mnt (o : Option Nat) (s : State) : (setBelow o s).mnt = s.mnt := rfl
@[simp] theorem setBelow_sup (o : Option Nat) (s : State) : (setBelow o s).sup = s.sup := rfl
@[simp] theorem setBelow_brg (o : Option Nat) (s : State) : (setBelow o s).brg = s.brg := rfl

@[simp] theorem setObsCounter_pending (i k : Nat) (c : ObsCounter) (s : State) : (setObsCounter i k c s).pending = s.pending := rfl
@[simp] theorem setObsCounter_now (i k : Nat) (c : ObsCounter) (s : State) : (setObsCounter i k c s).now = s.now := rfl
@[simp] theorem setObsCounter_fresh (i k : Nat) (c : ObsCounter) (s : State) : (setObsCounter i k c s).fresh = s.fresh := rfl
@[simp] theorem setObsCounter_out (i k : Nat) (c : ObsCounter) (s : State) : (setObsCounter i k c s).out = s.out := rfl
@[simp] theorem setObsCounter_cnt (i k : Nat) (c : ObsCounter) (s : State) : (setObsCounter i k c s).cnt = s.cnt := rfl
@[simp] theorem setObsCounter_dev (i k : Nat) (c : ObsCounter) (s : State) : (setObsCounter i k c s).dev = s.dev := rfl
@[simp] theorem setObsCounter_hif (i k : Nat) (c : ObsCounter) (s : State) : (setObsCounter i k c s).hif = s.hif := rfl
@[simp] theorem setObsCounter_fib (i k : Nat) (c : ObsCounter) (s : State) : (setObsCounter i k c s).fib = s.fib := rfl
@[simp] theorem setObsCounter_up (i k : Nat) (c : ObsCounter) (s : State) : (setObsCounter i k c s).up = s.up := rfl
@[simp] theorem setObsCounter_cls (i k : Nat) (c : ObsCounter) (s : State) : (setObsCounter i k c s).cls = s.cls := rfl
@[simp] theorem setObsCounter_tab (i k : Nat) (c : ObsCounter) (s : State) : (setObsCounter i k c s).tab = s.tab := rfl
@[simp] theorem setObsCounter_tm (i k : Nat) (c : ObsCounter) (s : State) : (setObsCounter i k c s).tm = s.tm := rfl
@[simp] theorem setObsCounter_cip (i k : Nat) (c : ObsCounter) (s : State) : (setObsCounter i k c s).cip = s.cip := rfl
@[simp] theorem setObsCounter_time (i k : Nat) (c : ObsCounter) (s : State) : (setObsCounter i k c s).time = s.time := rfl
@[simp] theorem setObsCounter_prt (i k : Nat) (c : ObsCounter) (s : State) : (setObsCounter i k c s).prt = s.prt := rfl
@[simp] theorem setObsCounter_lan (i k : Nat) (c : ObsCounter) (s : State) : (setObsCounter i k c s).lan = s.lan := rfl
@[simp] theorem setObsCounter_pow (i k : Nat) (c : ObsCounter) (s : State) : (setObsCounter i k c s).pow = s.pow := rfl
@[simp] theorem setObsCounter_mem (i k : Nat) (c : ObsCounter) (s : State) : (setObsCounter i k c s).mem = s.mem := rfl
@[simp] theorem setObsCounter_mnt (i k : Nat) (c : ObsCounter) (s : State) : (setObsCounter i k c s).mnt = s.mnt := rfl
@[simp] theorem setObsCounter_sup (i k : Nat) (c : ObsCounter) (s : State) : (setObsCounter i k c s).sup = s.sup := rfl
@[simp] theorem setObsCounter_brg (i k : Nat) (c : ObsCounter) (s : State) : (setObsCounter i k c s).brg = s.brg := rfl

@[simp] theorem want_pending (d : Nat) (s : State) : (want d s).pending = s.pending := by unfold want; split <;> rfl
@[simp] theorem want_now (d : Nat) (s : State) : (want d s).now = s.now := by unfold want; split <;> rfl
@[simp] theorem want_fresh (d : Nat) (s : State) : (want d s).fresh = s.fresh := by unfold want; split <;> rfl
@[simp] theorem want_out (d : Nat) (s : State) : (want d s).out = s.out := by unfold want; split <;> rfl
@[simp] theorem want_cnt (d : Nat) (s : State) : (want d s).cnt = s.cnt := by unfold want; split <;> rfl
@[simp] theorem want_dev (d : Nat) (s : State) : (want d s).dev = s.dev := by unfold want; split <;> rfl
@[simp] theorem want_hif (d : Nat) (s : State) : (want d s).hif = s.hif := by unfold want; split <;> rfl
@[simp] theorem want_fib (d : Nat) (s : State) : (want d s).fib = s.fib := by unfold want; split <;> rfl
@[simp] theorem want_up (d : Nat) (s : State) : (want d s).up = s.up := by unfold want; split <;> rfl
@[simp] theorem want_cls (d : Nat) (s : State) : (want d s).cls = s.cls := by unfold want; split <;> rfl
@[simp] theorem want_tab (d : Nat) (s : State) : (want d s).tab = s.tab := by unfold want; split <;> rfl
@[simp] theorem want_tm (d : Nat) (s : State) : (want d s).tm = s.tm := by unfold want; split <;> rfl
@[simp] theorem want_cip (d : Nat) (s : State) : (want d s).cip = s.cip := by unfold want; split <;> rfl
@[simp] theorem want_time (d : Nat) (s : State) : (want d s).time = s.time := by unfold want; split <;> rfl
@[simp] theorem want_prt (d : Nat) (s : State) : (want d s).prt = s.prt := by unfold want; split <;> rfl
@[simp] theorem want_lan (d : Nat) (s : State) : (want d s).lan = s.lan := by unfold want; split <;> rfl
@[simp] theorem want_mem (d : Nat) (s : State) : (want d s).mem = s.mem := by unfold want; split <;> rfl
@[simp] theorem want_obs (d : Nat) (s : State) : (want d s).obs = s.obs := by unfold want; split <;> rfl
@[simp] theorem want_mnt (d : Nat) (s : State) : (want d s).mnt = s.mnt := by unfold want; split <;> rfl
@[simp] theorem want_sup (d : Nat) (s : State) : (want d s).sup = s.sup := by unfold want; split <;> rfl
@[simp] theorem want_brg (d : Nat) (s : State) : (want d s).brg = s.brg := by unfold want; split <;> rfl

/-! ### A unit read after a change -/

theorem rxOf_modRx (ch k : Nat) (f : RxChan → RxChan) (s : State) :
    rxOf (modRx ch f s) k = if k = ch then f (rxOf s ch) else rxOf s k := tget_tset ..

theorem actOf_modAct (ch k : Nat) (f : ActChan → ActChan) (s : State) :
    actOf (modAct ch f s) k = if k = ch then f (actOf s ch) else actOf s k := tget_tset ..

theorem groupOf_modGroup (g k : Nat) (f : Group → Group) (s : State) :
    groupOf (modGroup g f s) k = if k = g then f (groupOf s g) else groupOf s k := tget_tset ..

theorem txOf_modTx (ch k : Nat) (f : TxChan → TxChan) (s : State) :
    txOf (modTx ch f s) k = if k = ch then f (txOf s ch) else txOf s k := tget_tset ..

theorem portOf_modPort (p k : Nat) (f : Port → Port) (s : State) :
    portOf (modPort p f s) k = if k = p then f (portOf s p) else portOf s k := tget_tset ..

theorem laneOf_modLane (l k : Nat) (f : Lane → Lane) (s : State) :
    laneOf (modLane l f s) k = if k = l then f (laneOf s l) else laneOf s k := tget_tset ..

theorem queueOf_modQueue (q k : Nat) (f : Queue → Queue) (s : State) :
    queueOf (modQueue q f s) k = if k = q then f (queueOf s q) else queueOf s k := tget_tset ..

theorem pauseOf_modPause (p k : Nat) (f : PauseCfg → PauseCfg) (s : State) :
    pauseOf (modPause p f s) k = if k = p then f (pauseOf s p) else pauseOf s k := tget_tset ..

theorem macsecOf_modMacsec (p k : Nat) (f : Macsec → Macsec) (s : State) :
    macsecOf (modMacsec p f s) k = if k = p then f (macsecOf s p) else macsecOf s k := tget_tset ..

theorem pipeOf_modPipe (p k : Nat) (f : Pipe → Pipe) (s : State) :
    pipeOf (modPipe p f s) k = if k = p then f (pipeOf s p) else pipeOf s k := tget_tset ..

theorem regionOf_modRegion (r k : Nat) (f : Region → Region) (s : State) :
    regionOf (modRegion r f s) k = if k = r then f (regionOf s r) else regionOf s k := tget_tset ..

theorem detectOf_modDetect (d k : Nat) (f : Detect → Detect) (s : State) :
    detectOf (modDetect d f s) k = if k = d then f (detectOf s d) else detectOf s k := tget_tset ..

theorem sensorOf_modSensor (d k : Nat) (f : Sensor → Sensor) (s : State) :
    sensorOf (modSensor d f s) k = if k = d then f (sensorOf s d) else sensorOf s k := tget_tset ..

theorem bankOf_modBank (g k : Nat) (f : Bank → Bank) (s : State) :
    bankOf (modBank g f s) k = if k = g then f (bankOf s g) else bankOf s k := tget_tset ..

theorem domainOf_modDomain (d k : Nat) (f : Domain → Domain) (s : State) :
    domainOf (modDomain d f s) k = if k = d then f (domainOf s d) else domainOf s k := tget_tset ..

theorem policerOf_setPolicer (n k : Nat) (x : Policer) (s : State) :
    policerOf (setPolicer n x s) k = if k = n then x else policerOf s k := tget_tset ..

theorem shaperOf_setShaper (n k : Nat) (x : Shaper) (s : State) :
    shaperOf (setShaper n x s) k = if k = n then x else shaperOf s k := tget_tset ..

theorem rxRing_setRx (r k : Nat) (x : Ring) (s : State) :
    rxRing (setRx r x s) k = if k = r then x else rxRing s k := tget_tset ..

theorem txRing_setTx (r k : Nat) (x : Ring) (s : State) :
    txRing (setTx r x s) k = if k = r then x else txRing s k := tget_tset ..

theorem vecOf_setVec (v k : Nat) (x : MsixVec) (s : State) :
    vecOf (setVec v x s) k = if k = v then x else vecOf s k := tget_tset ..

theorem aggOf_setAgg (i k : Nat) (x : Aggregation) (s : State) :
    aggOf (setAgg i x s) k = if k = i then x else aggOf s k := tget_tset ..

theorem servoOf_modServo (d e : TimeDomain) (f : Servo → Servo) (s : State) :
    servoOf (modServo d f s) e = if e = d then f (servoOf s d) else servoOf s e := by
  cases d <;> cases e <;> rfl

theorem bridgeOf_storeBridge (n k : Nat) (b : Bridge) (s : State) :
    bridgeOf (storeBridge n b s) k = if k = n then b else bridgeOf s k := tget_tset ..

/-- What a store of a bridge's counters leaves of them: its positions, whatever time it was full or not empty. -/
theorem occupied_setBridge (n : Nat) (b : Bridge) (s : State) :
    (bridgeOf (setBridge n b s) n).occupied = b.occupied := by
  simp [setBridge, bridgeOf_storeBridge, Bridge.occupied]

theorem refOf_setRef (fid k : Nat) (r : FrameRef) (s : State) :
    refOf (setRef fid r s) k = if k = fid then r else refOf s k := tget_tset ..

theorem mergeOf_setMerge (c k : Nat) (l : List MergeEntry) (s : State) :
    mergeOf (setMerge c l s) k = if k = c then l else mergeOf s k := tget_tset ..

theorem freeDescriptors_setFreeDescriptors (e k n : Nat) (s : State) :
    freeDescriptors (setFreeDescriptors e n s) k = if k = e then n else freeDescriptors s k := tget_tset ..

theorem streamOf_setStream (j k : Nat) (x : Stream) (s : State) :
    streamOf (setStream j x s) k = if k = j then x else streamOf s k := tget_tset ..

theorem inputList_setInput_self (k i : Nat) (l : List Pkt) (s : State) :
    inputList (setInput k i l s) k i = l := tget_tset_self ..

/-! ### Counters -/

theorem count_bump (k j n : Nat) (s : State) :
    (bump k n s).count j = if j = k then s.count k + n else s.count j := tget_tset ..

theorem count_setCount (k j n : Nat) (s : State) :
    (setCount k n s).count j = if j = k then n else s.count j := tget_tset ..

/-- Counters of different rules, rows or units are different. -/
theorem ck_inj {r q i j u v : Nat} (hi : i < 256) (hj : j < 256) (hu : u < 16777216) (hv : v < 16777216)
    (h : ck r i u = ck q j v) : r = q ∧ i = j ∧ u = v := by
  unfold ck at h
  omega

end Sys2Proof.Machine
end

