-- ==== Sys2Proof/WellFormed.lean ====
section
/-! DEFINITION. Well-formed commands: operands that name a unit, an offset or an address the device has, and
bytes of the lengths the manual gives. A command that is not well formed is no command of the device; exec
gives it a meaning all the same, and no statement rests on one. -/

namespace Sys2Proof

/-- A word of BAR2 (R400, R613). -/
def regOk (off : Nat) : Bool := decide (off < 65536) && decide (off % 4 = 0)

/-- Bits of a downstream frame at the line rate: 125 µs (R46). -/
def frameBits : Nat := 12441600

/-- A mark that exists (R130, R269). -/
def RcField.wf : RcField → Bool
  | .stagingHigh a => decide (a < 16384)
  | .queueOccupancy q | .queueSojourn q => decide (q < 1024)
  | .skewHigh _ | .parseSteps _ | .offsetHigh _ | .snrLow _ | .wakeStall _ | .pipeOccupancy _ | .vinHigh
  | .vinLow => true

/-- An entry that exists (R187, R204). -/
def IpfixEntry.wf : IpfixEntry → Bool
  | .exactMatch _ i => decide (i < 131072)
  | .rule i => decide (i < 16384)

/-- Bytes, bits and codewords lie within a frame (R46, R63). -/
def RxFrame.wf (f : RxFrame) : Bool :=
  decide (8 * f.bytes.length ≤ frameBits) && f.flips.all (fun n => decide (n < frameBits))
    && f.failed.all (fun n => decide (n < 480))

def Instr.wf : Instr → Bool
  | .mailboxWrite _ off data => decide (1 ≤ data.length) && decide (off + data.length ≤ 4096)
  | .registerWrite off _ => regOk off
  | .registerLowWordWrite off _ => regOk off
  | .registerLowWordRead off => regOk off
  | .rcFieldRead f _ => f.wf
  | .commandDeadlineExpiry _ items _ => decide (items ≤ 2048)
  | .thermalConversion k t l => ((k, t) :: l).all (fun e => decide (-32768 ≤ e.2) && decide (e.2 < 32768))
  | .todInMessage msg _ => decide (msg.length = 16)
  | .clientFrameReceive _ frame _ _ => decide (4 < frame.length)
  | .huntMatch _ offset _ => decide (offset < frameBits)
  | .downstreamFrame _ f => f.wf
  | .stagingAdmit alloc => decide (alloc < 16384)
  | .agingVisit _ index => decide (index < 131072)
  | .sojournCheck q => decide (q < 1024)
  | .spillReadback q => decide (q < 640)
  | .gateHoldTest q => decide (q < 128)
  | .hostTxFetch _ desc _ => decide (desc.length = 32)
  | .scrubRead _ addr _ _ => decide (addr < 8053063680) && decide (addr % 8 = 0)
  | .eccFilterExpiry _ addr => decide (addr < 8053063680) && decide (addr % 8 = 0)
  | .restoration _ addr _ => decide (addr < 8053063680) && decide (addr % 8 = 0)
  | .ipfixRecord e _ => e.wf
  | .mbxDoorbell _ | .mbxStatusRead _ | .mbxDoneClear _ _ | .mbxIrqEnWrite _ | .evtEnable | .evtDisable
  | .evtConsumerWrite _ | .msixModWrite _ _ | .hringRxTailWrite _ _ | .hringTxTailWrite _ _
  | .jrnWindowSeqWrite _ | .jrnWindowCopyDone | .timeSnap _ | .faultStatusClear _ _ | .mdioCmdGo _
  | .mdioFrameDone _ _ | .unsupportedRequest _ _ | .busMasterDisable | .pciPmD3hot | .busMasterEnable
  | .functionLevelReset | .perstNLow _ | .deviceReadState _ | .deviceStart _ | .deviceStop _
  | .deviceSetProfile _ | .deviceSetRing _ | .deviceEnterMaintenance _ | .deviceLeaveMaintenance _
  | .deviceLeaveSafe _ | .deviceReset _ | .deviceEraseKeys _ | .deviceNop _ | .deviceReadIdentity _
  | .fibreSetChannel _ | .fibreSetBond _ | .fibreSetGroups _ | .fibreSetPortId _ | .fibreSetUpstream _
  | .fibreSetAllocQueues _ | .fibreSetHeKey _ | .fibreSetPolicy _ | .fibreReadStatus _
  | .fibreReadCounters _ | .parseLoad _ | .parseInstall _ | .rulesSetComparator _ | .rulesBegin _
  | .rulesAdd _ | .rulesRemove _ | .rulesAbort _ | .rulesCommit _ | .rulesRead _ | .tableSetProfile _
  | .tableAdd _ | .tableModify _ | .tableDelete _ | .tableRead _ | .tableSetPort _ | .tableSetVlan _
  | .tableSetAging _ | .tableReadAged _ | .trafficSetQueue _ | .trafficFlushQueue _ | .trafficSetPolicer _
  | .trafficSetShaper _ | .trafficSetPause _ | .trafficSetGate _ | .trafficSetHistogram _ | .trafficRead _
  | .trafficReadHistogram _ | .cipherSetCak _ _ | .cipherSetMacsec _ | .cipherSetThreshold _
  | .cipherReadStatus _ | .timeSet _ | .timeStep _ | .timeSetServo _ | .timeSelectDomain _
  | .timeSetFibre _ | .timeReadFibre _ | .timeSetSource _ | .timeSetIo _ | .timeSetPtp _
  | .timeReadStatus _ | .portConfigure _ | .portSetFilter _ | .portSetAddress _ | .portSetAggregation _
  | .portSetMgmt _ | .portSetLldp _ | .portReadStatus _ | .portReadCounters _ | .laneConfigure _
  | .laneSetTest _ | .laneInject _ | .laneReadStatus _ | .laneReadCounters _ | .powerSetState _
  | .powerSetCap _ | .powerSetDroop _ | .powerReadStatus _ | .obsSetCounter _ | .obsSetDump _
  | .obsReadGroup _ | .obsSetSampling _ | .obsReadAudit _ | .obsSetIpfix _ | .obsSetTrap _
  | .obsReadDrops _ | .obsSetEcc _ | .journalRead _ | .recorderSet _ | .recorderRead _
  | .maintReadVersion _ | .maintFlashWrite _ | .maintSelectImage _ | .maintSelfTest _ | .maintReplay _
  | .maintAbort _ | .backgroundCommandDone _ _ | .powerOn | .underVoltageLockout | .resetRelease _
  | .pinReset _ | .bootSelect _ _ | .loadingComplete | .imageConfirm | .refclk156Qualify | .refclk156Loss
  | .pgoodInTransition _ _ | .dyingGaspClear | .vinSample _ | .vioOptLow _ | .vioOptRestore _ | .alarm _
  | .eraseDone | .tamperCheck _ | .lockstepMismatch | .watchdog _ | .hiveMemoryError | .throttleRelease
  | .sensorFailed _ | .droopSag _ | .droopStretchEnd _ | .powerCapEvaluation _ | .degradedEvaluation
  | .txfaultTransition _ _ _ | .gpioInputTransition _ _ _ | .referenceInputChange _ | .ppsInEdge _
  | .laneDetector _ _ _ _ | .energyDetect _ _ | .laneDeepEntryDone _ | .laneReady _ _ _
  | .checkerLockChange _ _ _ _ _ | .linkUp _ | .linkDown _ | .anRestart _ _ | .lpiEntry _
  | .pauseTimerExpiry _ | .protocolFrame _ _ | .ptpTimeout _ | .candidateTest _ _ _ _ | .presyncTest _ _ _
  | .syncFrameTest _ _ | .pfeFrame _ _ | .signalFailWindow _ | .signalDegradeWindow _ | .bondWaitExpiry
  | .bondReservationFree _ | .todFieldSample | .asymmetryEstimate | .servoSample _ _ _ | .domainHoldover _
  | .slewEnd | .ppsOutEdge | .todOutMessage | .timestampDrain _ | .stationMessage | .profile
  | .rangingParams | .assignStation | .rangingTime | .deactivate | .silence | .allocation | .heKey
  | .registrationTimeout _ | .keySwitch | .epochSwitchApply _ | .epochRetire _ | .dozeReply | .dozeEnd
  | .rangingTimerExpiry _ | .f6TimerExpiry _ | .rekeyInterval _ | .consequentAction _ _ | .channelRestore _
  | .sectionCommit _ | .burstLaunch _ | .burstEnd _ | .cipherRequest _ | .keyDerivationDone
  | .pipelineStart _ | .bulkShare _ | .cipherResult _ | .tagFailureCheck | .pipelinePass _ _
  | .learnCandidate | .learnCompletion | .rulesRetire | .enqueue | .xoffRefresh _ _ | .transmitStart _
  | .egressFrameEnd _ _ | .shaperRefill | .gateChange _ | .gateListSwitch _ | .hostRxDeliver _ _
  | .mergeRetire _ _ _ | .eccBucketLeak _ | .domainWake _ _ | .domainIdleOff _ | .d2Entry | .wakeSource _
  | .d2ExitDone _ | .d3EntryDone | .d3ExitDone _ | .powerStateChangeDone | .auditPoint _ | .dumpDone | .ipfixTemplate
  | .collectorResolve _ | .opticDiagRead _ _ | .checkpoint | .randomReseed | .eventBacklogDrain
  | .msixHoldoffExpiry _ | .linkConditionChange _ _ _ _ _ | .autoNegotiationComplete _ _ _ _
  | .mgmtSynchronisationChange _ _ _ | .receiveLpi _ _ | .perstNRelease _ | .jtagInstruction _ | .sustainedSag _
  | .protocolTimer _ _ | .unknownOpcode _ | .counterAccumulation => true

end Sys2Proof
end

