-- ==== Sys2Proof/Tests/Slice0.lean ====
section
/-! SUPPORT. Tests: an ill-formed command for each check, and states that meet the hypotheses of each statement. -/

namespace Sys2Proof.Tests

open Sys2Proof Sys2Proof.Machine

set_option maxRecDepth 100000

/-! ### Ill-formed commands -/

theorem test_wf_mailboxWrite : Instr.wf (.mailboxWrite 0 4095 [none, none]) = false := by decide
theorem test_wf_registerWrite : Instr.wf (.registerWrite 0x0902 0) = false := by decide
theorem test_wf_registerLowWordWrite : Instr.wf (.registerLowWordWrite 65536 0) = false := by decide
theorem test_wf_registerLowWordRead : Instr.wf (.registerLowWordRead 0x0509) = false := by decide
theorem test_wf_rcFieldRead : Instr.wf (.rcFieldRead (.queueSojourn 1024) 0) = false := by decide
theorem test_wf_rcFieldRead_staging : Instr.wf (.rcFieldRead (.stagingHigh 16384) 0) = false := by decide
theorem test_wf_commandDeadlineExpiry : Instr.wf (.commandDeadlineExpiry 0 2049) = false := by decide
theorem test_wf_thermalConversion : Instr.wf (.thermalConversion 0 32768) = false := by decide
theorem test_wf_todInMessage : Instr.wf (.todInMessage [0x43, 0x4D] true) = false := by decide
theorem test_wf_clientFrameReceive : Instr.wf (.clientFrameReceive 0 [0, 0, 0, 0] true true) = false := by decide
theorem test_wf_huntMatch : Instr.wf (.huntMatch 0 12441600 0) = false := by decide
theorem test_wf_downstreamFrame : Instr.wf (.downstreamFrame 0 {
    bytes := [], flips := [], failed := [480], arrival := 0 }) = false := by decide
theorem test_wf_stagingAdmit : Instr.wf (.stagingAdmit 16384) = false := by decide
theorem test_wf_agingVisit : Instr.wf (.agingVisit 3 131072) = false := by decide
theorem test_wf_sojournCheck : Instr.wf (.sojournCheck 1024) = false := by decide
theorem test_wf_spillReadback : Instr.wf (.spillReadback 640) = false := by decide
theorem test_wf_gateHoldTest : Instr.wf (.gateHoldTest 128) = false := by decide
theorem test_wf_hostTxFetch : Instr.wf (.hostTxFetch 0 [0] none) = false := by decide
theorem test_wf_scrubRead : Instr.wf (.scrubRead 0 4 .clean) = false := by decide
theorem test_wf_eccFilterExpiry : Instr.wf (.eccFilterExpiry 0 8053063680) = false := by decide
theorem test_wf_restoration : Instr.wf (.restoration 11 8053063680 true) = false := by decide
theorem test_wf_ipfixRecord : Instr.wf (.ipfixRecord (.rule 16384) 0) = false := by decide
theorem test_wf_accepts : Instr.wf (.mailboxWrite 15 0x040 [some 1]) = true ∧ Instr.wf (.agingVisit 3 131071) = true
    ∧ Instr.wf (.ipfixRecord (.exactMatch 3 131071) 4) = true := by decide

/-! ### States for the witnesses -/

/-- A device in a state, from READY. -/
def base (d : DevState) : State :=
  { State.reset with dev := { State.reset.dev with state := d, ready := true }
                     pow := { State.reset.pow with railsUp := true } }

/-- Mailbox 0 rung with a command: its opcode, CMD_LEN and the argument bytes that are not 0. -/
def ring (d : DevState) (op len : Nat) (args : List (Nat × Byte)) : State :=
  let s := base d
  { s with hif := { s.hif with
      mbox := [(0, 1), (4, BitVec.ofNat 8 op), (5, BitVec.ofNat 8 (op / 256)), (6, BitVec.ofNat 8 len),
        (7, BitVec.ofNat 8 (len / 256))] ++ args.map (fun e => (64 + e.1, e.2))
      bells := [{ mbx := 0, at_ := 0, beryl := 0 }] } }

/-! ### The core and the host interface -/

theorem test_StepRunsFrontCommand :
    ({ base .standby with pending := [.evtEnable] }).pending = .evtEnable :: []
    ∧ (base .standby).pending = [] := by decide

theorem test_invariants_reset : MailboxOk State.reset ∧ JournalOk State.reset
    ∧ State.reset.pending = [] := by decide

theorem test_EventsLeaveMailboxesAndState : touchesMailbox .evtEnable = false
    ∧ .evtEnable ∉ [Instr.degradedEvaluation, .resetRelease, .refclk156Qualify] := by decide

theorem test_HaltedStatesAreHeld : halted (base .safe).dev.state = true
    ∧ halted State.reset.dev.state = true ∧ State.reset.dev.state ≠ .safe
    ∧ State.reset.dev.state ≠ .loading := by decide

theorem test_ResetCauseIsKept :
    ({ State.reset with sup := { State.reset.sup with lockout := true } }).sup.lockout = true
    ∧ State.reset.sup.lockout = false ∧ us 1 ≤ us 1
    ∧ accepted cmdDeviceReset 0 (ring .standby 0x0109 1 [(0, 2)]) = true
    ∧ byteAt (cmdArgs (ring .standby 0x0109 1 [(0, 2)]) 0) 0 = 2
    ∧ accepted cmdDeviceReset 0 (ring .standby 0x0109 1 [(0, 1)]) = true
    ∧ byteAt (cmdArgs (ring .standby 0x0109 1 [(0, 1)]) 0) 0 = 1
    ∧ (ring .standby 0x0109 1 [(0, 1)]).pow.state ≠ .d2 ∧ (ring .standby 0x0109 1 [(0, 1)]).pow.state ≠ .d3
    ∧ (ring .standby 0x0109 1 [(0, 1)]).pow.phase ≠ .enteringD3
    ∧ (ring .standby 0x0109 1 [(0, 1)]).dev.warm = false
    ∧ wardenRuns (base .standby) = true ∧ (base .standby).dev.warm = false := by decide

/-- Mailbox 15 with a final status. -/
def finalBox : State :=
  let s := base .standby;
  { s with hif := { s.hif with mbox := [(mbxAddr 15 0x804, 2)] } }

/-- Mailbox 15 PENDING. -/
def pendingBox : State :=
  let s := base .standby;
  { s with hif := { s.hif with mbox := [(mbxAddr 15 0x804, 1)] } }

theorem test_DoorbellRings : (base .standby).dev.ready = true ∧ (15 : Word32).toNat < 16
    ∧ isPending (base .standby) 15 = false ∧ State.reset.dev.ready = false
    ∧ (16 : Word32).toNat ≥ 16 ∧ isPending pendingBox ((15 : Word32).toNat % 16) = true := by decide

theorem test_StatusReadSetsRepeat : hasFinal finalBox 15 = true ∧ hasFinal pendingBox 15 = false
    ∧ hasFinal State.reset 0 = false := by decide

theorem test_MailboxWritesAreFiltered :
    (0x7FC % 4 = 0 ∧ ([some 1, none, none, none] : List (Option Byte)).length = 4 ∧ 0x7FC + 4 ≤ 0x800
      ∧ isPending State.reset 0 = false)
    ∧ isPending pendingBox 15 = true ∧ (0x800 % 4 = 0 ∧ 0xFFC % 4 = 0 ∧ 0xFFC + 4 ≤ 0x1000)
    ∧ (2 % 4 ≠ 0 ∧ 0x1000 < 0xFFC + 8) := by decide

theorem test_CommandRowsMatchOpcodes : frontBell State.reset 0 = none
    ∧ mbxField State.reset 0 0x004 2 ≠ cmdDeviceNop.opcode
    ∧ commandRows.length = 98 := by decide

theorem test_LegalityColumn : cmdLaneInject.opcode = 0x0903 ∧ byteAt [0, 0, 0, 1] 3 < 2
    ∧ cmdPowerSetState.opcode = 0x0A01 ∧ cmdObsSetSampling.opcode = 0x0B04 := by decide

/-- Mailbox 0 rung with DEVICE_NOP and this CMD_SEQ, after a last sequence of 1. -/
def again (seq : Byte) : State :=
  let s := ring .standby 0x010B 0 [];
  { s with hif := { s.hif with
    mbox := tset 0 s.hif.mbox 0 seq, lastSeq := [(0, some 1)]
    kept := [(0, some { status := 2, rolled := false, isPartial := false, jseq := 1, data := [] })] } }

theorem test_FirstFailingStepAnswers_sequence :
    cmdSeq (again 0) 0 = 0
    ∧ (cmdSeq (again 1) 0 ≠ 0 ∧ lastSeq (again 1) 0 = some (cmdSeq (again 1) 0)
      ∧ (tget none (again 1).hif.kept 0).isSome = true)
    ∧ (let s := { again 1 with hif := { (again 1).hif with lastSeq := [(0, some 2)] } };
      2 ^ 31 ≤ subMod 32 (cmdSeq s 0).toNat 2)
    ∧ seqNew (again 2) 0 = true := by decide

theorem test_FirstFailingStepAnswers_checks :
    (let s := ring .standby 0x0109 2 [(0, 1)];
      (frontBell s 0).isSome = true ∧ seqNew s 0 = true
      ∧ stepThree (some cmdDeviceReset) 0 (mbxField s 0 0x006 2) (cmdArgs s 0) (popBell s) = some 0x004)
    ∧ (let s := ring .standby 0x0109 1 [(0, 3)];
      stepThree (some cmdDeviceReset) 0 (mbxField s 0 0x006 2) (cmdArgs s 0) (popBell s) = none
      ∧ stepFour cmdDeviceReset (mbxField s 0 0x008 4) (cmdArgs s 0) (popBell s) = some (stRange, 0x040))
    ∧ (let s := ring .standby 0x0103 0 [];
      stepThree (some cmdDeviceStop) 0 (mbxField s 0 0x006 2) (cmdArgs s 0) (popBell s) = none
      ∧ stepFour cmdDeviceStop (mbxField s 0 0x008 4) (cmdArgs s 0) (popBell s) = none
      ∧ cmdDeviceStop.legal (popBell s) (cmdArgs s 0) = false)
    ∧ (let s := { ring .active 0x0103 0 [] with now := 10000000001 };
      cmdDeviceStop.legal (popBell s) (cmdArgs s 0) = true
      ∧ deadlineAt cmdDeviceStop 0 { mbx := 0, at_ := 0, beryl := 0 } s < s.now) := by decide

theorem test_ResultIsPresented :
    (let s := ring .standby 0x0101 0 [];
     accepted cmdDeviceReadState 0 s = true
      ∧ (match cmdDeviceReadState.run 0 (cmdArgs s 0) (underWay 0 s) with
        | .final st d t => decide (st < 256 ∧ d.length = 12 ∧ t.hif.jrnHead + 1 < 2 ^ 64)
        | _ => false) = true) := by decide

/-- A command of mailbox 1 that runs. -/
def runningBox (op : Nat) (bg : Bool) : State :=
  let s := base .standby;
  { s with hif := { s.hif with
    running := [{ mbx := 1, opcode := op, seq := 1, args := zeros 24, deadline := 1000, background := bg }] } }

theorem test_UnknownAndLateCommandsEnd :
    (let s := ring .standby 0x010D 0 [];
      (frontBell s 0).isSome = true ∧ (cmdOf (mbxField s 0 0x004 2)).isNone = true ∧ seqNew s 0 = true)
    ∧ (let s := runningBox 0x0D02 true;
      (s.hif.running.find? (fun r => r.mbx == 1)).any (fun r => !irrevocable (passTo r.deadline s) r) = true)
    ∧ (let s := { runningBox 0x0A01 false with pow := { (base .standby).pow with phase := .enteringD3 } };
      (s.hif.running.find? (fun r => r.mbx == 1)).any (fun r => irrevocable (passTo r.deadline s) r) = true)
    ∧ (let s := ring .standby 0x010B 0 [];
      let at_ := deadlineAt cmdDeviceNop 0 { mbx := 0, at_ := 0, beryl := 0 } s;
      s.hif.running.find? (fun r => r.mbx == 0) = none
      ∧ stepThree (some cmdDeviceNop) 0 (mbxField s 0 0x006 2) (cmdArgs s 0) (popBell (passTo at_ s)) = none
      ∧ stepFour cmdDeviceNop (mbxField s 0 0x008 4) (cmdArgs s 0) (popBell (passTo at_ s)) = none
      ∧ cmdDeviceNop.legal (popBell (passTo at_ s)) (cmdArgs s 0) = true) := by decide

/-- Mailbox 0 rung with TABLE_READ of two entries, the first of which is read within the deadline. -/
theorem test_UnknownAndLateCommandsEnd_items :
    (let s := ring .standby 0x0405 120 [(0, 2)];
      let late := passTo (deadlineAt cmdTableRead 0 { mbx := 0, at_ := 0, beryl := 0 } s) s;
      s.hif.running.find? (fun r => r.mbx == 0) = none
      ∧ stepThree (some cmdTableRead) 0 (mbxField s 0 0x006 2) (cmdArgs s 0) (popBell late) = none
      ∧ stepFour cmdTableRead (mbxField s 0 0x008 4) (cmdArgs s 0) (popBell late) = none
      ∧ cmdTableRead.legal (popBell late) (cmdArgs s 0) = true
      ∧ 1 < cmdTableRead.count (cmdArgs s 0)
      ∧ cmdTableRead.items.any (fun f => match f 1 0 (cmdArgs s 0) (underWay 0 late) with
        | .final _ _ _ => true
        | _ => false) = true) := by decide

/-- The event ring enabled with 256 entries, DMA allowed. -/
def evtRing : State :=
  let s := base .standby;
  { s with hif := { s.hif with evtEnable := true, evtEntries := 256, busMaster := true, linkUp := true } }

theorem test_MailboxAndEventRegisters :
    (let s := { evtRing with hif := { evtRing.hif with done := 2, evtProducer := 3, evtConsumer := 1 } };
      s.dev.ready = true ∧ (1 : Word32).setWidth 16 &&& s.hif.done = 0
      ∧ (2 : Word32).setWidth 16 &&& s.hif.done ≠ 0
      ∧ ((3 : Word32) - s.hif.evtConsumer).toNat ≤ (s.hif.evtProducer - s.hif.evtConsumer).toNat
      ∧ (s.hif.evtProducer - s.hif.evtConsumer).toNat < ((4 : Word32) - s.hif.evtConsumer).toNat)
    ∧ (let s := { evtRing with hif := { evtRing.hif with evtEnable := false, evtEntries := 65536 } };
      s.hif.evtEntries.toNat = 2 ^ 16 ∧ s.hif.evtEnable = false)
    ∧ (base .standby).hif.evtEntries.toNat = 0
    ∧ State.reset.dev.ready = false := by decide

theorem test_EventsReachTheRing :
    (evtRing.hif.evtEnable = true ∧ dmaOk evtRing = true ∧ evtRing.hif.backlog = [] ∧ evtRing.hif.lost = none
      ∧ (evtRing.hif.evtProducer - evtRing.hif.evtConsumer).toNat < evtRing.hif.evtEntries.toNat
      ∧ ringRoom evtRing = true)
    ∧ (State.reset.hif.evtEnable = false ∧ State.reset.hif.backlog.length < 256)
    ∧ (let e : Event := { seq := 0, typ := 0, urgent := false, index := 0, time := 0, payload := [] };
      (List.replicate 256 e).length = 256
        ∧ (takeNewest (List.replicate 256 e)).isSome = true
        ∧ takeNewest (List.replicate 256 { e with urgent := true }) = none)
    ∧ ringRoom { evtRing with hif := { evtRing.hif with lost := some (0, 1) } } = true := by decide

theorem test_VectorsAreModerated :
    (let s := { evtRing with hif := { evtRing.hif with msix := [(0, { masked := false })] } };
      (vecOf s 0).masked = false ∧ dmaOk s = true)
    ∧ (vecOf State.reset 31).masked = true
    ∧ (let s := { evtRing with hif := { evtRing.hif with msix := [(2, { countM1 := 1, holdoff := 1 })] } };
      (vecOf s 2).causes + 1 < (vecOf s 2).countM1.toNat + 1 ∧ (vecOf s 2).first = none
      ∧ 0 < (vecOf s 2).holdoff.toNat)
    ∧ (moderated 0 = true ∧ moderated 10 = true ∧ moderated 1 = false ∧ moderated 11 = false)
    ∧ (let s := { evtRing with now := 1000000, hif := { evtRing.hif with
        msix := [(2, { causes := 1, first := some 0, holdoff := 1 })] } };
      (vecOf s 2).first = some 0 ∧ 0 < (vecOf s 2).causes ∧ s.dev.ready = true)
    ∧ (let s := { evtRing with now := 1000000, hif := { evtRing.hif with
        msix := [(2, { causes := 1, first := some 0, holdoff := 2 })] } };
      let mod := fun (c : BitVec 8) (h : BitVec 10) => { vecOf s 2 with countM1 := c, holdoff := h };
      vecDue (setVec 2 (mod 1 2) s) (mod 1 2) = false ∧ vecDue (setVec 2 (mod 1 1) s) (mod 1 1) = true
      ∧ vecDue (setVec 2 (mod 0 2) s) (mod 0 2) = true) := by decide

/-- Ring 3 of each direction enabled with 64 entries. -/
def ringsUp : State :=
  { evtRing with hif := { evtRing.hif with
      rx := [(3, { enable := true, entries := 64, bufLen := 2048 })]
      tx := [(3, { enable := true, entries := 64, bufLen := 2048, rate := 1000, burst := 10, tokens := 10000000000000 })] } }

theorem test_RegisterAccessesTakeEffect :
    ((rxRing ringsUp 3).enable = true ∧ (txRing ringsUp 3).enable = true
      ∧ ((64 : Word32) - (rxRing ringsUp 3).head).toNat ≤ (rxRing ringsUp 3).entries
      ∧ ((rxRing ringsUp 3).tail - (rxRing ringsUp 3).head).toNat ≤ ((64 : Word32) - (rxRing ringsUp 3).head).toNat
      ∧ (rxRing ringsUp 3).entries < ((65 : Word32) - (rxRing ringsUp 3).head).toNat)
    ∧ (rxRing State.reset 0).enable = false ∧ (base .standby).hif.evtEnable = false
    ∧ (let s := { base .standby with hif := { (base .standby).hif with lowHeld := [(0x0508, some 7)], copies := [1] } };
      tget none s.hif.lowHeld 0x0508 = some 7 ∧ s.hif.copies = 1 :: [])
    ∧ (let s := { base .standby with hif := { (base .standby).hif with lowHeld := [(0x0208, some 64)] } };
      tget none s.hif.lowHeld 0x0208 = some 64)
    ∧ (let s := { base .standby with hif := { (base .standby).hif with highShadow := [(0x0500, some 9)] } };
      tget none s.hif.highShadow 0x0500 = some 9 ∧ tget none s.hif.highShadow 0x0508 = none)
    ∧ (bit (0x8000 : Word16).toNat 15 = true ∧ bit (base .standby).hif.gpioDir.toNat 15 = false)
    ∧ (let s := { base .standby with hif := { (base .standby).hif with gpioDir := 0x8000 } };
      bit (0x8000 : Word16).toNat 15 ≠ bit s.hif.gpioOut.toNat 15)
    ∧ (base .loading).dev.state ≠ .cold ∧ 0x0902 % 4 ≠ 0 ∧ (rcKey (.wakeStall 95)).isSome = true := by decide

theorem test_MdioAndFaultRegisters :
    ((0x80000000 : Word32).getLsbD 31 = true ∧ (base .loading).hif.mdioCmd.getLsbD 31 = false
      ∧ (base .loading).dev.state ≠ .cold)
    ∧ State.reset.dev.state = .cold
    ∧ (let s := { base .loading with hif := { (base .loading).hif with mdioCmd := 0xA0000000 } };
      s.hif.mdioCmd.getLsbD 31 = true ∧ s.hif.mdioCmd.getLsbD 29 = true)
    ∧ (let s := { base .loading with hif := { (base .loading).hif with mdioCmd := 0x90000000 } };
      s.hif.mdioCmd.getLsbD 31 = true ∧ s.hif.mdioCmd.getLsbD 29 = false) := by decide

theorem test_MdioAndFaultRegisters_accesses :
    (bar0Reads 0xF801 4 = false ∧ bar0Reads 0x3C 8 = false ∧ bar0Reads 0xFFC 8 = false)
    ∧ (bar0Reads 0xFFFC 4 = true ∧ 0x804 < 0xFFFC % 4096)
    ∧ (bar0Reads 0x7C0 64 = true ∧ 0x7C0 % 4096 + 64 ≤ 0x804)
    ∧ (4095 < 4096 ∧ 0xFFFC % 4 = 0 ∧ 0xFFFC < 65536)
    ∧ (8 ≠ 4 ∧ 0x0902 % 4 ≠ 0 ∧ 65536 ≤ 65536)
    ∧ (bar4Takes 0x1FFC 8 = false ∧ bar4Takes 0x2000 4 = false ∧ bar4Takes 0x1FFC 4 = true)
    ∧ (dmaOk evtRing = true ∧ dmaOk State.reset = false)
    ∧ (let s := { base .standby with now := ms 100, dev := { (base .standby).dev with released := true } };
      s.dev.released = true ∧ s.dev.releasedAt + ms 100 ≤ s.now)
    ∧ State.reset.dev.released = false := by decide

theorem test_FunctionStopsAndStarts :
    .pciPmD3hot ∈ [Instr.busMasterDisable, .pciPmD3hot, .functionLevelReset]
    ∧ 100000 ≤ 100000 ∧ 99999 < 100000
    ∧ (let s := { base .standby with hif := { (base .standby).hif with
        msix := [(0, { masked := false, pend := true })] } };
      (vecOf s 0).pend = true ∧ (vecOf s 0).masked = false) := by decide

/-- A frame with its FCS in receive queue 643. -/
def queued : State :=
  let c : Copy := { pkt := { fid := 1, frame := zeros 64 }, cells := 1, spilled := false, joined := 0, account := none };
  modQueue 643 (fun q => { q with pkts := [c] })
    { ringsUp with tm := { ringsUp.tm with hostTurn := 3, refs := [(1, { copies := 1, cells := 1 })], free := 262143 } }

theorem test_HostRingsMoveFrames :
    (let s1 := dropLate 643 { queued with tm := { queued.tm with hostTurn := 0 } };
      rxTurn queued 3 = true ∧ (queueOf s1 643).pkts.length = 1
      ∧ (rxRing s1 3).head = (rxRing s1 3).tail)
    ∧ (let q := setRx 3 { rxRing queued 3 with tail := 1 } queued;
      let s1 := dropLate 643 { q with tm := { q.tm with hostTurn := 0 } };
      rxTurn q 3 = true ∧ (queueOf s1 643).pkts.length = 1 ∧ (rxRing s1 3).head ≠ (rxRing s1 3).tail)
    ∧ (let q := setTx 3 { txRing queued 3 with tail := 1 } queued;
      txReady q 3 = true ∧ txMalformed (zeros 32) none = true ∧ inService q = false ∧ q.dev.state ≠ .safe)
    ∧ txReady (setTx 3 { txRing ringsUp 3 with tail := 1 } { ringsUp with dev := { ringsUp.dev with state := .safe } }) 3
      = true
    ∧ (let q := setTx 3 { txRing ringsUp 3 with tail := 1 } { ringsUp with dev := { ringsUp.dev with state := .active } };
      txReady q 3 = true ∧ inService q = true)
    ∧ txMalformed (zeros 8 ++ [64, 0] ++ zeros 22) (some (zeros 60)) = false := by decide

/-! ### Commands -/

/-- Mailbox 0, rung with a command in a device state, holds arguments that it accepts. -/
def takes (c : CmdSpec) (d : DevState) (len : Nat) (args : List (Nat × Byte)) : Bool :=
  accepted c 0 (ring d c.opcode len args)

/-- The argument bytes of that mailbox. -/
def given (d : DevState) (len : Nat) (args : List (Nat × Byte)) : Bytes := cmdArgs (ring d 0 len args) 0

theorem test_accepts_device :
    takes cmdDeviceReadState .safe 0 [] ∧ takes cmdDeviceNop .standby 0 []
    ∧ takes cmdDeviceReadIdentity .standby 0 [] ∧ takes cmdDeviceSetProfile .standby 1 []
    ∧ takes cmdDeviceSetRing .standby 24 [(0, 4), (2, 0x40), (16, 1), (20, 1)]
    ∧ takes cmdDeviceSetRing .standby 24 [(2, 0x40), (5, 1), (16, 1), (20, 1)]
    ∧ takes cmdDeviceStart .standby 0 [] ∧ takes cmdDeviceStop .active 0 []
    ∧ takes cmdDeviceEnterMaintenance .standby 0 [] ∧ takes cmdDeviceLeaveMaintenance .maintenance 0 []
    ∧ takes cmdDeviceLeaveSafe .safe 0 []
    ∧ takes cmdDeviceEraseKeys .safe 4 [(0, 0x53), (1, 0x41), (2, 0x52), (3, 0x45)] := by decide

theorem test_accepts_fibre :
    takes cmdFibreSetChannel .standby 4 [] ∧ takes cmdFibreSetBond .standby 3 [(2, 1)]
    ∧ takes cmdFibreSetGroups .standby 4 [] ∧ takes cmdFibreSetPortId .standby 16 [(0, 1), (10, 20)]
    ∧ takes cmdFibreSetUpstream .standby 5 [] ∧ takes cmdFibreSetAllocQueues .standby 8 []
    ∧ takes cmdFibreSetPolicy .standby 28 [(22, 3)] ∧ takes cmdFibreReadStatus .standby 1 []
    ∧ takes cmdFibreReadCounters .standby 1 [] ∧ takes cmdFibreReadCounters .standby 1 [(0, 4)] := by decide

/-- The generator of the curve, big-endian, X then Y (FIPS 186). -/
def generator : Bytes := [
  0xaa, 0x87, 0xca, 0x22, 0xbe, 0x8b, 0x05, 0x37, 0x8e, 0xb1, 0xc7, 0x1e, 0xf3, 0x20, 0xad, 0x74,
  0x6e, 0x1d, 0x3b, 0x62, 0x8b, 0xa7, 0x9b, 0x98, 0x59, 0xf7, 0x41, 0xe0, 0x82, 0x54, 0x2a, 0x38,
  0x55, 0x02, 0xf2, 0x5d, 0xbf, 0x55, 0x29, 0x6c, 0x3a, 0x54, 0x5e, 0x38, 0x72, 0x76, 0x0a, 0xb7,
  0x36, 0x17, 0xde, 0x4a, 0x96, 0x26, 0x2c, 0x6f, 0x5d, 0x9e, 0x98, 0xbf, 0x92, 0x92, 0xdc, 0x29,
  0xf8, 0xf4, 0x1d, 0xbd, 0x28, 0x9a, 0x14, 0x7c, 0xe9, 0xda, 0x31, 0x13, 0xb5, 0xf0, 0xb8, 0xc0,
  0x0a, 0x60, 0xb1, 0xce, 0x1d, 0x7e, 0x81, 0x9d, 0x7a, 0x43, 0x1d, 0x7c, 0x90, 0xea, 0x0e, 0x5f]

theorem test_point_on_curve : validPoint generator = true
    ∧ validPoint (generator.take 95 ++ [0x5e]) = false := by decide +kernel

theorem test_accepts_heKey :
    takes cmdFibreSetHeKey .standby 96 (generator.zipIdx.map (fun e => (e.2, e.1))) := by decide +kernel

theorem test_accepts_parse :
    takes cmdParseLoad .standby 16 [(2, 1)] ∧ takes cmdRulesSetComparator .standby 16 []
    ∧ takes cmdRulesBegin .standby 0 [] ∧ takes cmdRulesAdd .standby 184 [(0, 1)]
    ∧ takes cmdRulesRemove .standby 2 [] ∧ takes cmdRulesAbort .standby 0 []
    ∧ takes cmdRulesCommit .standby 0 [] ∧ takes cmdRulesRead .standby 3 [] := by decide

theorem test_accepts_program : takes cmdParseInstall .standby 518 [] := by decide +kernel

theorem test_accepts_tables :
    takes cmdTableSetProfile .standby 88 [] ∧ takes cmdTableAdd .standby 64 [(0, 1)]
    ∧ takes cmdTableModify .standby 64 [(0, 1)] ∧ takes cmdTableDelete .standby 64 [(0, 1)]
    ∧ takes cmdTableRead .standby 64 [(0, 1)] ∧ takes cmdTableSetPort .standby 16 [(12, 0x10)]
    ∧ takes cmdTableSetVlan .standby 16 [] ∧ takes cmdTableSetAging .standby 8 []
    ∧ takes cmdTableReadAged .standby 5 [(4, 1)] := by decide

theorem test_accepts_traffic :
    takes cmdTrafficSetQueue .standby 24 [(22, 0x20)] ∧ takes cmdTrafficFlushQueue .standby 2 []
    ∧ takes cmdTrafficSetPolicer .standby 24 [(10, 0x10), (13, 0x10), (15, 4), (19, 1)]
    ∧ takes cmdTrafficSetShaper .standby 16 [(8, 0x40), (11, 4)]
    ∧ takes cmdTrafficSetPause .standby 72
      ([(4, 1)] ++ (List.range 8).flatMap (fun c => [(8 + 8 * c + 1, 2), (12 + 8 * c + 1, 1)]))
    ∧ takes cmdTrafficSetGate .standby 24 [(5, 4)] ∧ takes cmdTrafficSetHistogram .standby 4 []
    ∧ takes cmdTrafficRead .standby 4 [] ∧ takes cmdTrafficReadHistogram .standby 1 [] := by decide

theorem test_accepts_cipher :
    takes (cmdCipherSetCak (some (zeros 32))) .standby 48 [(1, 1)] ∧ takes cmdCipherSetMacsec .standby 16 []
    ∧ takes cmdCipherSetThreshold .standby 4 [(0, 1)] ∧ takes cmdCipherReadStatus .standby 1 [] := by decide

theorem test_accepts_time :
    takes cmdTimeSet .standby 12 [] ∧ takes cmdTimeStep .standby 8 [(0, 1)]
    ∧ takes cmdTimeStep .standby 8 ((List.range 8).map (fun i => (i, 0xFF)))
    ∧ takes cmdTimeSetServo .standby 21 [(12, 1), (14, 1), (20, 1)]
    ∧ takes cmdTimeSelectDomain .standby 1 [] ∧ takes cmdTimeSelectDomain .standby 1 [(0, 1)]
    ∧ takes cmdTimeSetFibre .standby 96 [(90, 0x14)] ∧ takes cmdTimeReadFibre .standby 0 []
    ∧ takes cmdTimeSetSource .standby 12 [(8, 1)] ∧ takes cmdTimeSetIo .standby 14 [(9, 4)]
    ∧ takes cmdTimeSetPtp .standby 72 [(0, 0x18)] ∧ takes cmdTimeReadStatus .standby 0 [] := by decide

theorem test_accepts_ports :
    takes cmdPortConfigure .standby 16 [(11, 8), (14, 0x5f)] ∧ takes cmdPortSetFilter .standby 72 []
    ∧ takes cmdPortSetAddress .standby 6 [] ∧ takes cmdPortSetAggregation .standby 7 []
    ∧ takes cmdPortSetMgmt .standby 1 [] ∧ takes cmdPortSetLldp .standby 4 [(2, 1)]
    ∧ takes cmdPortReadStatus .standby 1 [] ∧ takes cmdPortReadCounters .standby 1 [(0, 16)] := by decide

theorem test_accepts_lanes :
    takes cmdLaneConfigure .standby 16 [(10, 0x40), (13, 0x28), (14, 0x51)]
    ∧ takes cmdLaneSetTest .standby 16 [] ∧ takes cmdLaneInject .standby 4 []
    ∧ takes cmdLaneReadStatus .standby 1 [(0, 20)] ∧ takes cmdLaneReadCounters .standby 1 [] := by decide

theorem test_accepts_power :
    takes cmdPowerSetState .active 5 [] ∧ takes cmdPowerSetState .active 5 [(0, 1)]
    ∧ takes cmdPowerSetState .active 5 [(0, 2), (2, 64)] ∧ takes cmdPowerSetState .active 5 [(0, 3)]
    ∧ takes cmdPowerSetCap .standby 2 [] ∧ takes cmdPowerSetDroop .standby 8 [(1, 2), (4, 1)]
    ∧ takes cmdPowerReadStatus .standby 0 [] := by decide

theorem test_accepts_observability :
    takes cmdObsSetCounter .standby 5 [] ∧ takes cmdObsSetDump .standby 20 []
    ∧ takes cmdObsReadGroup .standby 1 [] ∧ takes cmdObsSetSampling .standby 2 []
    ∧ takes cmdObsReadAudit .standby 0 [] ∧ takes cmdObsSetIpfix .standby 32 [(28, 1), (30, 1)]
    ∧ takes cmdObsSetTrap .standby 32 [] ∧ takes cmdObsReadDrops .standby 1 []
    ∧ takes cmdObsSetEcc .standby 12 [(4, 1)] := by decide

theorem test_accepts_maintenance :
    takes cmdJournalRead .standby 9 [(8, 1)] ∧ takes cmdRecorderSet .standby 1 []
    ∧ takes cmdRecorderRead .standby 16 [(14, 0x10)] ∧ takes cmdMaintReadVersion .standby 0 []
    ∧ takes cmdMaintFlashWrite .standby 24 [(0, 1), (16, 64)]
    ∧ takes cmdMaintFlashWrite .standby 24 [(0, 1), (19, 4)] ∧ takes cmdMaintSelectImage .standby 1 []
    ∧ takes cmdMaintSelfTest .maintenance 4 [] ∧ takes cmdMaintReplay .maintenance 12 []
    ∧ takes cmdMaintAbort .standby 0 [] := by decide

/-- The command is accepted and conditions of its own hold of its arguments and the state without its ring. -/
def fits (c : CmdSpec) (s : State) (own : Bytes → State → Bool) : Bool :=
  accepted c 0 s && own (cmdArgs s 0) (underWay 0 s)

/-- The state in another power state. -/
def inPower (p : PowerState) (s : State) : State := { s with pow := { s.pow with state := p } }

/-- In that power state, the domains that this command touches woken before. -/
def awake (p : PowerState) (op : Nat) (s : State) : State :=
  (commandDomains s op).foldl (fun t d => modDomain d (fun x => { x with woken := true }) t) (inPower p s)

/-- Another command of this opcode runs in the background in mailbox 1. -/
def besides (op : Nat) (s : State) : State :=
  { s with hif := { s.hif with
    running := [{ mbx := 1, opcode := op, seq := 1, args := zeros 24, deadline := 1000, background := true }] } }

theorem test_DeviceReadsAndSettings :
    fits cmdDeviceSetProfile (ring .standby 0x0104 1 [(0, 3)])
      (fun a t => byteAt a 0 == 3 && !upperLanesUsed t)
    ∧ fits cmdDeviceSetRing (ring .standby 0x0105 24 [(0, 4), (2, 0x40), (16, 1), (20, 1)])
      (fun a t => bit (byteAt a 0) 2 && !(txRing t (byteAt a 0 % 4)).enable)
    ∧ fits cmdDeviceSetRing (ring .standby 0x0105 24 [(2, 0x40), (5, 1), (16, 1), (20, 1)])
      (fun a t => !bit (byteAt a 0) 2 && !(rxRing t (byteAt a 0 % 4)).enable) := by decide

theorem test_DeviceStateCommandsAct :
    fits cmdDeviceStart (ring .standby 0x0102 0 []) (fun _ t => t.pow.state == .d0 && t.pow.phase == .idle)
    ∧ fits cmdDeviceStart (awake .d2 0x0102 (ring .standby 0x0102 0 [])) (fun _ t => t.pow.state == .d2)
    ∧ fits cmdDeviceStop (ring .active 0x0103 0 []) (fun _ t => t.pow.state == .d0 && t.pow.phase == .idle)
    ∧ fits cmdDeviceStop (awake .d3 0x0103 (ring .active 0x0103 0 [])) (fun _ t => t.pow.state == .d3)
    ∧ fits cmdDeviceEnterMaintenance (ring .active 0x0106 0 []) (fun _ t => t.pow.state == .d0)
    ∧ fits cmdDeviceEnterMaintenance (awake .d2 0x0106 (ring .active 0x0106 0 [])) (fun _ t => t.pow.state == .d2)
    ∧ fits cmdDeviceLeaveMaintenance (ring .maintenance 0x0107 0 []) (fun _ t => background? t == none)
    ∧ fits cmdDeviceLeaveMaintenance (besides 0x0D04 (ring .maintenance 0x0107 0 []))
      (fun _ t => background? t == some 0x0D04)
    ∧ fits cmdDeviceLeaveSafe (ring .safe 0x0108 0 []) (fun _ t => assertedMask t == 0)
    ∧ (let s := ring .safe 0x0108 0 [];
      fits cmdDeviceLeaveSafe { s with dev := { s.dev with alarmNow := 1 } } (fun _ t => assertedMask t != 0))
    ∧ fits cmdDeviceReset (ring .safe 0x0109 1 [(0, 1)]) (fun _ t => t.pow.state == .d0 && t.pow.phase == .idle)
    ∧ fits cmdDeviceEraseKeys (ring .standby 0x010A 4 [(0, 0x53), (1, 0x41), (2, 0x52), (3, 0x45)])
      (fun _ t => (raiseAlarm 4 t).dev.erasing)
    ∧ (let s := ring .safe 0x010A 4 [(0, 0x53), (1, 0x41), (2, 0x52), (3, 0x45)];
      fits cmdDeviceEraseKeys { s with dev := { s.dev with alarmLatch := 16 } }
        (fun _ t => !(raiseAlarm 4 t).dev.erasing && (raiseAlarm 4 t).dev.state == .safe)) := by decide

theorem test_FibreCommandsComplete :
    fits cmdFibreSetBond (ring .standby 0x0202 3 [(2, 1)]) (fun a t => joinRefused t (byteAt a 0) == none)
    ∧ fits cmdFibreSetGroups (ring .standby 0x0203 4 []) (fun a t => !groupsBusy t a)
    ∧ fits cmdFibreSetPortId (ring .standby 0x0204 16 [(0, 1), (10, 20)])
      (fun a t => (portItems (bit (le a 0 2) 15) a (List.range (fld (le a 0 2) 0 15)) [] t).isSome)
    ∧ fits cmdFibreSetUpstream (ring .standby 0x0205 5 [])
      (fun a t => (setUpstream (le a 0 2) (le a 2 2) (bit (byteAt a 4) 0) t).isSome)
    ∧ fits cmdFibreSetAllocQueues (ring .standby 0x0206 8 [])
      (fun a t => (queuesMoved t (le a 0 2) (listEntries a)).all (fun q => !queueHolds t q))
    ∧ fits cmdFibreReadCounters (ring .standby 0x020A 1 [(0, 3)]) (fun a _ => byteAt a 0 != 4)
    ∧ fits cmdFibreReadCounters (ring .standby 0x020A 1 [(0, 4)]) (fun a _ => byteAt a 0 == 4) := by decide

/-- The state with tag 1 staged and a rule of priority 0 in it. -/
def stagedRule (s : State) : State :=
  let r : Rule := { value := 0, mask := 0, control := 0, action := 0, versions := 2, pkts := 0, bytes := 0 };
  { s with cls := { s.cls with tags := [(0, .current), (1, .staged)], rules := [(16383, some r)] } }

theorem test_ParseAndRuleCommandsComplete :
    fits cmdRulesSetComparator (ring .standby 0x0303 16 [(0, 255)]) (fun a t => !comparatorUsed t (byteAt a 0))
    ∧ fits cmdRulesBegin (ring .standby 0x0304 0 []) (fun _ t => tagIn t .staged == none)
    ∧ fits cmdRulesRemove (stagedRule (ring .standby 0x0306 2 []))
      (fun a t => tagIn t .staged == some 1 && (ruleOf t 1 (le a 0 2)).map (·.1) == some 16383)
    ∧ fits cmdRulesAbort (stagedRule (ring .standby 0x0307 0 [])) (fun _ t => tagIn t .staged == some 1)
    ∧ fits cmdRulesCommit (stagedRule (ring .standby 0x0308 0 []))
      (fun _ t => tagIn t .staged == some 1 && tagIn t .draining == none)
    ∧ fits cmdRulesRead (stagedRule (ring .standby 0x0309 3 [(2, 1)]))
      (fun a t => (ruleOf t (byteAt a 2) (le a 0 2)).isSome) := by decide

theorem test_RulesAdd_witness :
    fits cmdRulesAdd (stagedRule (ring .standby 0x0305 184 [(0, 1), (169, 4)])) (fun a t =>
      let l := (List.range (byteAt a 0)).map (fun i => ruleFrom a (8 + 176 * i) 1);
      tagIn t .staged == some 1 && usedPriority t 1 [] l 0 == none
        && decide (l.length ≤ (freeRules t l.length).length)) := by decide +kernel

theorem test_TableCommandsComplete :
    fits cmdTableSetProfile (ring .standby 0x0401 88 [(0, 14)]) (fun a t => !profileUsed t (byteAt a 0))
    ∧ fits cmdTableSetPort (ring .standby 0x0406 16 [(0, 63), (12, 0x10)]) (fun _ _ => true) := by decide

theorem test_TrafficCommandsComplete :
    fits cmdTrafficSetQueue (ring .standby 0x0501 24 [(22, 0x20)])
      (fun a t => !bit (le a 8 16) 127 && held t (le a 0 2) == [])
    ∧ fits cmdTrafficRead (ring .standby 0x0508 4 [(0, 2)]) (fun a _ => byteAt a 0 == 2) := by decide

theorem test_CipherCommandsComplete :
    (let s := ring .standby 0x0601 48 [(1, 1)];
      fits (cmdCipherSetCak (some (zeros 32)))
        { s with hif := { s.hif with busMaster := true, linkUp := true } } (fun _ t => dmaOk t))
    ∧ fits (cmdCipherSetCak none) (ring .standby 0x0601 48 [(1, 1)]) (fun _ t => !dmaOk t) := by decide

theorem test_TimeCommandsComplete :
    fits cmdTimeStep (ring .standby 0x0702 8 [(0, 1)])
      (fun a t => withinTime (mainNow t) (nsUnits (sint 64 (le a 0 8)))
        && withinTime (servoOf t (selected t)).shadow (nsUnits (sint 64 (le a 0 8))))
    ∧ fits cmdTimeStep (ring .standby 0x0702 8 ((List.range 8).map (fun i => (i, 0xFF))))
      (fun a t => !withinTime (mainNow t) (nsUnits (sint 64 (le a 0 8))))
    ∧ fits cmdTimeSelectDomain (ring .standby 0x0704 1 []) (fun _ t => selected t == .a)
    ∧ (let s := ring .standby 0x0704 1 [(0, 1)];
      fits cmdTimeSelectDomain { s with time := { s.time with b := { s.time.b with everLocked := true } } }
        (fun _ t => selected t != .b && (servoOf t .b).everLocked))
    ∧ fits cmdTimeSetPtp (ring .standby 0x0709 72 [(0, 0x18)]) (fun a _ => le a 2 2 == 0) := by decide

theorem test_PortCommandsComplete :
    fits cmdPortConfigure (ring .standby 0x0801 16 [(0, 15), (11, 8), (14, 0x5f)]) (fun a t =>
      !portBusy t (byteAt a 0) (le a 8 8) && descMode (le a 8 8) == 0 && macsecRate (le a 8 8) == 0)
    ∧ fits cmdPortConfigure (ring .standby 0x0801 16 [(0, 15), (11, 8), (14, 0x5f), (15, 0x10)]) (fun a t =>
      !portBusy t (byteAt a 0) (le a 8 8) && t.dev.selected != .economy) := by decide

theorem test_LaneCommandsComplete :
    fits cmdLaneSetTest (ring .standby 0x0902 16 []) (fun a _ => byteAt a 1 == 0 && byteAt a 2 == 0 && byteAt a 3 == 0)
    ∧ fits cmdLaneSetTest (ring .standby 0x0902 16 [(0, 15), (1, 1)]) (fun a t => !laneInUse t (byteAt a 0))
      := by decide

/-- The state with channel 0 in F5. -/
def inF5 (s : State) : State := modAct 0 (fun x => { x with act := .f5 }) s

theorem test_PowerCommandsComplete :
    fits cmdPowerSetState (ring .active 0x0A01 5 []) (fun a t => powerOf (byteAt a 0) == t.pow.state)
    ∧ fits cmdPowerSetState (ring .active 0x0A01 5 [(0, 1)]) (fun _ t => t.pow.state == .d0)
    ∧ fits cmdPowerSetState (inPower .d1 (ring .active 0x0A01 5 [])) (fun _ t => t.pow.state == .d1)
    ∧ fits cmdPowerSetState (inF5 (ring .active 0x0A01 5 [(0, 2), (2, 64)]))
      (fun _ t => background? t == none && (actOf t 0).act == .f5)
    ∧ fits cmdPowerSetState (ring .active 0x0A01 5 [(0, 2), (2, 64)])
      (fun _ t => background? t == none && (List.range 4).all (fun c => (actOf t c).act != .f5))
    ∧ fits cmdPowerSetState (ring .active 0x0A01 5 [(0, 3)])
      (fun _ t => t.pow.state == .d0 && background? t == none)
    ∧ fits cmdPowerSetState (awake .d3 0x0A01 (ring .active 0x0A01 5 [])) (fun _ t => t.pow.state == .d3)
    ∧ fits cmdPowerSetState (awake .d3 0x0A01 (ring .active 0x0A01 5 [(0, 1)])) (fun _ t => t.pow.state == .d3)
    := by decide

/-- The state with an image of version 7 in slot 0 and a checkpoint of it at offset 0. -/
def withImage (s : State) : State :=
  { s with mnt := { s.mnt with
    slots := [(0, { sector := sectorBytes 1 .confirmed, image := zeros 4 ++ [7] ++ zeros 600 })]
    starts := [(0, 7)], recorder := .stopped } }

/-- Whether an image is authentic rests on functions without a body: of the two cases one holds. -/
theorem test_MaintenanceCommandsComplete :
    (let s := withImage (ring .standby 0x0C03 16 [(14, 0x10)]);
      fits cmdRecorderRead { s with hif := { s.hif with busMaster := true, linkUp := true } }
        (fun _ t => t.mnt.recorder != .running && dmaOk t)
      ∧ fits cmdRecorderRead s (fun _ t => t.mnt.recorder != .running && !dmaOk t))
    ∧ fits cmdMaintFlashWrite (ring .standby 0x0D02 24 [(0, 1), (16, 64)])
      (fun a t => byteAt a 0 != t.mnt.slot && decide (le a 16 4 ≤ imageMax))
    ∧ fits cmdMaintFlashWrite (ring .standby 0x0D02 24 [(0, 1), (19, 4)])
      (fun a t => byteAt a 0 != t.mnt.slot && decide (imageMax < le a 16 4))
    ∧ fits cmdMaintSelectImage (withImage (ring .standby 0x0D03 1 []))
      (fun a t => !slotWritten t (byteAt a 0))
    ∧ fits cmdMaintSelectImage (ring .standby 0x0D03 1 [])
      (fun a t => !slotWritten t (byteAt a 0) && !authentic t (slotImage t (byteAt a 0)))
    ∧ fits cmdMaintReplay (withImage (ring .maintenance 0x0D05 12 []))
      (fun a t => t.mnt.recorder != .running && startAt t (le a 0 8) == some 7)
    ∧ (let s := ring .maintenance 0x0D05 12 [];
      fits cmdMaintReplay { s with mnt := { s.mnt with recorder := .frozen } }
        (fun a t => t.mnt.recorder != .running && startAt t (le a 0 8) == none)) := by decide

/-! ### Fibre events -/

/-- The start pattern of R51. -/
def startWord : Word64 := 0xC5E51D3B8A09F47E

/-- A channel's receive side after a change, its lane READY, in ACTIVE. -/
def channel (ch : Nat) (f : RxChan → RxChan) : State :=
  modRx ch f { base .active with lan := [(16 + ch, { state := .ready })] }

/-- That channel in F5. -/
def running (ch : Nat) (f : RxChan → RxChan) : State :=
  modAct ch (fun x => { x with act := .f5 }) (channel ch f)

theorem test_DelineationMoves :
    (let s := running 3 (fun x => { x with slots := [(0, some 5)] });
      hasStream s 3 = true ∧ (rxOf s 3).delin = .hunt ∧ windowMatches (startWord ^^^ 7) = true
      ∧ windowMatches (startWord ^^^ 15) = false
      ∧ (rxOf s 3).slots.any (fun e => e.2 == some 6) = false ∧ freeCandidate (rxOf s 3) = some 1
      ∧ (tget none (rxOf s 3).slots 0).isSome = true ∧ dark s 3 = false
      ∧ (decideWord0 3 0 s).1 = some 0)
    ∧ (let s := running 0 (fun x => { x with delin := .presync });
      (rxOf s 0).delin = .presync ∧ hecDecode 0 = some (0, false) ∧ fld 0 13 51 = (rxOf s 0).sfc.toNat
      ∧ dark s 0 = false)
    ∧ (let s := running 0 (fun x => { x with delin := .sync, misses := 1 });
      (rxOf s 0).delin = .sync ∧ dark s 0 = false ∧ (rxOf s 0).misses + 1 < 3)
    ∧ 3 ≤ (rxOf (running 0 (fun x => { x with delin := .sync, misses := 2 })) 0).misses + 1 := by decide

/-- A frame whose bytes are all 0, without an error. -/
def emptyFrame : RxFrame := { bytes := [], flips := [], failed := [], arrival := 0 }

/-- Channel 0 in SYNC and F5 in a power state; a frame comes, and what has been made of it before its payload. -/
def judgedFrame (p : PowerState) (n start : Nat) : State :=
  let s0 := inPower p (running 0 (fun x => { x with delin := .sync }));
  let s := { s0 with fib := { s0.fib with doze := { s0.fib.doze with n := n, start := start } } };
  let f := { emptyFrame with bytes := (laneOf s 16).receive emptyFrame.bytes };
  let w := decideWord0 0 (BitVec.ofNat 64 (be f.bytes 8 8)) (beginFrame 0 (endFrame 0 s));
  let a := judgeCounter 0 w.1 w.2;
  noteArrival 0 (rxOf a 0).sfc.toNat (arrivalOf (rxOf a 0) f) a

theorem test_FramesAreDelivered :
    (let s := running 0 (fun x => { x with delin := .sync }); (rxOf s 0).delin = .sync ∧ dark s 0 = false)
    ∧ dozedFrame (judgedFrame .d0 1 0) (rxOf (judgedFrame .d0 1 0) 0).sfc.toNat = false
    ∧ dozedFrame (judgedFrame .d2 7 1) (rxOf (judgedFrame .d2 7 1) 0).sfc.toNat = true
    ∧ dark (base .active) 0 = true := by decide +kernel

/-- The header of an idle PFE frame of 1 byte. -/
def idleHeader : Nat :=
  let m := 2 ^ 37 + 0xFFFF * 2 ^ 21;
  let w := m * 2 ^ 13 + hecParity m * 2;
  w + evenBit w

/-- Channel 0 with eight bytes of its region left, of frame 0 with these words given up. -/
def inRegion (header : Nat) (bad : List Nat) : State :=
  running 0 (fun x => { x with inFrame := true, regionLeft := 16, region := beBytes 8 header ++ zeros 8, badWords := bad })

theorem test_FramesAreDelivered_pfe :
    (let x := rxOf (inRegion 0 [478]) 0;
      x.inFrame = true ∧ 8 ≤ x.regionLeft ∧ erasedIn x.badWords (headerAt x) 8 = false
      ∧ hecDecode (be x.region 0 8) = some (0, false) ∧ fld 0 13 17 = 0
      ∧ pfeSize (x.frameLabel == 0x11) 0 ≤ x.regionLeft ∧ pfeIdle 0 = false)
    ∧ (let x := rxOf (inRegion idleHeader []) 0;
      hecDecode (be x.region 0 8) = some (idleHeader, false) ∧ fld idleHeader 13 17 = 0 ∧ pfeIdle idleHeader = true
      ∧ pfeSize (x.frameLabel == 0x11) idleHeader ≤ x.regionLeft)
    ∧ (let x := rxOf (inRegion 0 [479]) 0; erasedIn x.badWords (headerAt x) 8 = true)
    ∧ (let x := rxOf (inRegion 0x1111000000000000 []) 0;
      erasedIn x.badWords (headerAt x) 8 = false ∧ hecDecode (be x.region 0 8) = none) := by decide

theorem test_WindowsAndBondAct :
    (let s := channel 0 (fun x => { x with delin := .sync, winBad := true, sfBad := true, sfRun := 2 });
      (rxOf s 0).delin = .sync ∧ (rxOf s 0).winBad = true
      ∧ 3 ≤ runOf (rxOf s 0).winBad (rxOf s 0).sfBad (rxOf s 0).sfRun)
    ∧ (let s := channel 0 (fun x => { x with delin := .sync, sfRun := 9 });
      (rxOf s 0).winBad = false ∧ 10 ≤ runOf (rxOf s 0).winBad (rxOf s 0).sfBad (rxOf s 0).sfRun)
    ∧ (let s := channel 0 (fun x => { x with delin := .sync, winBad := true, sfBad := true, sfRun := 1 });
      (rxOf s 0).winBad = true ∧ runOf (rxOf s 0).winBad (rxOf s 0).sfBad (rxOf s 0).sfRun < 3)
    ∧ (rxOf State.reset 0).delin ≠ .sync
    ∧ (let s := channel 0 (fun x => { x with winBits := 2, winRx := 10 });
      let t := { s with fib := { s.fib with policy := { s.fib.policy with degradeExp := 1 } } };
      (rxOf t 0).winRx < (rxOf t 0).winBits * 10 ^ t.fib.policy.degradeExp)
    ∧ (let x := rxOf (channel 0 (fun x => { x with winBits := 0, winRx := 1 })) 0;
      x.winBits * 10 ^ ((channel 0 id).fib.policy.degradeExp + 1) < x.winRx)
    ∧ (let s := channel 0 (fun x => { x with winBits := 1, winRx := 100 });
      let t := { s with fib := { s.fib with policy := { s.fib.policy with degradeExp := 1 } } };
      (rxOf t 0).winBits * 10 ^ t.fib.policy.degradeExp ≤ (rxOf t 0).winRx
        ∧ (rxOf t 0).winRx ≤ (rxOf t 0).winBits * 10 ^ (t.fib.policy.degradeExp + 1))
    ∧ (let s := modBond (fun b => { b with started := true, next := 4 }) State.reset;
      s.fib.bond.started = true)
    ∧ (let s := channel 3 (fun x => { x with reserved := 10125 });
      0 < (rxOf s 3).reserved ∧ bit s.fib.bond.members.toNat 3 = false ∧ (rxOf s 3).store = []) := by decide

/-- A station message of a type received on channel 0, waiting or accepted. -/
def message (typ : Byte) : RxMsg := { ch := 0, sfc := 0, bytes := [0, 0, typ] ++ zeros 45 }

theorem test_StationMessagesTakeEffect :
    (let s := { base .active with fib := { (base .active).fib with rxMsgs := [message 1] } };
      s.fib.rxMsgs = message 1 :: [] ∧ s.fib.accepted = none ∧ actsRun s = true)
    ∧ (message 1).typ = 1 ∧ (message 2).typ = 2 ∧ (message 3).typ = 3 ∧ (message 4).typ = 4
    ∧ (message 5).typ = 5 ∧ (message 6).typ = 6 ∧ (message 7).typ = 7 ∧ (message 8).typ = 8
    ∧ (message 9).typ = 9 ∧ (message 10).typ = 10 ∧ (message 11).typ = 11 := by decide

/-- Group 3 changed, over channel 3 in SYNC. -/
def grouped (f : Group → Group) : State :=
  modGroup 3 (fun g => { f g with mask := 8 }) (channel 3 (fun x => { x with delin := .sync, sfc := 800 }))

/-- A switch to epoch 2 at SFC 0. -/
def toEpoch2 (applied : Bool) : EpochSwitch := {
  epoch := 2, old := some 1, sfc := 0, fromPending := false, applied := applied }

/-- Channel 0 changed, in ACTIVE. -/
def acting (f : ActChan → ActChan) : State := modAct 0 f (base .active)

theorem test_ActivationTimersAct :
    (let s := grouped (fun g => { g with segFirst := some 0 });
      (groupOf s 3).segFirst = some 0 ∧ actsRun s = true ∧ processing s = false)
    ∧ (let s := grouped (fun g => { g with switch := some (toEpoch2 false) });
      (groupOf s 3).switch = some (toEpoch2 false) ∧ reached s 3 (toEpoch2 false).sfc = some 3
      ∧ sameIndex (groupOf s 3) (toEpoch2 false) = false ∧ (toEpoch2 false).fromPending = false)
    ∧ (let s := grouped (fun g => { g with switch := some (toEpoch2 true) });
      (groupOf s 3).switch = some (toEpoch2 true) ∧ reached s 3 ((toEpoch2 true).sfc + 800) = some 3)
    ∧ (let s := grouped (fun g => { g with curRoot := true });
      let t := { s with fib := { s.fib with policy := { s.fib.policy with rekeyS := 1 } } };
      t.fib.policy.rekeyS ≠ 0 ∧ (groupOf t 3).curRoot = true ∧ actsRun t = true)
    ∧ (let s := acting (fun x => { x with act := .f4, rangingEnd := some 1 });
      (actOf s 0).act = .f4 ∧ actsRun s = true ∧ processing s = false)
    ∧ (actOf (acting (fun x => { x with act := .f6, f6End := some 1 })) 0).act = .f6
    ∧ (let s0 := acting (fun x => { x with act := .f5 });
      let s := { s0 with fib := { s0.fib with trigSince := [(5, some 0)] } };
      let t := waitExit 0 (passTo (0 + ms (tget 0 s.fib.policy.holdoff (trigRow .degrade))) s);
      tget none s.fib.trigSince (0 * 8 + trigRow .degrade) = some 0 ∧ actionable s 0 = true
      ∧ t.pow.state ≠ .d2)
    ∧ (let s0 := acting (fun x => { x with act := .f5 });
      let s := inPower .d2 { s0 with fib := { s0.fib with trigSince := [(0, some 0)] } };
      let t := waitExit 0 (passTo (0 + ms (tget 0 s.fib.policy.holdoff (trigRow .laneLoss))) s);
      tget none s.fib.trigSince (0 * 8 + trigRow .laneLoss) = some 0 ∧ actionable s 0 = true
      ∧ t.pow.state = .d2 ∧ t.pow.phase = .idle ∧ t.fib.doze.ch = 0)
    ∧ (let s := modAct 0 (fun x => { x with act := .f5, withdrawn := some .laneLoss }) (channel 0 (fun x => { x with delin := .sync }));
      let t := { s with fib := { s.fib with clearSince := [(0, some 0)] } };
      (actOf t 0).withdrawn = some .laneLoss ∧ tget none t.fib.clearSince 0 = some 0
      ∧ actsRun t = true ∧ (actOf t 0).act = .f5 ∧ canJoin t 0 = true) := by decide

/-- One frame in upstream queue 511, the only one of allocation 7's list. -/
def upstream : State :=
  let c : Copy := { pkt := { fid := 1, frame := zeros 64, stored := 64 }, cells := 1, spilled := false, joined := 0, account := none };
  let a : Alloc := { id := 7, binding := none, list := [{ queue := 511, weighted := true, weight := 1 }] };
  modQueue 639 (fun q => { q with pkts := [c] })
    { base .active with up := { (base .active).up with allocs := [a] }
                        tm := { (base .active).tm with refs := [(1, { copies := 1, cells := 1 })], free := 262143 } }

/-- A burst of channel 0 with one section, launched or not. -/
def burst (launched : Bool) : State :=
  let g : Grant := { alloc := 7, start := 0, size := 0, profile := 0, report := false, smsg := false, k := 0, window := none };
  let x : Section := {
    grant := g, bytes := [], sentBytes := 0, idleBytes := 0, pfeBytes := 0, frames := [], openFrame := none
    fragments := 0, wholes := 0, messages := 0, noMessages := 0, gsnFloor := 0 };
  modTx 0 (fun t => { t with bursts := [{
    k := 0, profile := 0, shape := { words := 0, pattern := 0, delim := 0 }, hdrBit := 0, sections := [x], grants := [g], launched := launched, header := 0
    stationId := 0 }] }) (base .active)

/-- The burst of channel 0 before its grant is committed. -/
def committing (s : State) : State :=
  modTx 0 (fun t => { t with bursts := t.bursts.map (fun b => { b with sections := [] }) }) s

/-- When the next commit of a channel is due. -/
def due (s : State) (ch : Nat) : Nat := ((nextCommit s ch).map (fun e => dueBit e.1)).getD 0

theorem test_UpstreamMoves :
    (allocOf upstream 7).any (fun a => stagingOpen upstream a
      && (let s1 := forEach (a.list.map (fun e => 128 + e.queue)) dropLate upstream;
        (pickEntry s1 a).any (fun k => (a.list[k.pos]?).isSome && (stagingHead s1 a k.pos).isSome))) = true
    ∧ (let s := modTx 1 (fun _ => txOf (committing (burst false)) 0) (committing (burst false));
      (nextCommit s 1).isSome = true ∧ firstCommit s = some (0, due s 0) ∧ 0 ≠ 1)
    ∧ (nextLaunch (burst false) 0).isSome = true ∧ (nextEnd (burst true) 0).isSome = true := by decide

/-! ### Packets, tables and traffic -/

/-- A packet from the fibre waits before slice 1, or its rings do while the slice is off. -/
def sliced (d : DevState) : State := setInput 1 4 [{ frame := zeros 64, slice := 1, stored := 64 }] (base d)

/-- The same with every domain of slice 1 on. -/
def woken (d : DevState) : State :=
  (sliceDomains 1).foldl (fun s k => modDomain k (fun x => { x with woken := true }) s) (sliced d)

/-- A decided packet, under policer 8,191 or none. -/
def decided (d : DevState) (p : Option Nat) : State :=
  { base d with cls := { (base d).cls with
    decided := [{ pkt := { frame := zeros 64, stored := 64, policer := p, flags := 0 }, dests := [(0, .forwarded)], at_ := 0 }] } }

/-- Policer 8,191 with empty buckets, dropping red. -/
def emptyBuckets (s : State) : State :=
  { s with tm := { s.tm with policers := [(8191, { desc := 2 ^ 127 - 1, tc := 0, tp := 0, last := 0 })] } }

theorem test_PipelineDecides :
    (sliceRuns (woken .standby) 1 = true ∧ (nextPacket 1 (woken .standby)).1.isSome = true
      ∧ inService (nextPacket 1 (woken .standby)).2 = false)
    ∧ (sliceRuns (sliced .active) 1 = true ∧ (nextPacket 1 (sliced .active)).1.isSome = true
      ∧ inService (nextPacket 1 (sliced .active)).2 = true)
    ∧ sliceRuns State.reset 1 = false
    ∧ (let s := decided .active none;
      (nextDecided s.cls.decided).isSome = true
      ∧ (let t := takePacket (linkNo 8 0) 1 0 0 { s with cls := { s.cls with decided := [] } };
        inService t = true ∧ (meterPacket { frame := zeros 64, stored := 64 } t).2.1 = false))
    ∧ (meterPacket { frame := zeros 64, stored := 64, policer := some 8191 } (emptyBuckets (base .active))).2.1
      = true
    ∧ (let d := fun (k : Nat) => ({ pkt := { slice := k }, dests := [], at_ := 7 } : Decided);
      (nextDecided (d 1 :: [d 1, d 0])) = some (d 0, [d 1, d 1]) ∧ nextDecided [d 0, d 0] = some (d 0, [d 0]))
    := by decide

/-- An exact-match entry in the last position of way 3. -/
def entered (age : BitVec 2) (static : Bool) : State :=
  let e : EmEntry := { age := age, static := static, learned := true, profile := 0, pkts := 0, bytes := 0, action := 0, key := 1 };
  { base .active with tab := { (base .active).tab with em := [(524287, some e)] } }

/-- A learning candidate. -/
def candidate : Candidate := { key := 1, profile := 0, port := 0, move := false }

theorem test_TableEnginesRun :
    (let s := { base .active with cls := { (base .active).cls with tags := [(0, .current), (7, .draining)] } };
      tagIn s .draining = some 7 ∧ tget 0 s.cls.refs 7 = 0 ∧ tget 0 s.cls.refs 15 = 0)
    ∧ (servicesRun (entered 0 false) = true ∧ ((emAt (entered 0 false) (3 * 131072 + 131071)).map (·.age)) = some 0)
    ∧ ((emAt (entered 3 false) 524287).map (·.age)) = some 3
    ∧ ((emAt (entered 0 true) 524287).map (·.static)) = some true
    ∧ servicesRun (base .safe) = false ∧ emAt (base .active) 524287 = none
    ∧ ((settleCandidate candidate (base .active)).isNone = true
      ∧ (writeLearned candidate false (base .active)).isSome = true
      ∧ (writeLearned candidate true (base .active)).isSome = true) := by decide +kernel

/-- Every candidate position of key 1 and of key 2 holds an entry of key 2. -/
def fullTable : State :=
  let e : EmEntry := {
    age := 3, static := false, learned := true, profile := 0, pkts := 0, bytes := 0, action := 0, key := 2 };
  (positions 0 1 ++ positions 0 2).foldl (fun s p => setEm p (some e) s) (base .active)

theorem test_TableEnginesRun_full : (settleCandidate candidate fullTable).isNone = true
    ∧ (writeLearned candidate false fullTable).isNone = true
    ∧ (writeLearned candidate true fullTable).isNone = true := by decide +kernel

theorem test_TableEnginesRun_settled :
    (let p := (freePosition (base .active) nowhere 0 1).getD 0;
      let e : EmEntry := {
        age := 3, static := true, learned := false, profile := 0, pkts := 0, bytes := 0, action := 0, key := 1 };
      let s := { base .active with tab := { (base .active).tab with em := [(p, some e)] } };
      (settleCandidate candidate s).isSome = true) := by decide +kernel

/-- Port 15 up in mode 1 with EEE, changed. -/
def portUp (f : Port → Port) : State :=
  modPort 15 (fun x => f { x with
      desc := 0x145EE80320000000, aligned := true, fecLock := true, link := true, eeeKnown := true })
    { base .active with prt := { (base .active).prt with lldp := [(15, { enable := true, interval := 30 })] } }

/-- Port 15 open, in PFC with class 7 XOFF, and paused until the instant 1. -/
def flowing : State :=
  modPause 15 (fun x => { x with mode := .pfc, xoff := 0x80, quanta := 4, until_ := [(7, 1)] }) (portUp id)

/-- A frame that joined its queue at the instant 0. -/
def latePkt (spilled : Bool) : Copy :=
  { pkt := { fid := 1, frame := zeros 64, stored := 64 }, cells := 1, spilled := spilled, joined := 0, account := none }

theorem test_TrafficTimersAct :
    ((pauseOf flowing 15).mode ≠ .off ∧ bit (pauseOf flowing 15).xoff.toNat 7 = true
      ∧ portOpen flowing 15 = true ∧ (pauseOf flowing 15).until_ = (7, 1) :: [])
    ∧ (pauseOf (base .active) 15).mode = .off
    ∧ (let s := modQueue 639 (fun q => { q with pkts := [latePkt false], desc := 1 })
        { base .active with now := 10000001 };
      overSojourn s 639 (latePkt false) = true ∧ (queueOf s 639).pkts = latePkt false :: [])
    ∧ (let on := fun (k : Nat) (j : Nat) => { latePkt false with joined := j, pkt := { (latePkt false).pkt with slice := k } };
      let s := modQueue 648 (fun q => { q with pkts := [on 0 20000000, on 1 0] }) { base .active with now := 20000001 };
      firstOf (sliceOwns 648 0) (queueOf s 648).pkts = some (on 0 20000000, [on 1 0])
      ∧ overSojourn s 648 (on 0 20000000) = false
      ∧ firstOf (sliceOwns 648 1) (queueOf s 648).pkts = some (on 1 0, [on 0 20000000])
      ∧ overSojourn s 648 (on 1 0) = true)
    ∧ (let s := modQueue 0 (fun q => { q with pkts := [latePkt true] }) (base .active);
      (readBack s (queueOf s 0).pkts).isSome = true) := by decide

/-- A gate list of two halves of 1 ms from 0 s: every gate open, then none. -/
def halves (second : Byte) : GateList := { base := 0, cycle := 1000000, entries := [(0xFF, 500000), (second, 500000)] }

/-- Port 15 under a list, its class-7 queue holding a frame held since 0. -/
def gated (g : Gate) : State :=
  modQueue 127 (fun q => { q with pkts := [latePkt false], hold := some 0 })
    { base .active with tm := { (base .active).tm with gates := [(15, g)] } }

theorem test_GatesFollowLists :
    ((gateOf (gated { active := some (halves 0) }) 15).active = some (halves 0)
      ∧ nextBoundary (halves 0) 0 = some 500000)
    ∧ (let s := gated { pending := some (some (halves 0), 1000) };
      (gateOf s 15).pending = some (some (halves 0), 1000) ∧ gateTargetLive s 15 = true ∧ bit 15 15 = false)
    ∧ (let s := { upstream with tm := { upstream.tm with gates := [(32775, { pending := some (none, 1000) })] } };
      (gateOf s 32775).pending = some (none, 1000) ∧ gateTargetLive s 32775 = true ∧ bit 32775 15 = true)
    := by decide

theorem test_GatesFollowLists_hold :
    (let s := gated { active := some { base := 0, cycle := 1000000, entries := [(0, 1000000)] }, gates := 0 };
      (queueOf s 127).hold = some 0 ∧ holdCycle s 127 = some 1000000
      ∧ windowOpen s (gateOf s 15) 7 = none
      ∧ 0 + 1000000 * 1000 ≤ (passTo (0 + 1000000 * 1000) s).now
      ∧ (queueOf (passTo (0 + 1000000 * 1000) s) 127).pkts.length = 1) := by decide +kernel

theorem test_GatesFollowLists_open :
    (let s := gated { active := some { base := 0, cycle := 1000000, entries := [(0, 1000), (0xFF, 999000)] }, gates := 0 };
      windowOpen s (gateOf s 15) 7 = some 1000
      ∧ s.now + (1000 - nowNs s) * 1000 < 0 + 1000000 * 1000
      ∧ (passMain (1000 * fracNs) s).now < 0 + 1000000 * 1000) := by decide +kernel

/-! ### Ports, cipher, time and lanes -/

/-- A frame leaving port 15. -/
def leavingFrame (bad fcs : Bool) : Leaving := {
  copy := { latePkt false with pkt := { (latePkt false).pkt with bad := bad, badFcs := fcs } }
  queue := 120, bytes := zeros 64, cutThrough := true, waiting := false, time := 0 }

theorem test_PortsTransmit :
    mayStart (portUp id) 15 = true ∧ (portOf (portUp id) 15).inject = [] ∧ (portUp id).dev.state ≠ .safe
    ∧ (let s := portUp (fun x => { x with inject := [{ kind := .lldp }] });
      mayStart s 15 = true ∧ (portOf (passTo (portOf s 15).readyAt s) 15).inject = [{ kind := .lldp }] ∧ paused s 15 7 = false)
    ∧ (let s := modPause 15 (fun x => { x with until_ := [(7, 1)] }) (portUp (fun x => { x with inject := [{ kind := .lldp }] }));
      mayStart s 15 = true ∧ paused s 15 7 = true)
    ∧ (let l := leavingFrame false true;
      let s := { base .active with tm := { (base .active).tm with leaving := [(15, some l)] } };
      tget none s.tm.leaving 15 = some l ∧ l.waiting = false ∧ (false || l.copy.pkt.bad) = false
      ∧ l.copy.pkt.badFcs = true)
    ∧ (false || (leavingFrame true false).copy.pkt.bad) = true
    ∧ (false || (leavingFrame false false).copy.pkt.bad) = false
    ∧ (leavingFrame false false).copy.pkt.badFcs = false := by decide

/-- A request of the Hive, to a slot that names no key. -/
def hiveReq (bulk : Bool) : CipherReq := {
  slot := 63, keyIdx := 0, op := .encrypt, bulk := bulk, source := 10, aad := [], text := zeros 16, iv := 0, tag := 0
  seq := 0, handle := 0, ref := .hive }

/-- A result of it. -/
def hiveResult (bulk : Bool) : Result := { req := hiveReq bulk, status := 0, bytes := [], pipe := 15 }

/-- Pipeline 15 changed. -/
def piped (d : DevState) (f : Pipe → Pipe) : State := modPipe 15 f (base d)

theorem test_CipherRequestsMove :
    (let s := fun d => { base d with cip := { (base d).cip with waiting := [(10, [hiveReq false])] } };
      tget [] (s .safe).cip.waiting 10 = hiveReq false :: [] ∧ leastLoaded (s .safe) (pipesOf 10) = some 0
      ∧ complexErased (s .safe) = true ∧ leastLoaded (s .active) (pipesOf 10) = some 0
      ∧ complexErased (s .active) = false ∧ requestFits (s .active) 0 (hiveReq false) = true
      ∧ domainOn (s .active) (engineDomain 0) = true)
    ∧ (let s := { base .active with cip := { (base .active).cip with derivations := [(63, 0)] } };
      s.cip.derivations = (63, 0) :: [] ∧ derivedEntry s (63, 0) = none)
    ∧ (let s := { base .active with cip := { (base .active).cip with
        derivations := [(63, 0)], slots := [(63, BitVec.ofNat 64 (2 ^ 63 + 2 ^ 62 + 2 ^ 54))], roots := [(1, 5)] } };
      (derivedEntry s (63, 0)).isSome = true)
    ∧ (let s := piped .active (fun x => { x with queue := [hiveReq false] });
      complexErased s = false ∧ engineRuns 15 s = true ∧ readyLine s 15 = some (hiveReq false) ∧ (pipeOf s 15).running = none)
    ∧ (let s := piped .active (fun x => { x with queue := [hiveReq false], running := some (hiveResult true) });
      readyLine s 15 = some (hiveReq false) ∧ (pipeOf s 15).running = some (hiveResult true)
      ∧ (hiveResult true).req.bulk = true)
    ∧ (let s := piped .active (fun x => { x with
          suspended := some (hiveResult true), bulkWait := some 0, queue := [hiveReq true] });
      complexErased s = false ∧ engineRuns 15 s = true ∧ readyLine s 15 = none ∧ (pipeOf s 15).running = none ∧ (pipeOf s 15).share = false
      ∧ (pipeOf s 15).bulkWait = some 0 ∧ (pipeOf s 15).suspended = some (hiveResult true))
    ∧ (let s := piped .active (fun x => { x with bulkWait := some 0 });
      (pipeOf s 15).running = none ∧ (pipeOf s 15).share = false ∧ (pipeOf s 15).bulkWait = some 0
      ∧ (pipeOf s 15).suspended = none ∧ engineRuns 15 s = true ∧ readyBulk s 15 = none)
    ∧ (let s := piped .active (fun x => { x with bulkWait := some 0, queue := [hiveReq true] });
      let t := bump (ck 305 29 15) 1 (modPipe 15 (fun x => { x with share := true }) (passTo (0 + us 20) s));
      (pipeOf s 15).suspended = none ∧ engineRuns 15 s = true
      ∧ (readyBulk s 15).isSome = true ∧ readyBulk t 15 = some (hiveReq true))
    ∧ (let s := piped .active (fun x => { x with running := some (hiveResult true) });
      (pipeOf s 15).running = some (hiveResult true) ∧ engineRuns 15 s = true)
    ∧ (let s := piped .active (fun x => { x with suspended := some (hiveResult true), share := true });
      (pipeOf s 15).running = none ∧ (pipeOf s 15).suspended = some (hiveResult true)
      ∧ (pipeOf s 15).share = true ∧ engineRuns 15 s = true)
    ∧ (let s := piped .active (fun x => { x with queue := [hiveReq true] });
      readyLine s 15 = none ∧ (pipeOf s 15).suspended = none ∧ readyBulk s 15 = some (hiveReq true))
    ∧ (let s := (inPower .d3 (base .active)); domainOn s (engineDomain 0) = false ∧ complexErased s = false)
    ∧ afterLoading (base .active) = true := by decide

/-- Channels 2 and 3 in F5 with wavelengths 10 nm apart, each with a ToD field of SFC 5 captured, or channel 3 alone. -/
def timed (both : Bool) : State :=
  let c : Capture := { sfc := 5, tc := 1000, hc := 2000 };
  let x : FibreDelay := { lambdaD := 1577000, lambdaU := 1270000, delayRx := 0, delayTx := 0, asym := 0 };
  let s := modAct 2 (fun x => { x with act := .f5 }) (modAct 3 (fun x => { x with act := .f5 }) (base .active));
  { s with time := { s.time with fibre := { s.time.fibre with
      captures := (if both then [(2, some c)] else []) ++ [(3, some c)]
      delays := [(2, { x with lambdaD := 1587000 }), (3, x)] } } }

theorem test_ServosAct :
    (let s := { base .active with time := { (base .active).time with slewing := true } };
      s.time.slewing = true ∧ s.time.sleep = none)
    ∧ (let s := modServo .b (fun x => { x with state := .locked, lastAt := some 0, pending := some (1, 0) }) (base .active);
      (servoOf s .b).state = .locked ∧ s.time.sleep = none ∧ (servoOf s .b).pending = some (1, 0)
      ∧ (servoOf s .a).pending = none)
    ∧ latestChannels (timed false) (timed false).time.fibre.sampledOf = (some 5, (3, { sfc := 5, tc := 1000, hc := 2000 }) :: [])
    ∧ (timed false).time.fibre.sampled ≠ some 5
    ∧ State.reset.time.refOk = false
    ∧ (let s := { base .active with time := { (base .active).time with refOk := true } };
      s.time.refOk = true)
      := by decide

theorem test_ServosAct_estimate :
    (newChannels (passTo ((timed false).time.fibre.estimatedAt + ms 1000) (timed false))).2.length < 2
    ∧ (let t := passTo ((timed true).time.fibre.estimatedAt + ms 1000) (timed true);
      let l := (newChannels t).2;
      2 ≤ l.length ∧ 4000000000000000000
        ≤ (estimateSums ((l.map (chanSecond t) :: t.time.fibre.history).take 16) (l.map (·.1))).2)
    := by decide +kernel

/-- A message of R339 for the second 7 with a UTC offset of 37 s, at 16 bytes, with its CRC. -/
def plain7 : Bytes :=
  let b : Bytes := [0xA5, 0x3C, 0x01, 0x0A] ++ beBytes 6 7 ++ beBytes 2 37 ++ [4, 0];
  b ++ beBytes 2 (todCrc (b ++ [0, 0]))

/-- After a PPS_IN edge at the instant 0. -/
def edged : State :=
  { base .active with time := { (base .active).time with edgeAt := some ({}, 0), sourceB := .pps } }

theorem test_TimeInputsAndOutputs :
    ((1 : Word32).getLsbD 0 = true ∧ (base .active).dev.ready = true ∧ (2 : Word32).getLsbD 0 = false)
    ∧ (let s := { base .active with time := { (base .active).time with ppsEnable := true } };
      s.time.ppsEnable = true ∧ s.time.ppsHeld = false ∧ s.time.sleep = none)
    ∧ (let s := { base .active with time := { (base .active).time with todDue := some (7, 0) } };
      s.time.todDue = some (7, 0) ∧ s.time.sleep = none)
    ∧ (base .active).time.edgeAt = none ∧ (base .active).time.lastEdge = none
    ∧ (let s := { base .active with time := { (base .active).time with lastEdge := some {} } };
      s.time.lastEdge = some {} ∧ s.time.edgeAt = none ∧ 99999 < 100000 ∧ 100000 ≤ 100000
      ∧ 100000 * fracNs < ((((passTo (s.now + 5000) s).time.b.shadow.add (-nsUnits 5)).total : Int)
        - ({} : Beryl).total - secUnits).natAbs)
    ∧ (todCrc (zeros 16) ≠ be (zeros 16) 14 2)
    ∧ servicesRun (base .active) = true := by decide

/-- Its bytes 10 to 12 rest on functions without a body: the UTC offset and the flags. -/
theorem test_TimeInputsAndOutputs_message : edged.time.edgeAt = some ({}, 0) ∧ edged.now ≤ 0 + ms 900
    ∧ todCrc plain7 = be plain7 14 2 ∧ todShape plain7 = true := by decide +kernel

theorem test_LinksChange :
    (portOf (portUp id) 15).mode ≠ 0
    ∧ (let s := portUp (fun x => { x with link := false, goodSince := some 0 });
      (portOf s 15).link = false ∧ linkGood (portOf s 15) = true ∧ portRuns s 15 = true ∧ portsSend s = true
      ∧ (portOf s 15).goodSince = some 0)
    ∧ (let s := portUp (fun x => { x with aligned := false, badSince := some 0 });
      (portOf s 15).link = true ∧ linkGood (portOf s 15) = false ∧ (portOf s 15).badSince = some 0)
    ∧ (let s := portUp (fun x => { x with desc := x.desc ||| 0x0800000000000000, link := false, anFailed := true });
      (portOf s 15).kr = true ∧ portRuns s 15 = true ∧ (portOf s 15).link = false ∧ (portOf s 15).anFailed = true
      ∧ (portOf s 15).anDone = false)
    ∧ ((portOf (portUp id) 15).txLpi = false ∧ mayIdle (portUp id) 15 = true)
    ∧ (let s := modLane 15 (fun x => { x with state := .ready }) (portUp id);
      armed (laneOf s 15) = true ∧ ownerOf s 15 = some 15 ∧ (portOf s 15).rxLpi = false)
    ∧ (let s := portUp (fun x => { x with desc := x.desc ||| 0x0800000000000000 });
      (portOf s 15).kr = true ∧ portRuns s 15 = true ∧ (portOf s 15).anDone = false ∧ (portOf s 15).mode = 1)
    ∧ (let s := modLane 20 (fun x => { x with state := .ready })
        { base .active with prt := { (base .active).prt with mgmtMode := 1 } };
      s.prt.mgmtMode ≠ 0 ∧ s.prt.mgmtSync ≠ true ∧ armed (laneOf s 20) = true ∧ 3 ≤ 3 ∧ 2 < 3) := by decide

/-- Port 15 up with its lane READY, changed. -/
def receiving (f : Port → Port) : State := modLane 15 (fun x => { x with state := .ready }) (portUp f)

/-- Port 15 receiving with MACsec on. -/
def secured : State := receiving (fun x => { x with desc := x.desc ||| 0x20000 })

theorem test_ClientFramesAreJudged :
    (looped (modLane 15 (fun x => { x with loopback := 3 }) (receiving id)) 15 3 = true
      ∧ looped (receiving id) 15 3 = false ∧ looped (base .active) 15 3 = false)
    ∧ (let d := stampOn (10 + 15 / 4) (bufferLanes 15 true (receiving id));
      delineates (receiving id) 15 = true ∧ earlyFault d.2 15 false true = some 7
      ∧ earlyFault d.2 15 true true = none)
    ∧ delineates (base .active) 15 = false
    ∧ (lengthFault (portOf (receiving id) 15) (zeros 63) = some 2
      ∧ lengthFault (portOf (receiving id) 15) (zeros 64) = none)
    ∧ (let s := receiving (fun x => { x with diverted := [(.lldp, zeros 64, 0)] });
      (portOf s 15).diverted = (.lldp, zeros 64, 0) :: [] ∧ serviceOn s 15 .lldp = true)
    ∧ (let s := modMacsec 15 (fun m => { m with mkaUp := true }) secured;
      serviceOn s 15 .mka = true ∧ (macsecOf s 15).mkaUp = true)
    ∧ (let s := { base .active with time := { (base .active).time with slave := some 15 } };
      s.time.slave = some 15) := by decide

/-- The management port synchronised. -/
def managed : State :=
  modLane 20 (fun x => { x with state := .ready })
    { base .active with prt := { (base .active).prt with mgmtMode := 1, mgmtSync := true } }

/-- A frame to a destination, with its FCS. -/
def framed (dst : Byte) (n : Nat) : Bytes :=
  let b := List.replicate 6 dst ++ zeros n;
  b ++ fcsBytes b

/-- The rate of the management port repeats no byte, so the frame is taken as it came. -/
theorem test_ClientFramesAreJudged_mgmt :
    mgmtUp managed = true ∧ looped managed 16 3 = false
    ∧ (∀ b, unrepeat (sgmiiRepeat managed.prt.mgmtMode) b = b) ∧ (∀ d n, fcsOk (framed d n) = true)
    ∧ passesMgmt managed (framed 0 54) = false
    ∧ (passesMgmt managed (framed 0xFF 54) = true ∧ (framed 0xFF 54).length ≤ 1522
      ∧ divertOf managed 16 (framed 0xFF 54) = none)
    ∧ (passesMgmt managed (framed 0xFF 1513) = true ∧ 1522 < (framed 0xFF 1513).length) := by
  refine ⟨by decide, by decide, fun b => Laws.unrepeat_one b, fun d n => Laws.fcsOk_append_fcsBytes _, by decide +kernel, ?_, ?_⟩
  · exact ⟨by decide +kernel, by simp [framed, zeros], by decide +kernel⟩
  · exact ⟨by decide +kernel, by simp [framed, zeros]⟩

/-- Lane 20 changed. -/
def laned (f : Lane → Lane) : State := modLane 20 f (base .active)

theorem test_LanesReport :
    (let s := laned (fun x => { x with state := .ready });
      armed (laneOf s 20) = true ∧ losMaskedNow s (laneOf s 20) = false
        ∧ bears (laneOf s 20) .los true none = true
        ∧ bears (laneOf s 20) .lol true (some (.clock [301, 301] false true)) = true
        ∧ bears (laneOf s 20) .lol true (some (.clock [301, 300] false true)) = false
        ∧ bears (laneOf s 20) .lol false (some (.clock (List.replicate 100 250) false true)) = true)
    ∧ armed (laneOf (base .active) 20) = false
    ∧ (let s := laned (fun x => { x with state := .deep });
      (laneOf s 20).entering = false ∧ (laneOf s 20).state = .deep ∧ stirs 20 (laneOf s 20) none = true
        ∧ stirs 19 (laneOf s 19) (some (.wake 64 950)) = true ∧ stirs 19 (laneOf s 19) (some (.wake 63 1000)) = false)
    ∧ (let s := laned (fun x => { x with state := .ready, entering := true });
      (laneOf s 20).entering = true ∧ (laneOf s 20).order ≠ some true ∧ stirs 20 (laneOf s 20) none = true)
    ∧ (let s := laned (fun x => { x with state := .exiting });
      (laneOf s 20).state = .exiting ∧ (laneOf (becomeReady 20 false 0 s) 20).entering = false)
    ∧ (let s := laned (fun x => { x with state := .ready, checker := 1 });
      (laneOf s 20).checker ≠ 0 ∧ (laneOf s 20).checkLock = false ∧ (laneOf s 20).state = .ready ∧ 64 ≤ 64)
    ∧ (let s := laned (fun x => { x with state := .ready, checker := 7, checkLock := true });
      (laneOf s 20).checker ≠ 0 ∧ (laneOf s 20).checkLock = true ∧ (laneOf s 20).state = .ready)
    ∧ (63 < 64 ∧ 31 < 32 ∧ 32 ≤ 32) := by decide

/-! ### Power, start-up, faults, memory and observability -/

/-- In a phase of a power-state change. -/
def inPhase (p : PowerPhase) : State := { base .active with pow := { (base .active).pow with phase := p } }

theorem test_PowerEventsAct :
    (base .active).pow.railsUp = true
    ∧ (domainSetting (inPower .d1 (base .active)) 46 = .gated ∧ domainBusy (inPower .d1 (base .active)) 46 = false
      ∧ (domainOf (inPower .d1 (base .active)) 46).asleep = false)
    ∧ (let s := modDomain 46 (fun d => { d with woken := true }) (inPower .d2 (base .active));
      domainSetting s 46 = .off ∧ (domainOf s 46).woken = true ∧ domainBusy s 46 = false)
    ∧ (let s := modDomain 78 (fun d => { d with woken := true }) (inPower .d2 (base .active));
      domainSetting s 78 = .retained ∧ (domainOf s 78).woken = true ∧ domainBusy s 78 = false
      ∧ bankOfDomain 78 = some 23)
    ∧ (let s0 := running 0 (fun x => { x with delin := .sync, sfc := 9 });
      let s := { s0 with fib := { s0.fib with doze := { s0.fib.doze with phase := .scheduled, ch := 0, start := 9 } } };
      s.fib.doze.phase = .scheduled ∧ s.pow.state = .d0 ∧ comesTo s s.fib.doze.ch s.fib.doze.start = true)
    ∧ (inPhase .enteringD3).pow.phase = .enteringD3 ∧ (inPhase .toD1).pow.phase = .toD1
    ∧ (inPhase .fromD1).pow.phase = .fromD1 ∧ (inPhase .exitingD2).pow.phase = .exitingD2
    ∧ (inPhase .exitingD3).pow.phase = .exitingD3
    ∧ (domainOn (base .active) (islandDomain (detectorIsland 47)) = true
      ∧ (detectOf (base .active) 47).stretching = false
      ∧ (recentSags (base .active) (detectOf (base .active) 47)).length < (detectOf (base .active) 47).sustain)
    ∧ (let s := modDetect 47 (fun x => { x with sustain := 1 }) (base .active);
      (detectOf s 47).sustain ≤ (recentSags s (detectOf s 47)).length)
    ∧ (let s := modDetect 0 (fun x => { x with stretching := true }) (base .active);
      (detectOf s 0).stretching = true ∧ (detectOf s 0).sustained = false)
    ∧ (base .active).dev.ready = true ∧ (base .active).dev.causes = 0
    ∧ (base .degraded).dev.causes = 0
    ∧ (let s := { base .degraded with dev := { (base .degraded).dev with causes := 16 } };
      s.dev.state = .degraded ∧ s.dev.causes ≠ 0) := by decide

/-- LOADING with these states in the two flash slots. -/
def loading (a b : Option (Nat × SlotState)) : State :=
  let s := base .loading;
  let sector := fun (x : Option (Nat × SlotState)) => (x.map (fun e => sectorBytes e.1 e.2)).getD [];
  { s with mnt := { s.mnt with slots := [(0, { sector := sector a }), (1, { sector := sector b })] } }

/-- Whether an image is authentic rests on functions without a body. -/
theorem test_SupplyAndStartUpAct :
    (let s := { State.reset with sup := { State.reset.sup with lockout := true } };
      s.sup.lockout = true)
    ∧ (State.reset.dev.state = .cold ∧ State.reset.dev.released = false ∧ State.reset.sup.lockout = false
      ∧ State.reset.sup.pgood = true ∧ State.reset.sup.refOk = false)
    ∧ (let s := { State.reset with sup := { State.reset.sup with refOk := true } };
      s.sup.refOk = true)
    ∧ (let s := { base .active with sup := { (base .active).sup with dyingGasp := true, goodSince := some 0 } };
      s.sup.dyingGasp = true ∧ s.sup.goodSince = some 0)
    ∧ (2600 ≤ 5800 ∧ 2500 ≤ 2599 ∧ 2499 < 2500 ∧ 5800 < 5801)
    ∧ (loading none none).dev.state = .loading ∧ (loading none none).dev.bootTried = false
      ∧ bootOrder (loading none none) = []
    ∧ bootOrder (loading (some (2, .confirmed)) (some (1, .trial))) = [0, 1]
    ∧ (let s := loading (some (2, .trying)) (some (3, .trying));
      let x := { s with dev := { s.dev with bootTried := true } };
      s.dev.state = .loading ∧ s.dev.bootTried = false ∧ bootOrder s = 1 :: [0] ∧ (trySlot 1 [] x).1 = false
        ∧ (trySlot 0 [] (trySlot 1 [] x).2).1 = false)
    ∧ (let s := loading (some (2, .trying)) none;
      let x := { s with dev := { s.dev with bootTried := true } };
      bootOrder s = 0 :: [] ∧ (trySlot 0 [] x).1 = false)
    ∧ (let s := { base .loading with dev := { (base .loading).dev with booted := true } };
      s.dev.state = .loading ∧ s.dev.booted = true)
    ∧ (let s := { loading (some (1, .trying)) none with dev := { (base .active).dev with readyAt := some 0 } };
      s.dev.readyAt = some 0 ∧ slotControl s s.mnt.slot = some (1, .trying)) := by decide

theorem test_SupplyAndStartUpAct_authentic (s : State) (n : Nat) (h : slotControl s 0 = some (n, .confirmed))
    (v : authentic s (slotImage s 0) = true) : trySlot 0 [1] s = (true, s) := by simp [trySlot, h, v]

/-- Sensor 23 changed. -/
def sensed (f : Sensor → Sensor) : State := modSensor 23 f (base .active)

theorem test_AlarmsAndFaultsAct :
    (let s := { base .active with dev := { (base .active).dev with erasing := true } };
      s.dev.erasing = true)
    ∧ (base .active).pow.tamperRun < 2
    ∧ (let s := { base .active with pow := { (base .active).pow with tamperRun := 2 } };
      2 ≤ s.pow.tamperRun)
    ∧ (base .active).dev.lockstep = false ∧ wardenRuns (base .active) = true ∧ afterLoading (base .active) = true
    ∧ ((-551 : Int) < -550 ∧ (1500 : Int) < 1501 ∧ (-550 : Int) ≤ 1251 ∧ (1251 : Int) ≤ 1500)
    ∧ (let s := sensed (fun x => { x with overAlarm := true, overHot := true });
      (readingOk 1251 = true ∧ (sensorOf s 23).overAlarm = true ∧ (1250 : Int) < 1251)
      ∧ crossing s [(23, 1240)] ≠ [] ∧ ¬ (1250 : Int) < 1240 ∧ ∃ j < 24, (sensorOf (noteReading (23, 1240)
        (modSensor 22 (fun x => { x with overAlarm := true }) s)) j).overAlarm = true)
    ∧ (∀ j < 24, (sensorOf (noteReading (23, 250) (base .active)) j).overAlarm = false)
    ∧ (let s := { sensed (fun x => { x with reading := 1120, coolAt := some 1 }) with
          pow := { (sensed (fun x => { x with reading := 1120, coolAt := some 1 })).pow with throttle := true } };
      s.pow.throttle = true ∧ ∀ k < 24, stillHot (sensorOf s k) = false)
    ∧ (sensorOf (base .active) 23).failed = false := by decide

theorem test_AlarmsAndFaultsAct_pins :
    (base .active).sup.vioLow = false ∧ us 10 ≤ us 10 ∧ us 2 ≤ us 2 ∧ us 2 - 1 < us 2 ∧ us 10 - 1 < us 10
    ∧ (let s := { base .active with sup := { (base .active).sup with vioLow := true } };
      s.sup.vioLow = true)
    ∧ bit (base .active).hif.gpioIn.toNat 15 ≠ true ∧ bit (base .active).hif.gpioDir.toNat 15 = false
    ∧ (let s := modLane 19 (fun x => { x with state := .ready }) (modAct 3 (fun x => { x with act := .f5 }) (base .active));
      let t := { s with sup := { s.sup with vioLow := true } };
      (laneOf s 19).state = .ready ∧ (actOf s 3).act ≠ .f0 ∧ servicesRun s = true ∧ s.sup.vioLow = false
        ∧ (laneOf t 19).state = .ready ∧ (actOf t 3).act ≠ .f0 ∧ servicesRun t = true ∧ t.sup.vioLow = true)
    ∧ resetOnly .bypass = false ∧ resetOnly .highz = true ∧ (base .active).dev.pinLow = false := by decide

/-- One entry of a merge buffer. -/
def merged (whole old : Bool) : MergeEntry := {
  region := 13, addr := 16, data := 0, mask := if whole then 0xFF else 1, width := 8, oldBad := old, at_ := 0 }

/-- Merge buffer 24 with it, a filter entry and a poisoned word of region 14, and a lost item. -/
def scarred (d : DevState) : State :=
  let s := modRegion 14 (fun x => { x with poisoned := [16] }) (base d);
  { s with mem := { s.mem with
    filters := [(25, [{ region := 14, addr := 8, last := 0, landed := false, persistent := false }])]
    merge := [(24, [merged true false])], lost := [{ region := 14, addr := 8, item := 0, caused := true }] } }

theorem test_MemoryIsScrubbed :
    (regionReadable (scarred .active) 13 16 = true ∧ 16 % wordBytes 13 = 0 ∧ 16 < regionBytes 13
      ∧ inMerge (scarred .active) 13 16 = true ∧ inMerge (scarred .active) 13 8 = false)
    ∧ (regionOf (base .active) 14).pending = none
    ∧ (let s := modRegion 14 (fun x => { x with pending := some (1, 1) }) (base .active);
      (regionOf s 14).pending = some (1, 1))
    ∧ ((tget [] (settleBacks (scarred .active)).mem.filters (controllerOf 14 8)).find?
      (fun f => f.region == 14 && f.addr == 8)).isSome = true
    ∧ ((regionOf (scarred .active) 14).poisoned.contains 16 = true
      ∧ (regionOf (scarred .active) 14).poisoned.contains 8 = false
      ∧ regionReadable (inPower .d3 (scarred .active)) 13 16 = false)
    ∧ (writeFits 24 13 16 = true
      ∧ ((0xFFFF : BitVec 16).toNat % 2 ^ wordBytes 13 = 2 ^ wordBytes 13 - 1)
      ∧ ((1 : BitVec 16).toNat % 2 ^ wordBytes 13 ≠ 2 ^ wordBytes 13 - 1)
      ∧ (mergeOf (base .active) 24).find? (fun e => e.holds 13 16) = none
      ∧ ((mergeOf (scarred .active) 24).find? (fun e => e.holds (regionOfCtl 24 13) 16)).isSome = true
      ∧ mergeOf (scarred .active) 24 = [merged true false])
    ∧ ((scarred .active).mem.lost.find? (fun e => e.region == 14 && e.addr == 8)).isSome = true
    ∧ (scarred .safe).dev.state = .safe ∧ (scarred .active).dev.state ≠ .safe
    ∧ bankOfWord 14 8 = none
    ∧ (let s := modBank 23 (fun b => { b with lost := true, zeroed := true }) (base .active);
      bankOfWord 8 16 = some 23 ∧ (bankOf s 23).zeroed = true)
    ∧ ((mergeOf (scarred .active) 24).find? (fun e => e.holds (regionOfCtl 24 13) 16)).isSome = true := by decide

/-- Flow export in use over the management port, with its template due since 0 and every record kind on. -/
def exporting (s0 : State) : State :=
  let s := modLane 20 (fun x => { x with state := .ready })
    { s0 with prt := { s0.prt with mgmtMode := 1, mgmtSync := true } };
  { s with obs := { s.obs with ipfix := { s.obs.ipfix with enable := true, mask := 0xFF, templateAt := some 0 } } }

/-- An entry with nothing counted. -/
def candidate0 : EmEntry :=
  { age := 3, static := false, learned := true, profile := 0, pkts := 0, bytes := 0, action := 0, key := 0 }

/-- Entry 131,071 of way 3, and rule 16,383, with packets counted. -/
def counted (s : State) : State :=
  let e : EmEntry := {
    age := 3, static := false, learned := true, profile := 0, pkts := 5, bytes := 500, action := 0, key := 2 };
  let r : Rule := { value := 0, mask := 0, control := 0, action := 0, versions := 2, pkts := 5, bytes := 500 };
  { s with
    tab := { s.tab with em := [(3 * 131072 + 131071, some e)] }
    cls := { s.cls with rules := [(16383, some r)] } }

theorem test_ObservabilityEventsAct :
    auditRuns (base .active) = true
    ∧ (let s := exporting (base .active);
      let t := modIpfix (fun x => { x with resolved := true }) s;
      s.obs.ipfix.templateAt = some 0 ∧ exportRuns s = true ∧ s.obs.ipfix.resolved = false
      ∧ s.obs.ipfix.asked = false ∧ exportRuns t = true ∧ t.obs.ipfix.resolved = true
      ∧ (base .active).obs.ipfix.templateAt = none)
    ∧ (let s := modIpfix (fun x => { x with asked := true }) (exporting (base .active));
      exportRuns s = true ∧ s.obs.ipfix.resolved = false ∧ s.obs.ipfix.asked = true ∧ s.obs.ipfix.failed = false ∧ s.now ≤ s.obs.ipfix.resolveAt + us 3000000)
    ∧ (let s := modIpfix (fun x => { x with asked := true, failed := true }) (exporting (base .active));
      exportRuns s = true ∧ s.obs.ipfix.asked = true ∧ s.obs.ipfix.resolved = false ∧ s.obs.ipfix.failed = true)
    ∧ (let s := counted (exporting (base .active));
      let x := (emAt s (3 * 131072 + 131071)).getD candidate0;
      let k := emStream x.profile x.key;
      let read := fun (t : State) => accumulate k x.pkts.toNat x.bytes.toNat t;
      let t := read (passTimeout k 2 (read s));
      (emAt s (3 * 131072 + 131071)).isSome = true ∧ exports t 256 = true ∧ recordDue t (streamOf t k) 2 = true)
    ∧ (let s := counted (exporting (base .active));
      let read := fun (t : State) => accumulate (ruleStream 16383) 5 500 t;
      let t := read (passTimeout (ruleStream 16383) 2 (read s));
      (tget none s.cls.rules 16383).isSome = true ∧ exports t 257 = true
      ∧ recordDue t (streamOf t (ruleStream 16383)) 2 = true)
    ∧ (exports (counted (base .active)) 256 = false ∧ exports (counted (base .active)) 257 = false)
    ∧ (servicesRun (base .active) = true ∧ (base .safe).dev.state = .safe) := by decide +kernel

/-- A dump that the host takes no copy of is being written. -/
def dumping : State :=
  let j : DumpJob := { gen := 17, bytes := zeros 64, host := false, cnt := [], samples := [], audit := [], at_ := 0, addr := 0, slots := 0 };
  { base .active with obs := { (base .active).obs with dumpWriting := some j } }

theorem test_ObservabilityEventsAct_background :
    dumping.obs.dumpWriting.any (fun j => !j.host) = true
    ∧ (afterLoading (base .active) = true ∧ (base .active).mnt.checkDue = false)
    ∧ (let s := { base .active with mnt := { (base .active).mnt with checkDue := true } }; s.mnt.checkDue = true)
    ∧ ((runningBox 0x0D02 true).hif.running.find? (fun r => r.mbx == 1 && r.background)).any
      (fun r => r.opcode == 0x0D02) = true
    ∧ ((runningBox 0x0D04 true).hif.running.find? (fun r => r.mbx == 1 && r.background)).any
      (fun r => r.opcode == 0x0D04) = true
    ∧ ((runningBox 0x0D05 true).hif.running.find? (fun r => r.mbx == 1 && r.background)).any
      (fun r => r.opcode == 0x0D05) = true := by decide

/-! ### Moderation, the drain and deadlines -/

theorem test_Moderation :
    State.reset.dev.ready = false
    ∧ ((base .standby).dev.ready = true ∧ (11 : Fin 32).val = 11 ∧ (31 : Fin 32) ≠ 1)
    ∧ (let x := { vecOf evtRing 2 with countM1 := 0, holdoff := 0 }; evtRing.dev.ready = true ∧ ¬ 0 < x.causes)
    ∧ (let s := { evtRing with hif := { evtRing.hif with msix := [(10, { causes := 2, first := some 0 })] } };
      let x := { vecOf s 10 with countM1 := 1, holdoff := 1023 };
      (10 : Fin 32) ≠ 1 ∧ (10 : Fin 32).val < 11 ∧ 0 < x.causes ∧ x.countM1.toNat + 1 ≤ x.causes)
    ∧ (let s := { evtRing with now := 1000000, hif := { evtRing.hif with
        msix := [(2, { causes := 1, first := some 0 })] } };
      let x := { vecOf s 2 with countM1 := 255, holdoff := 1 };
      0 < x.causes ∧ x.first = some 0 ∧ 0 + us x.holdoff.toNat ≤ s.now)
    ∧ ((vecOf evtRing 2).causes = 0)
    ∧ (let s := { evtRing with hif := { evtRing.hif with msix := [(10, { causes := 1, first := some 7 })] } };
      0 < (vecOf s 10).causes ∧ (vecOf s 10).first = some 7) := by decide

theorem test_Drain :
    evtRing.hif.lost = none
    ∧ (let s := { evtRing with hif := { evtRing.hif with lost := some (5, 2) } };
      let t := drainBacklog s.hif.backlog s;
      s.hif.lost = some (5, 2) ∧ t.hif.backlog = [] ∧ ringRoom t = true)
    ∧ (let s := { base .standby with hif := { (base .standby).hif with lost := some (5, 2) } };
      let t := drainBacklog s.hif.backlog s;
      s.hif.lost = some (5, 2) ∧ ¬ (t.hif.backlog = [] ∧ ringRoom t = true)) := by decide

/-- Mailbox 0 rung with an opcode that no command has, and this CMD_SEQ, after a last sequence. -/
def strange (seq : Byte) (last : Word32) : State :=
  let s := ring .standby 0x010D 0 [];
  { s with hif := { s.hif with
    mbox := tset 0 s.hif.mbox 0 seq, lastSeq := [(0, some last)]
    kept := [(0, some { status := 2, rolled := false, isPartial := false, jseq := 1, data := [] })] } }

theorem test_UnknownOpcode :
    ((frontBell (strange 0 1) 0).isSome = true ∧ cmdSeq (strange 0 1) 0 = 0)
    ∧ (cmdSeq (strange 1 1) 0 ≠ 0 ∧ lastSeq (strange 1 1) 0 = some (cmdSeq (strange 1 1) 0)
      ∧ (tget none (strange 1 1).hif.kept 0).isSome = true)
    ∧ (cmdSeq (strange 1 2) 0 ≠ 0 ∧ lastSeq (strange 1 2) 0 = some 2
      ∧ 2 ^ 31 ≤ subMod 32 (cmdSeq (strange 1 2) 0).toNat 2)
    ∧ (let s := strange 2 1;
      seqNew s 0 = true
      ∧ stepThree (cmdOf (mbxField s 0 0x004 2)) 0 (mbxField s 0 0x006 2) (cmdArgs s 0) (popBell s) = some 0x004)
    ∧ (let s := ring .standby 0x010B 0 [];
      (frontBell s 0).isSome = true ∧ seqNew s 0 = true
      ∧ stepThree (cmdOf (mbxField s 0 0x004 2)) 0 (mbxField s 0 0x006 2) (cmdArgs s 0) (popBell s) = none)
    ∧ frontBell (base .standby) 0 = none := by decide

theorem test_Deadline :
    (let s := runningBox 0x0D02 true;
      (s.hif.running.find? (fun r => r.mbx == 1)).any
        (fun r => !irrevocable (passTo r.deadline s) r && !irrevocable s r) = true)
    ∧ (let s := { runningBox 0x0A01 false with pow := { (base .standby).pow with phase := .enteringD3 } };
      (s.hif.running.find? (fun r => r.mbx == 1)).any
        (fun r => irrevocable (passTo r.deadline s) r && irrevocable s r) = true)
    ∧ ((base .standby).hif.running.find? (fun r => r.mbx == 0) = none ∧ frontBell (base .standby) 0 = none)
    ∧ (let s := ring .standby 0x010B 0 [];
      let late := passTo (deadlineAt cmdDeviceNop 0 { mbx := 0, at_ := 0, beryl := 0 } s) s;
      s.hif.running.find? (fun r => r.mbx == 0) = none ∧ (frontBell s 0).isSome = true
      ∧ (cmdOf (mbxField s 0 0x004 2)).any (fun c => c.opcode == 0x010B && c.items.isNone) = true
      ∧ seqNew s 0 = true
      ∧ stepThree (some cmdDeviceNop) 0 (mbxField s 0 0x006 2) (cmdArgs s 0) (popBell late) = none
      ∧ stepFour cmdDeviceNop (mbxField s 0 0x008 4) (cmdArgs s 0) (popBell late) = none
      ∧ cmdDeviceNop.legal (popBell late) (cmdArgs s 0) = true) := by decide

/-! ### Values that the specification works out -/

/-- The ASCII string 123456789. -/
def digits : Bytes := (List.range 9).map (fun i => BitVec.ofNat 8 (0x31 + i))

/-- R75 and R339 give the CRC of that string under their parameters. -/
theorem test_stated_checks : crcMsb 8 0x07 0 (bitsOf digits) = 0xF4
    ∧ crcMsb 16 0x1021 0xFFFF (bitsOf digits) = 0x29B1 := by decide +kernel

/-- R2, R399, R471: the identity in configuration space. -/
theorem test_configuration_ids : configIds = 0x74401F6E ∧ subsystemIds = 0x74401F6E
    ∧ classWord = 0x02800010 := by decide

/-- R58: what the scrambler makes of bits under a counter, the descrambling gives back. -/
theorem test_descrambled :
    (let plain : Bytes := [0x12, 0x34, 0x56, 0x78, 0x9A, 0xBC, 0xDE, 0xF0];
      let sent := zeros 24 ++ packBits 8 (scramble (91 * 2 ^ 51 + 7) (bitsOf plain));
      let f : RxFrame := { bytes := sent, flips := [200], failed := [], arrival := 0 };
      (clearBytes { f with flips := [] } 7).drop 24 = plain
      ∧ (takeApart f 7).bad = [] ∧ (takeApart f 7).correctedBits = 1 ∧ (takeApart f 7).correctedWords = 1
      ∧ (takeApart { f with failed := [0] } 7).bad = [0]
      ∧ (takeApart { f with failed := [0] } 7).correctedBits = 0) := by decide +kernel

/-- R564: a control sector reads back as it was written, and one with a changed byte holds nothing. -/
theorem test_control_sector : readSector (sectorBytes 7 .trying) = some (7, .trying)
    ∧ readSector (0 :: (sectorBytes 7 .trying).drop 1) = none := by decide +kernel

/-- R546: a pulse one picosecond too narrow is counted, and one of the width acts at its end. -/
theorem test_deglitch : (deglitch 1 3 10 9 id State.reset).count (ck 546 1 3) = 1
    ∧ (deglitch 1 3 10 9 id State.reset).now = 0 ∧ (deglitch 1 3 800 800 id State.reset).now = 800 := by decide

end Sys2Proof.Tests
end

section
/-! PROOFS. The lane commands, the BAR2 registers, MDIO, and the accesses of the host to the function (O18, O21, O22,
O34). -/

namespace Sys2Proof.Machine

open Sys2Proof

/-! ### Commands that complete at once -/

/-- A command completes when its row takes it up and its own run is final with OK under its own conditions. -/
theorem completes_of_run {c : CmdSpec} {i : Fin 16 → Instr} {own : Bytes → State → Prop}
    {data : Bytes → State → Bytes} {effect : Bytes → State → State}
    (row : ∀ n s, exec (i n) s = .next (takeUp c n s))
    (run : ∀ n a t, own a t → c.run n a t = doneWith (data a t) (effect a t)) :
    Completes c i own data effect :=
  fun n s acc cond => (row n s).trans (congrArg _ (takeUp_final acc (run n _ _ cond)))

/-- A test that ends all three functions of a lane, or finds its traffic unused, is set (R395). -/
theorem cmdLaneSetTest_run (n : Nat) (a : Bytes) (t : State)
    (h : (byteAt a 1 = 0 ∧ byteAt a 2 = 0 ∧ byteAt a 3 = 0) ∨ laneInUse t (byteAt a 0) = false) :
    cmdLaneSetTest.run n a t = doneWith []
      (setTest (byteAt a 0) (byteAt a 1) (byteAt a 2) (byteAt a 3) (BitVec.ofNat 64 (le a 8 8)) t) := by
  refine if_neg ?_
  rcases h with ⟨hg, hc, hl⟩ | hu
  · simp [hg, hc, hl]
  · simp [hu]

/-- Settles O34: of the five commands only LANE_SET_TEST has a condition of its own. -/
theorem laneCommandsComplete : Obligations.LaneCommandsComplete :=
  ⟨completes_of_run (fun _ _ => rfl) fun _ _ _ _ => rfl,
    completes_of_run (fun _ _ => rfl) cmdLaneSetTest_run,
    completes_of_run (fun _ _ => rfl) fun _ _ _ _ => rfl,
    completes_of_run (fun _ _ => rfl) fun _ _ _ _ => rfl,
    completes_of_run (fun _ _ => rfl) fun _ _ _ _ => rfl⟩

/-! ### Registers from READY (R613) -/

theorem afterReady_of_ready (f : State → State) {s : State} (h : s.dev.ready = true) : afterReady f s = f s :=
  if_pos h

theorem afterReady_of_not_ready (f : State → State) {s : State} (h : s.dev.ready = false) :
    afterReady f s = discardWrite s := by simp [afterReady, h]

/-! ### Words -/

theorem subMod_toNat {w : Nat} (a b : BitVec w) : subMod w a.toNat b.toNat = (a - b).toNat := by
  have hb := b.isLt
  rw [BitVec.toNat_sub, subMod, Nat.mod_eq_of_lt hb, Nat.add_comm, Nat.sub_add_comm (Nat.le_of_lt hb)]

theorem isPow2_two_pow (k : Nat) : isPow2 (2 ^ k) = true := by
  simp only [isPow2, Nat.log2_two_pow, Nat.two_pow_pos, decide_true, Bool.and_self]

theorem isPow2_iff (n : Nat) : isPow2 n = true ↔ ∃ k, n = 2 ^ k := by
  constructor
  · intro h
    simp only [isPow2, Bool.and_eq_true, decide_eq_true_iff] at h
    exact ⟨_, h.2.symm⟩
  · rintro ⟨k, rfl⟩
    exact isPow2_two_pow k

theorem entriesOk_two_pow_iff (k : Nat) : entriesOk (2 ^ k) = true ↔ 8 ≤ k ∧ k ≤ 16 := by
  simp only [entriesOk, isPow2_two_pow, Bool.true_and, Bool.and_eq_true, decide_eq_true_iff,
    show 256 = 2 ^ 8 from rfl, show 65536 = 2 ^ 16 from rfl, Nat.pow_le_pow_iff_right Nat.one_lt_two]

/-- The sizes of the event ring are the powers of two from 2^8 to 2^16 (R420). -/
theorem entriesOk_iff (n : Nat) : entriesOk n = true ↔ ∃ k, 8 ≤ k ∧ k ≤ 16 ∧ n = 2 ^ k := by
  constructor
  · intro h
    have pow2 : isPow2 n = true := by
      simp only [entriesOk, Bool.and_eq_true] at h
      exact h.1.1
    obtain ⟨k, rfl⟩ := (isPow2_iff n).mp pow2
    obtain ⟨lo, hi⟩ := (entriesOk_two_pow_iff k).mp h
    exact ⟨k, lo, hi, rfl⟩
  · rintro ⟨k, lo, hi, rfl⟩
    exact (entriesOk_two_pow_iff k).mpr ⟨lo, hi⟩

/-! ### Mailbox flags and the event ring (R420, R619 to R621) -/

theorem execMbxIrqEnWrite_ready (v : Word32) {s : State} (h : s.dev.ready = true) :
    execMbxIrqEnWrite v s = .next (if v.setWidth 16 &&& s.hif.done = 0
      then { s with hif := { s.hif with irqEn := v.setWidth 16 } }
      else causeVec 2 { s with hif := { s.hif with irqEn := v.setWidth 16 } }) :=
  congrArg _ (afterReady_of_ready _ h)

theorem execEvtEnable_ready {s : State} (h : s.dev.ready = true) :
    execEvtEnable s = .next (if !entriesOk s.hif.evtEntries.toNat then discardWrite s
      else if s.hif.evtEnable then s
      else { s with hif := { s.hif with
        evtEnable := true, evtProducer := 0, evtConsumer := 0, evtPhase := true } }) :=
  congrArg _ (afterReady_of_ready _ h)

theorem execEvtConsumerWrite_ready (v : Word32) {s : State} (h : s.dev.ready = true) :
    execEvtConsumerWrite v s = .next
      (if (v - s.hif.evtConsumer).toNat ≤ (s.hif.evtProducer - s.hif.evtConsumer).toNat
        then { s with hif := { s.hif with evtConsumer := v } } else discardWrite s) := by
  rw [← subMod_toNat, ← subMod_toNat]
  exact congrArg _ (afterReady_of_ready _ h)

/-- Settles O18: each row is its register's effect under `afterReady`, by cases on its condition. -/
theorem mailboxAndEventRegisters : Obligations.MailboxAndEventRegisters := by
  refine ⟨?done, ?irqQuiet, ?irqCause, ?enable, ?enableBad, ?disable, ?consumer, ?consumerBad, ?early⟩
  case done => exact fun v same s ready => congrArg _ (afterReady_of_ready _ ready)
  case irqQuiet =>
    intro v s ready quiet
    exact (execMbxIrqEnWrite_ready v ready).trans (congrArg _ (if_pos quiet))
  case irqCause =>
    intro v s ready cause
    exact (execMbxIrqEnWrite_ready v ready).trans (congrArg _ (if_neg cause))
  case enable =>
    intro k s ready lo hi size off
    have ok : entriesOk s.hif.evtEntries.toNat = true := (entriesOk_iff _).mpr ⟨k, lo, hi, size⟩
    refine (execEvtEnable_ready ready).trans ?_
    simp [ok, off]
  case enableBad =>
    intro s ready size
    have bad : ¬ entriesOk s.hif.evtEntries.toNat = true := by
      rw [entriesOk_iff]
      rintro ⟨k, lo, hi, e⟩
      exact size k lo hi e
    refine (execEvtEnable_ready ready).trans ?_
    simp [bad, discardWrite]
  case disable => exact fun s ready => congrArg _ (afterReady_of_ready _ ready)
  case consumer =>
    intro v s ready within
    exact (execEvtConsumerWrite_ready v ready).trans (congrArg _ (if_pos within))
  case consumerBad =>
    intro v s ready beyond
    exact (execEvtConsumerWrite_ready v ready).trans (congrArg _ (if_neg (Nat.not_le.mpr beyond)))
  case early =>
    intro v same s notReady c hc
    simp only [List.mem_cons, List.not_mem_nil, or_false] at hc
    rcases hc with rfl | rfl | rfl | rfl | rfl <;>
      exact congrArg Host.Outcome.next (afterReady_of_not_ready _ notReady)

/-! ### Packet-ring tails (R623) -/

/-- A tail is discarded on a disabled ring, when it posts more entries than the ring has, and when it takes entries
back. -/
theorem tailWrite_eq (r : Ring) (v : Word32) : tailWrite r v
    = if r.enable = false ∨ r.entries < (v - r.head).toNat ∨ (v - r.head).toNat < (r.tail - r.head).toNat
      then none else some { r with tail := v } := by
  simp only [tailWrite, subMod_toNat, Bool.or_eq_true, Bool.not_eq_true', decide_eq_true_iff, gt_iff_lt, or_assoc]

theorem tailWrite_of_legal {r : Ring} {v : Word32} (on : r.enable = true) (room : (v - r.head).toNat ≤ r.entries)
    (ahead : (r.tail - r.head).toNat ≤ (v - r.head).toNat) : tailWrite r v = some { r with tail := v } := by
  rw [tailWrite_eq, if_neg]
  rintro (disabled | full | behind)
  · simp [on] at disabled
  · omega
  · omega

/-- What a tail write of a receive ring does from READY. -/
theorem execHringRxTailWrite_ready (r : Fin 4) (v : Word32) {s : State} (h : s.dev.ready = true) :
    execHringRxTailWrite r v s = .next (match tailWrite (rxRing s r) v with
      | none => discardWrite s
      | some x => setRx r x s) :=
  congrArg _ (afterReady_of_ready _ h)

/-- What a tail write of a transmit ring does from READY. -/
theorem execHringTxTailWrite_ready (r : Fin 4) (v : Word32) {s : State} (h : s.dev.ready = true) :
    execHringTxTailWrite r v s = .next (match tailWrite (txRing s r) v with
      | none => discardWrite s
      | some x => setTx r x s) :=
  congrArg _ (afterReady_of_ready _ h)

/-! ### 64-bit registers (R12, R13) -/

/-- A read of a low word latches the high word beside it. -/
theorem execRegisterLowWordRead_low {off : Nat} (h : isLowWord off = true) (s : State) :
    execRegisterLowWordRead off s = .next (emit (.readData (regWord s off)) { s with hif := { s.hif with
      highShadow := tset none s.hif.highShadow off (some (BitVec.ofNat 32 (regWord s (off + 4)))) } }) :=
  if_pos h

/-- A read of the high word of the register at off returns its shadow, or the live word, and ends the shadow. -/
theorem execRegisterLowWordRead_high {off : Nat} (h : off ∈ [0x0208, 0x0500, 0x0508]) (s : State) :
    execRegisterLowWordRead (off + 4) s = .next (emit (.readData (highWord s (off + 4))) { s with
      hif := { s.hif with highShadow := tset none s.hif.highShadow off none } }) := by
  simp only [List.mem_cons, List.not_mem_nil, or_false] at h
  rcases h with rfl | rfl | rfl <;> rfl

theorem highWord_of_shadow {s : State} {off : Nat} {w : Word32} (h : tget none s.hif.highShadow off = some w) :
    highWord s (off + 4) = w.toNat := by
  simp [highWord, h]

theorem highWord_of_no_shadow {s : State} {off : Nat} (h : tget none s.hif.highShadow off = none) :
    highWord s (off + 4) = regWord s (off + 4) := by
  simp [highWord, h]

theorem bothWords_of_held {s : State} {off : Nat} {lo : Word32} (h : tget none s.hif.lowHeld off = some lo)
    (hi : Word32) : bothWords s off hi = BitVec.ofNat 64 (hi.toNat * 2 ^ 32 + lo.toNat) := by
  simp [bothWords, h]

/-- Two words of 32 bits fill one of 64. -/
theorem toNat_bothWords_of_held {s : State} {off : Nat} {lo : Word32}
    (h : tget none s.hif.lowHeld off = some lo) (hi : Word32) :
    (bothWords s off hi).toNat = hi.toNat * 2 ^ 32 + lo.toNat := by
  rw [bothWords_of_held h, BitVec.toNat_ofNat, Nat.mod_eq_of_lt]
  have h1 := hi.isLt
  have h2 := lo.isLt
  omega

/-- The low word of a 64-bit RW register is held from READY; that of EVT_BASE only while the ring is disabled. -/
theorem execRegisterLowWordWrite_held {off : Nat} {s : State} (ready : s.dev.ready = true)
    (h : off = 0x0508 ∨ off = 0x0208 ∧ s.hif.evtEnable = false) (v : Word32) :
    execRegisterLowWordWrite off v s
      = .next { s with hif := { s.hif with lowHeld := tset none s.hif.lowHeld off (some v) } } := by
  rcases h with rfl | ⟨rfl, off⟩
  · exact congrArg Host.Outcome.next (afterReady_of_ready _ ready)
  · refine congrArg Host.Outcome.next ((afterReady_of_ready _ ready).trans ?_)
    simp [off]

/-! ### GPIO levels (R631) -/

theorem testBit_add_two_pow_of_lt {w i j : Nat} (clear : w.testBit i = false) (h : i < j) :
    (w + 2 ^ i).testBit j = w.testBit j := by
  have upper : (w + 2 ^ i) / 2 ^ (i + 1) = w / 2 ^ (i + 1) := by
    simp only [Nat.testBit_eq_decide_div_mod_eq, decide_eq_false_iff_not] at clear
    rw [Nat.pow_succ, ← Nat.div_div_eq_div_mul, ← Nat.div_div_eq_div_mul,
      Nat.add_div_right _ (Nat.two_pow_pos i)]
    omega
  have e := congrArg (fun n => n.testBit (j - (i + 1))) upper
  simpa only [Nat.testBit_div_two_pow, Nat.sub_add_cancel h] using e

/-- Setting a bit of a word changes that bit alone. -/
theorem bit_setBit_true (w i j : Nat) : bit (setBit w i true) j = (decide (j = i) || bit w j) := by
  simp only [setBit, bit_eq_testBit, if_true]
  cases h : w.testBit i with
  | true =>
    have le := Nat.ge_two_pow_of_testBit h
    have same : w - 2 ^ i + 2 ^ i = w := Nat.sub_add_cancel le
    by_cases e : j = i
    · simp [e, same, h]
    · simp [e, same]
  | false =>
    rcases Nat.lt_trichotomy j i with lt | rfl | gt
    · simp [Nat.add_comm w, Nat.testBit_two_pow_add_gt lt, Nat.ne_of_lt lt]
    · simp [Nat.add_comm w, Nat.testBit_two_pow_add_eq, h]
    · simp [testBit_add_two_pow_of_lt h gt, Nat.ne_of_gt gt]

/-- The bits of a mask are the numbers listed, over those that were set before. -/
theorem bit_foldl_setBit (l : List Nat) (w j : Nat) :
    bit (l.foldl (fun m i => setBit m i true) w) j = (decide (j ∈ l) || bit w j) := by
  induction l generalizing w with
  | nil => simp
  | cons i l ih => simp [ih, bit_setBit_true, Bool.or_assoc, Bool.or_left_comm]

theorem bit_maskOf (l : List Nat) (j : Nat) : bit (maskOf l) j = decide (j ∈ l) := by
  rw [maskOf, bit_foldl_setBit]
  simp [bit]

/-- A ball's bit of GPIO_IN is its level. -/
theorem bit_gpioLevels (s : State) {i : Nat} (h : i < 16) : bit (gpioLevels s).toNat i = gpioLevel s i := by
  have mask := bit_maskOf ((List.range 16).filter (gpioLevel s)) i
  rw [bit_eq_testBit] at mask
  rw [gpioLevels, BitVec.toNat_ofNat, bit_eq_testBit, Nat.testBit_mod_two_pow, mask]
  simp [h]

/-- One value written at every key of a list. -/
theorem tget_foldl_tset {α : Type} [DecidableEq α] (d v : α) (l : List Nat) (t : Tab α) (j : Nat) :
    tget d (l.foldl (fun t i => tset d t i v) t) j = if j ∈ l then v else tget d t j := by
  induction l generalizing t with
  | nil => simp
  | cons i l ih =>
    rw [List.foldl_cons, ih, tget_tset]
    by_cases hl : j ∈ l
    · simp [hl]
    · simp [hl]

/-- A ball takes a new level from its output: it becomes one, or its output changes. -/
def gpioMoves (dir out : Word16) (s : State) (i : Nat) : Bool :=
  bit dir.toNat i && (!bit s.hif.gpioDir.toNat i || bit out.toNat i != bit s.hif.gpioOut.toNat i)

/-- The filter of a ball that takes a new level starts now. -/
theorem tget_gpioAt_setGpio {dir out : Word16} {s : State} {i : Nat} (h : i < 16)
    (moves : gpioMoves dir out s i = true) : tget 0 (setGpio dir out s).hif.gpioAt i = s.now := by
  refine (tget_foldl_tset 0 s.now ((List.range 16).filter (gpioMoves dir out s)) _ i).trans (if_pos ?_)
  simp [h, moves]

/-- An output that has taken a new level shows the level before until its filter of 10 µs is over. -/
theorem gpioLevel_after_setGpio {dir out : Word16} {s : State} {i : Nat} (h : i < 16)
    (moves : gpioMoves dir out s i = true) (d : Nat) :
    gpioLevel { setGpio dir out s with now := s.now + d } i
      = if us 10 ≤ d then bit out.toNat i else gpioLevel s i := by
  have isOut : bit dir.toNat i = true := by
    simp only [gpioMoves, Bool.and_eq_true] at moves
    exact moves.1
  have began := tget_gpioAt_setGpio h moves
  have before : bit (setGpio dir out s).hif.gpioIn.toNat i = gpioLevel s i := bit_gpioLevels s h
  rw [gpioLevel, began, before]
  simp [setGpio, isOut]

/-! ### Registers written whole (R10, R613) -/

theorem usable_of_ready {s : State} {off : Nat} (ready : s.dev.ready = true) (h : off < 0x0900 ∨ 0x0B00 ≤ off) :
    usable s off = true := by
  unfold usable
  split
  · rfl
  · rw [if_neg (by omega), ready]

theorem usable_of_not_cold {s : State} {off : Nat} (h : s.dev.state ≠ .cold) (lo : 0x0900 ≤ off)
    (hi : off < 0x0B00) : usable s off = true := by
  rw [usable, if_neg (by omega), if_pos ⟨lo, hi⟩]
  simp [h]

/-- The high word of EVT_BASE completes it, on a boundary of 64 bytes (R13, R420). -/
theorem execRegisterWrite_evtBase {s : State} (ready : s.dev.ready = true) (off : s.hif.evtEnable = false)
    (v : Word32) : execRegisterWrite 0x020C v s = .next { s with hif := { s.hif with
      evtBase := BitVec.ofNat 64 ((bothWords s 0x0208 v).toNat / 64 * 64)
      lowHeld := tset none s.hif.lowHeld 0x0208 none } } := by
  have use : usable s 0x020C = true := usable_of_ready ready (by decide)
  simp [execRegisterWrite, ownRow, isRegister, use, off]

theorem execRegisterWrite_evtEntries {s : State} (ready : s.dev.ready = true) (off : s.hif.evtEnable = false)
    (v : Word32) : execRegisterWrite 0x0210 v s
      = .next { s with hif := { s.hif with evtEntries := v.setWidth 17 } } := by
  have use : usable s 0x0210 = true := usable_of_ready ready (by decide)
  simp [execRegisterWrite, ownRow, isRegister, use, off]

theorem execRegisterWrite_gpioDir {s : State} (h : s.dev.state ≠ .cold) (v : Word32) :
    execRegisterWrite 0x0A00 v s = .next (setGpio (v.setWidth 16) s.hif.gpioOut s) := by
  have use : usable s 0x0A00 = true := usable_of_not_cold h (by decide) (by decide)
  simp [execRegisterWrite, ownRow, isRegister, use]

theorem execRegisterWrite_gpioOut {s : State} (h : s.dev.state ≠ .cold) (v : Word32) :
    execRegisterWrite 0x0A04 v s = .next (setGpio s.hif.gpioDir (v.setWidth 16) s) := by
  have use : usable s 0x0A04 = true := usable_of_not_cold h (by decide) (by decide)
  simp [execRegisterWrite, ownRow, isRegister, use]

theorem execRegisterWrite_mdioData {s : State} (h : s.dev.state ≠ .cold) (v : Word32) :
    execRegisterWrite 0x0904 v s = .next { s with hif := { s.hif with mdioData := v &&& 0xFFFF } } := by
  have use : usable s 0x0904 = true := usable_of_not_cold h (by decide) (by decide)
  simp [execRegisterWrite, ownRow, isRegister, use]

/-- An RC field that a counter keeps is read and holds the event (R9). -/
theorem execRcFieldRead_count {f : RcField} {k : Nat} (h : rcKey f = some k) (e : Nat) (s : State) :
    execRcFieldRead f e s = .next (emit (.readData (s.count k)) (setCount k e s)) := by
  cases f <;> cases h <;> rfl

/-- Settles O21: each access is its register's own lemma above, on the state that the hypotheses describe. -/
theorem registerAccessesTakeEffect : Obligations.RegisterAccessesTakeEffect := by
  refine ⟨?rxTail, ?txTail, ?rxBad, ?lowRead, ?highShadow, ?highLive, ?lowWrite, ?windowSeq, ?copyDone,
    ?evtBase, ?evtEntries, ?fields, ?gpio, ?misaligned, ?snrLow, ?rcField⟩
  case rxTail =>
    intro r v s ready on room ahead
    exact (execHringRxTailWrite_ready r v ready).trans (by rw [tailWrite_of_legal on room ahead])
  case txTail =>
    intro r v s ready on room ahead
    exact (execHringTxTailWrite_ready r v ready).trans (by rw [tailWrite_of_legal on room ahead])
  case rxBad =>
    rintro r v s bad
    cases ready : s.dev.ready with
    | false => exact congrArg _ (afterReady_of_not_ready _ ready)
    | true =>
      have illegal := bad.resolve_left (by simp [ready])
      exact (execHringRxTailWrite_ready r v ready).trans (by rw [tailWrite_eq, if_pos illegal]; rfl)
  case lowRead =>
    intro off s h
    refine execRegisterLowWordRead_low ?_ s
    simpa [isLowWord, or_assoc] using h
  case highShadow =>
    intro off w s h shadow
    exact (execRegisterLowWordRead_high h s).trans (by rw [highWord_of_shadow shadow])
  case highLive =>
    intro off s h live
    exact (execRegisterLowWordRead_high h s).trans (by rw [highWord_of_no_shadow live])
  case lowWrite => exact fun off v s ready h => execRegisterLowWordWrite_held ready h v
  case windowSeq =>
    intro v lo s ready held
    simp only [← bothWords_of_held held]
    exact congrArg _ (afterReady_of_ready _ ready)
  case copyDone =>
    intro j rest s h
    show execJrnWindowCopyDone s = _
    simp only [execJrnWindowCopyDone, h]
    rfl
  case evtBase =>
    intro v lo s ready off held
    rw [← toNat_bothWords_of_held held]
    exact execRegisterWrite_evtBase ready off v
  case evtEntries => exact fun v s ready off => execRegisterWrite_evtEntries ready off v
  case fields =>
    exact fun v s h =>
      ⟨execRegisterWrite_gpioDir h v, execRegisterWrite_gpioOut h v, execRegisterWrite_mdioData h v⟩
  case gpio =>
    intro dir out i s h isOut change d
    refine gpioLevel_after_setGpio h ?_ d
    simpa [gpioMoves, isOut] using change
  case misaligned => exact fun off v s h => if_pos h
  case snrLow => exact fun l e s => rfl
  case rcField => exact fun f k e s h => execRcFieldRead_count h e s

/-! ### MDIO (R586, R630) -/

theorem execMdioCmdGo_go {v : Word32} {s : State} (go : v.getLsbD 31 = true) :
    execMdioCmdGo v s = if s.dev.state = .cold ∨ s.hif.mdioCmd.getLsbD 31 = true then .next (discardWrite s)
      else .next (emit (.mdio (v &&& 0xFFFC0000) s.hif.mdioData)
        { s with hif := { s.hif with mdioCmd := v &&& 0xFFFC0000, mdioAt := s.now } }) := by
  have cold : (!usable s 0x0900) = true ↔ s.dev.state = .cold := by
    rw [show usable s 0x0900 = (s.dev.state != .cold) from rfl]
    simp
  simp only [execMdioCmdGo, go, Bool.not_true, Bool.false_eq_true, if_false, Bool.or_eq_true, cold]

/-- A frame in progress ends: a read that finds a device returns its data. -/
theorem execMdioFrameDone_found {s : State} (busy : s.hif.mdioCmd.getLsbD 31 = true)
    (isRead : s.hif.mdioCmd.getLsbD 29 = true) (d : Word16) :
    execMdioFrameDone true d s = .next { s with hif := { s.hif with
      mdioCmd := s.hif.mdioCmd &&& 0x7FFFFFFF, mdioData := d.setWidth 32 } } := by
  simp only [execMdioFrameDone, busy, isRead, Bool.not_true, Bool.and_true, Bool.false_eq_true, if_false, if_true]

/-- A read that finds no device is discarded after 2 ms, sets ERROR and is counted. -/
theorem execMdioFrameDone_missing {s : State} (busy : s.hif.mdioCmd.getLsbD 31 = true)
    (isRead : s.hif.mdioCmd.getLsbD 29 = true) (d : Word16) :
    let t := passTo (s.hif.mdioAt + ms 2) s
    execMdioFrameDone false d s = .next (bump (ck 547 13 0) 1 { t with hif := { t.hif with
      mdioCmd := s.hif.mdioCmd &&& 0x7FFFFFFF ||| 0x00020000, mdioData := 0 } }) := by
  simp only [execMdioFrameDone, busy, isRead, Bool.not_true, Bool.and_false, Bool.false_eq_true, if_false, if_true]

/-- A write frame only clears BUSY. -/
theorem execMdioFrameDone_write {s : State} (busy : s.hif.mdioCmd.getLsbD 31 = true)
    (isWrite : s.hif.mdioCmd.getLsbD 29 = false) (found : Bool) (d : Word16) :
    execMdioFrameDone found d s = .next { s with hif := { s.hif with
      mdioCmd := s.hif.mdioCmd &&& 0x7FFFFFFF } } := by
  simp only [execMdioFrameDone, busy, isWrite, Bool.not_true, Bool.false_and, Bool.false_eq_true, if_false]

/-! ### Accesses to the BARs (R11, R399 to R401) -/

/-- An accepted read of BAR0 that leaves out the first byte of the status word returns what stands in the mailbox. -/
theorem bar0Read_plain {off len : Nat} (takes : bar0Reads off len = true)
    (apart : 0x804 < off % 4096 ∨ off % 4096 + len ≤ 0x804) (s : State) :
    bar0Read off len s
      = .next (emit (.readData (le (mbxRead s (off / 4096 % 16) (off % 4096) len) 0 len)) s) := by
  refine (if_neg (by simp [takes])).trans (if_neg ?_)
  omega

/-- An access to BAR0 beyond its kinds is an Unsupported Request. -/
theorem bar0Read_refused {off len : Nat} (h : bar0Reads off len = false) (s : State) :
    bar0Read off len s = .next (refuseAccess .bar0 s) :=
  if_pos (by simp [h])

/-- An address within BAR0 names its mailbox and the offset there. -/
theorem access_bar0_write (n : Fin 16) {off : Nat} (h : off < 4096) (data : List (Option Byte)) (s : State) :
    access .bar0 (.write (n * 4096 + off) data) s = execMailboxWrite n off data s := by
  have mbx : Fin.ofNat 16 ((n * 4096 + off) / 4096) = n := by
    apply Fin.ext
    have hn := n.isLt
    simp only [Fin.ofNat]
    omega
  have at_ : (n * 4096 + off) % 4096 = off := by omega
  simp only [access, mbx, at_]

/-- A word whose four bytes are all enabled is the word written. -/
theorem mergeWord_leBytes (old w : Nat) : mergeWord old ((leBytes 4 w).map some) = w % 2 ^ 32 := le_leBytes 4 w

/-- A whole, aligned word written to BAR2 is the write of the register that lies there. -/
theorem access_bar2_write {off : Nat} (aligned : off % 4 = 0) (within : off < 65536) (v : Word32) (s : State) :
    access .bar2 (.write off ((leBytes 4 v.toNat).map some)) s = bar2Write off v s := by
  have word : BitVec.ofNat 32 (mergeWord 0 ((leBytes 4 v.toNat).map some)) = v := by
    rw [mergeWord_leBytes, Nat.mod_eq_of_lt v.isLt, BitVec.ofNat_toNat, BitVec.setWidth_eq]
  refine (if_pos ⟨rfl, rfl, aligned, within⟩).trans ?_
  rw [word]

theorem access_bar2_read_refused {off len : Nat} (h : len ≠ 4 ∨ off % 4 ≠ 0 ∨ 65536 ≤ off) (s : State) :
    access .bar2 (.read off len) s = .next (refuseAccess .bar2 s) :=
  if_neg (by omega)

theorem bar4Read_refused {off len : Nat} (h : bar4Takes off len = false) (s : State) :
    bar4Read off len s = refuseAccess .bar4 s :=
  if_pos (by simp [h])

/-- An aligned word within BAR4 is written alone. -/
theorem bar4Write_word {off : Nat} (takes : bar4Takes off 4 = true) {data : List (Option Byte)}
    (one : data.length = 4) (s : State) : bar4Write off data s = writeMsixWord off data s := by
  simp [bar4Write, one, takes, List.take_of_length_le]

theorem bit_b2n (b : Bool) : bit (b2n b) 0 = b := by cases b <;> rfl

/-- The fourth word of an MSI-X entry masks its vector, or unmasks it and lets its message go (R404). -/
theorem writeMsixWord_mask (v : Fin 32) (b : Bool) (s : State) :
    let x := { vecOf s v with masked := b }
    writeMsixWord (16 * v + 12) ((leBytes 4 (b2n b)).map some) s
      = if dmaOk s then sendPending [v.val] (setVec v x s) else setVec v x s := by
  have inTable : ¬ 16 * v.val + 12 ≥ 512 := by omega
  have vec : (16 * v.val + 12) / 16 = v := by omega
  have word : (16 * v.val + 12) % 16 / 4 = 3 := by omega
  have mask : bit (mergeWord (msixWord s (16 * v + 12)) ((leBytes 4 (b2n b)).map some)) 0 = b := by
    rw [mergeWord_leBytes, Nat.mod_eq_of_lt (by cases b <;> decide), bit_b2n]
  refine (if_neg inTable).trans ?_
  simp only [vec, word, mask]
  rfl

/-! ### Configuration space (R399, R605) -/

theorem configUsable_of_released {s : State} (released : s.dev.released = true)
    (since : s.dev.releasedAt + ms 100 ≤ s.now) : configUsable s = true := by
  simp [configUsable, released, since]

/-- Before configuration requests complete normally, every configuration read is answered with a retry. -/
theorem access_configRead_retry {s : State} (h : configUsable s = false) (bar : Bar) (off : Nat) :
    access bar (.configRead off) s = .next (emit .configRetry s) := by
  simp [access, h]

theorem access_configRead_usable {s : State} (h : configUsable s = true) (bar : Bar) (off : Nat) :
    access bar (.configRead off) s
      = .next (emit (.readData (configWord (off / 4 * 4) s).1) (configWord (off / 4 * 4) s).2) := by
  simp [access, h]

/-- Settles O22: each access is judged by its BAR, and an accepted one has the effect of its lemma above. -/
theorem mdioAndFaultRegisters : Obligations.MdioAndFaultRegisters := by
  refine ⟨?go, ?goBad, ?found, ?missing, ?write, ?faultStatus, ?plain, ?bar0Bad, ?bar0Read, ?bar0Write, ?bar2Write,
    ?bar2Bad, ?bar4Bad, ?mask, ?config, ?retry⟩
  case go =>
    intro v s go warm idle
    exact (execMdioCmdGo_go go).trans (if_neg (not_or.mpr ⟨warm, Bool.eq_false_iff.mp idle⟩))
  case goBad => exact fun v s go bad => (execMdioCmdGo_go go).trans (if_pos bad)
  case found => exact fun d s busy isRead => execMdioFrameDone_found busy isRead d
  case missing => exact fun d s busy isRead => execMdioFrameDone_missing busy isRead d
  case write => exact fun b d s busy isWrite => execMdioFrameDone_write busy isWrite b d
  case faultStatus => exact fun v same s => rfl
  case plain => exact fun s => ⟨rfl, rfl, rfl⟩
  case bar0Bad => exact fun off len s h => bar0Read_refused h s
  case bar0Read => exact fun off len s takes apart => bar0Read_plain takes apart s
  case bar0Write => exact fun n off data s h => access_bar0_write n h data s
  case bar2Write => exact fun off v s aligned within => access_bar2_write aligned within v s
  case bar2Bad => exact fun off len s h => access_bar2_read_refused h s
  case bar4Bad => exact fun off len s h => congrArg _ (bar4Read_refused h s)
  case mask =>
    intro v b s
    have takes : bar4Takes (16 * v + 12) 4 = true := by
      simp only [bar4Takes, Bool.and_eq_true, beq_iff_eq, decide_eq_true_iff]
      exact ⟨⟨rfl, by omega⟩, by omega⟩
    exact congrArg _ ((bar4Write_word takes (by simp) s).trans (writeMsixWord_mask v b s))
  case config =>
    intro bar s released since
    have usable := configUsable_of_released released since
    exact ⟨access_configRead_usable usable bar 0x00, access_configRead_usable usable bar 0x08,
      access_configRead_usable usable bar 0x2C⟩
  case retry =>
    intro bar off s held
    have h : configUsable s = false := by simp [configUsable, held]
    exact access_configRead_retry h bar off

end Sys2Proof.Machine
end

section
/-! SUPPORT. What taking a command up leaves alone: the device power state. DEVICE_RESET is judged on the power state
that its mailbox is taken up in (R487); Amber's record and the wakes of what Hive reaches (R478, R553) move no device
between power states. -/

namespace Sys2Proof.Machine

open Sys2Proof

/-- The device power state, and the change of it that is under way. -/
def State.powerMode (s : State) : PowerState × PowerPhase := (s.pow.state, s.pow.phase)

theorem powerMode_of_pow {s t : State} (h : t.pow = s.pow) : t.powerMode = s.powerMode := by
  simp only [State.powerMode, h]

theorem powerMode_foldl {α : Type} (f : State → α → State) (h : ∀ t a, (f t a).powerMode = t.powerMode)
    (l : List α) (s : State) : (l.foldl f s).powerMode = s.powerMode := by
  induction l generalizing s with
  | nil => rfl
  | cons a l ih => exact (ih _).trans (h _ _)

theorem powerMode_forEach {f : Nat → State → State} (h : ∀ i t, (f i t).powerMode = t.powerMode)
    (l : List Nat) (s : State) : (forEach l f s).powerMode = s.powerMode :=
  powerMode_foldl _ (fun t i => h i t) l s

/-! ### Events and counters -/

theorem fireVec_pow (v : Nat) (s : State) : (fireVec v s).pow = s.pow := by
  simp only [fireVec]
  split <;> rfl

theorem causeVec_pow (v : Nat) (s : State) : (causeVec v s).pow = s.pow := by
  simp only [causeVec]
  split
  · exact fireVec_pow v s
  · split
    · exact fireVec_pow v _
    · rfl

theorem writeRecord_pow (e : Event) (s : State) : (writeRecord e s).pow = s.pow := causeVec_pow ..

theorem backlogEvent_pow (e : Event) (s : State) : (backlogEvent e s).pow = s.pow := by
  unfold backlogEvent
  split
  · rfl
  · split
    · split <;> rfl
    · rfl

@[simp] theorem raise_pow (typ : Nat) (urgent : Bool) (index : Nat) (payload : Bytes) (s : State) :
    (raise typ urgent index payload s).pow = s.pow := by
  simp only [raise, raiseAt]
  split
  · exact writeRecord_pow ..
  · exact backlogEvent_pow ..

@[simp] theorem markHigh_pow (k n : Nat) (s : State) : (markHigh k n s).pow = s.pow := by
  unfold markHigh
  split <;> rfl

@[simp] theorem passTo_pow (t : Nat) (s : State) : (passTo t s).pow = s.pow := by
  unfold passTo
  split <;> rfl

/-! ### Wakes -/

theorem want_powerMode (d : Nat) (s : State) : (want d s).powerMode = s.powerMode := by
  unfold want
  split <;> rfl

theorem wantAll_powerMode (l : List Nat) (s : State) : (wantAll l s).powerMode = s.powerMode :=
  powerMode_forEach want_powerMode l s

theorem crossLink_powerMode (n k : Nat) (s : State) : (crossLink n k s).powerMode = s.powerMode :=
  want_powerMode ..

theorem bankContents_powerMode (g : Nat) (s : State) : (bankContents g s).powerMode = s.powerMode := by
  have lost := powerMode_foldl (fun s e => loseEvent e.seq s) (fun _ _ => rfl) s.hif.backlog s
  simp only [bankContents]
  split
  · rfl
  · split
    · exact lost
    · split
      · rfl
      · split <;> rfl

theorem loseBank_powerMode (g : Nat) (s : State) : (loseBank g s).powerMode = s.powerMode := by
  have contents : (bump (ck 495 14 g) 1 (raise 0x0A04 false g (leBytes 1 0) (bankContents g s))).powerMode
      = s.powerMode := (powerMode_of_pow (by simp)).trans (bankContents_powerMode g s)
  simp only [loseBank]
  split
  · exact (powerMode_of_pow (by simp)).trans contents
  · exact contents

theorem wakeBank_powerMode (g : Nat) (intact : Bool) (s : State) :
    (wakeBank g intact s).powerMode = s.powerMode := by
  simp only [wakeBank]
  split
  · split
    · rfl
    · exact loseBank_powerMode ..
  · rfl

theorem wakeFrom_powerMode (t0 d : Nat) (intact : Bool) (s : State) :
    (wakeFrom t0 d intact s).powerMode = s.powerMode := by
  simp only [wakeFrom]
  split
  · rfl
  · have replicas := powerMode_forEach (f := realign) (fun _ _ => rfl)
    have stall : ∀ d ns t, (countStall d ns t).powerMode = t.powerMode :=
      fun d ns t => powerMode_forEach (f := fun i t => bump _ _ t) (fun _ _ => rfl) (stallers t d) t
    split
    · refine (wakeBank_powerMode ..).trans ((replicas ..).trans ((stall ..).trans ?_))
      simp [State.powerMode, takeFree, clocksMayRun, modDomain]
    · refine (replicas ..).trans ((stall ..).trans ?_)
      simp [State.powerMode, takeFree, clocksMayRun, modDomain]

theorem touchFrom_powerMode (t0 d : Nat) (s : State) : (touchFrom t0 d s).powerMode = s.powerMode := by
  simp only [touchFrom]
  split
  · exact wakeFrom_powerMode ..
  · split <;> rfl

theorem touchFor_powerMode (opcode : Nat) (s : State) : (touchFor opcode s).powerMode = s.powerMode := by
  have clocks : (if [1, 8, 9].contains (opcode / 256) then clocksMayRun s else s).powerMode = s.powerMode := by
    split <;> rfl
  simp only [touchFor]
  generalize (if [1, 8, 9].contains (opcode / 256) then clocksMayRun s else s) = t at clocks ⊢
  split
  · refine (powerMode_forEach (touchFrom_powerMode _) _ _).trans ((powerMode_forEach ?_ _ _).trans clocks)
    exact fun i t => crossLink_powerMode ..
  · exact clocks

/-! ### Amber's record -/

theorem putRecord_powerMode (typ : Nat) (rejected : Bool) (payload : Bytes) (s : State) :
    (putRecord typ rejected payload s).powerMode = s.powerMode := by
  simp only [putRecord]
  split
  · exact wantAll_powerMode ..
  · rfl

theorem closeGap_powerMode (s : State) : (closeGap s).powerMode = s.powerMode := by
  unfold closeGap
  split
  · exact putRecord_powerMode ..
  · rfl

theorem amberSkip_powerMode (s : State) : (amberSkip s).powerMode = s.powerMode := by
  unfold amberSkip
  split
  · exact closeGap_powerMode s
  · rfl

theorem amberRecord_powerMode (typ : Nat) (rejected : Bool) (payload : Bytes) (s : State) :
    (amberRecord typ rejected payload s).powerMode = s.powerMode := by
  have own : (if [1, 2, 7, 8].contains typ then ownEvent 38 1 (b2n rejected) (ownEvent 38 0 1 s) else s).powerMode
      = s.powerMode := by
    split <;> rfl
  simp only [amberRecord]
  generalize (if [1, 2, 7, 8].contains typ then ownEvent 38 1 (b2n rejected) (ownEvent 38 0 1 s) else s) = t
    at own ⊢
  split
  · exact (putRecord_powerMode ..).trans ((amberSkip_powerMode _).trans own)
  · exact own

theorem underWay_powerMode (n : Nat) (s : State) : (underWay n s).powerMode = s.powerMode :=
  (touchFor_powerMode ..).trans (amberRecord_powerMode ..)

end Sys2Proof.Machine
end

section
/-! PROOFS. The device commands (O25, O26): reads, settings and changes of the device state. -/

namespace Sys2Proof.Machine

open Sys2Proof

/-! ### Commands that wait, and commands that are turned away -/

/-- A command is held up when its row takes it up and its own run waits under its own conditions. -/
theorem heldUp_of_run {c : CmdSpec} {i : Fin 16 → Instr} {own : Bytes → State → Prop} {afterExit : Bool}
    {effect : Bytes → State → State} (row : ∀ n s, exec (i n) s = .next (takeUp c n s))
    (run : ∀ n a t, own a t → c.run n a t = .waits afterExit (effect a t)) : HeldUp c i own afterExit effect :=
  fun n s acc cond => (row n s).trans (congrArg _ (takeUp_waits acc (run n _ _ cond)))

/-- A command is turned away when its row takes it up and its own run ends with that status under its own
conditions. -/
theorem turnedAway_of_run {c : CmdSpec} {i : Fin 16 → Instr} {status : Nat} {own : Bytes → State → Prop}
    {data : Bytes → State → Bytes} (row : ∀ n s, exec (i n) s = .next (takeUp c n s))
    (run : ∀ n a t, own a t → c.run n a t = .final status (data a t) t) : TurnedAway c i status own data :=
  fun n s acc cond => (row n s).trans (congrArg _ (takeUp_final acc (run n _ _ cond)))

/-! ### Settings (R42, R427, R450) -/

/-- Profile 3 needs lanes 8 to 15 free of ports (R43). -/
theorem cmdDeviceSetProfile_run (n : Nat) (a : Bytes) (t : State)
    (h : byteAt a 0 ≠ 3 ∨ upperLanesUsed t = false) :
    cmdDeviceSetProfile.run n a t
      = done { t with dev := { t.dev with selected := profileOf (byteAt a 0) } } := by
  refine if_neg ?_
  rcases h with other | free
  · simp [other]
  · simp [free]

/-- A ring that is enabled keeps its place and its size (R427): any other descriptor is taken. -/
theorem not_enable_and_ringMoves {x y : Ring} (h : x.enable = false ∨ ringMoves x y = false) :
    ¬ (x.enable && ringMoves x y) = true := by
  rcases h with off | same
  · simp [off]
  · simp [same]

theorem cmdDeviceSetRing_run_tx (n : Nat) (a : Bytes) (t : State)
    (h : bit (byteAt a 0) 2 = true ∧ ((txRing t (byteAt a 0 % 4)).enable = false
      ∨ ringMoves (txRing t (byteAt a 0 % 4)) (ringFrom t (txRing t (byteAt a 0 % 4)) a) = false)) :
    cmdDeviceSetRing.run n a t
      = done (setTx (byteAt a 0 % 4) (ringFrom t (txRing t (byteAt a 0 % 4)) a) t) := by
  obtain ⟨tx, taken⟩ := h
  simp only [cmdDeviceSetRing, tx, if_true, if_neg (not_enable_and_ringMoves taken)]

theorem cmdDeviceSetRing_run_rx (n : Nat) (a : Bytes) (t : State)
    (h : bit (byteAt a 0) 2 = false ∧ ((rxRing t (byteAt a 0 % 4)).enable = false
      ∨ ringMoves (rxRing t (byteAt a 0 % 4)) (ringFrom t (rxRing t (byteAt a 0 % 4)) a) = false)) :
    cmdDeviceSetRing.run n a t = done
      (let y := ringFrom t (rxRing t (byteAt a 0 % 4)) a
      if y.enable then setRx (byteAt a 0 % 4) y t
      else flushQueue 0x47 (640 + byteAt a 0 % 4) (setRx (byteAt a 0 % 4) y t)) := by
  obtain ⟨rx, taken⟩ := h
  simp only [cmdDeviceSetRing, rx, Bool.false_eq_true, if_false, if_neg (not_enable_and_ringMoves taken)]
  exact (apply_ite done ..).symm

/-- Settles O25: the reads and DEVICE_NOP run without a condition, the settings under those of their lemmas. -/
theorem deviceReadsAndSettings : Obligations.DeviceReadsAndSettings :=
  ⟨completes_of_run (fun _ _ => rfl) fun _ _ _ _ => rfl,
    completes_of_run (fun _ _ => rfl) fun _ _ _ _ => rfl,
    completes_of_run (fun _ _ => rfl) fun _ _ _ _ => rfl,
    completes_of_run (fun _ _ => rfl) cmdDeviceSetProfile_run,
    completes_of_run (fun _ _ => rfl) cmdDeviceSetRing_run_tx,
    completes_of_run (fun _ _ => rfl) cmdDeviceSetRing_run_rx⟩

/-! ### Changes of the device state (R442, R444, R451 to R454, R487) -/

/-- In D0 or D1, with no entry to D3 running, a state command is executed at once. -/
theorem afterWake_awake (f : State → Ran) {s : State}
    (h : s.pow.state ≠ .d2 ∧ s.pow.state ≠ .d3 ∧ s.pow.phase ≠ .enteringD3) : afterWake f s = f s := by
  obtain ⟨d2, d3, entering⟩ := h
  simp [afterWake, d2, d3, entering]

/-- In D2 or D3 it first orders the exit. -/
theorem afterWake_asleep (f : State → Ran) {s : State}
    (h : s.pow.state = .d2 ∨ s.pow.state = .d3 ∨ s.pow.phase = .enteringD3) :
    afterWake f s = .waits true (requestWake .stateCommand s) := by
  rcases h with d2 | d3 | entering
  · simp [afterWake, d2]
  · simp [afterWake, d3]
  · simp [afterWake, entering]

theorem cmdDeviceLeaveMaintenance_run (n : Nat) (a : Bytes) (t : State)
    (h : background? t ≠ some 0x0D04 ∧ background? t ≠ some 0x0D05) :
    cmdDeviceLeaveMaintenance.run n a t = withState leaveMaintenance t := by
  obtain ⟨noSelfTest, noReplay⟩ := h
  refine if_neg ?_
  simp [noSelfTest, noReplay]

theorem cmdDeviceLeaveMaintenance_run_busy (n : Nat) (a : Bytes) (t : State)
    (h : background? t = some 0x0D04 ∨ background? t = some 0x0D05) :
    cmdDeviceLeaveMaintenance.run n a t = refuseWord stBusy 1 t := by
  refine if_pos ?_
  rcases h with selfTest | replay
  · simp [selfTest]
  · simp [replay]

/-- DEVICE_RESET orders the reset of its KIND where no exit comes first (R454). -/
theorem exec_deviceReset {n : Fin 16} {s : State} (acc : accepted cmdDeviceReset n s = true)
    (d2 : s.pow.state ≠ .d2) (d3 : s.pow.state ≠ .d3) (entering : s.pow.phase ≠ .enteringD3) :
    exec (.deviceReset n) s = .next (orderReset (byteAt (cmdArgs s n) 0) (underWay n s)) := by
  obtain ⟨state, phase⟩ : (underWay n s).pow.state = s.pow.state ∧ (underWay n s).pow.phase = s.pow.phase :=
    Prod.mk.inj (underWay_powerMode n s)
  have awake : (underWay n s).pow.state ≠ .d2 ∧ (underWay n s).pow.state ≠ .d3
      ∧ (underWay n s).pow.phase ≠ .enteringD3 := by
    rw [state, phase]
    exact ⟨d2, d3, entering⟩
  exact congrArg Host.Outcome.next (takeUp_never acc
    (afterWake_awake (fun t => .never (orderReset (byteAt (cmdArgs s n) 0) t)) awake))

theorem cmdDeviceEraseKeys_run_final (n : Nat) (a : Bytes) (t : State)
    (h : (raiseAlarm 4 t).dev.erasing = false ∧ (raiseAlarm 4 t).dev.state = .safe) :
    cmdDeviceEraseKeys.run n a t = done (raiseAlarm 4 t) := by
  obtain ⟨erased, safe⟩ := h
  refine if_pos ?_
  simp [erased, safe]

theorem cmdDeviceEraseKeys_run_waits (n : Nat) (a : Bytes) (t : State)
    (h : (raiseAlarm 4 t).dev.erasing = true ∨ (raiseAlarm 4 t).dev.state ≠ .safe) :
    cmdDeviceEraseKeys.run n a t = .waits false (raiseAlarm 4 t) := by
  refine if_neg ?_
  rcases h with erasing | notSafe
  · simp [erasing]
  · simp [notSafe]

/-- Settles O26: each command is its own run, executed where no exit from D2 or D3 comes first. -/
theorem deviceStateCommandsAct : Obligations.DeviceStateCommandsAct := by
  refine ⟨completes_of_run (fun _ _ => rfl) fun _ _ _ awake =>
      afterWake_awake (withState startDevice) awake,
    completes_of_run (fun _ _ => rfl) fun _ _ _ awake =>
      afterWake_awake (fun t => done (stopDevice t)) awake,
    completes_of_run (fun _ _ => rfl) fun _ _ _ awake =>
      afterWake_awake (fun t => done (enterMaintenance t)) awake,
    heldUp_of_run (fun _ _ => rfl) fun _ _ _ asleep =>
      afterWake_asleep (withState startDevice) asleep,
    heldUp_of_run (fun _ _ => rfl) fun _ _ _ asleep =>
      afterWake_asleep (fun t => done (stopDevice t)) asleep,
    heldUp_of_run (fun _ _ => rfl) fun _ _ _ asleep =>
      afterWake_asleep (fun t => done (enterMaintenance t)) asleep,
    completes_of_run (fun _ _ => rfl) cmdDeviceLeaveMaintenance_run,
    turnedAway_of_run (fun _ _ => rfl) cmdDeviceLeaveMaintenance_run_busy,
    completes_of_run (fun _ _ => rfl) fun _ _ _ calm => if_neg fun asserted => asserted calm,
    turnedAway_of_run (fun _ _ => rfl) fun _ _ _ asserted => if_pos asserted, ?warm, ?cold,
    completes_of_run (fun _ _ => rfl) cmdDeviceEraseKeys_run_final,
    heldUp_of_run (fun _ _ => rfl) cmdDeviceEraseKeys_run_waits⟩
  case warm =>
    intro n s acc d2 d3 entering kind
    rw [exec_deviceReset acc d2 d3 entering, kind]
    rfl
  case cold =>
    intro n s acc d2 d3 entering kind
    rw [exec_deviceReset acc d2 d3 entering, kind]
    rfl

end Sys2Proof.Machine
end

section
/-! PROOFS. The activation timers and the consequent actions (O42). -/

namespace Sys2Proof.Machine

open Sys2Proof

/-! ### Registration (R153) -/

theorem execRegistrationTimeout_first {g : Fin 4} {s : State} {at_ : Nat}
    (first : (groupOf s g).segFirst = some at_) (acts : actsRun s = true) (idle : processing s = false) :
    execRegistrationTimeout g s = .next (abandonReg g (groupOf s g).segCh (groupOf s g).segSeq 1
      (passTo (at_ + ms 1000) s)) := by
  simp only [execRegistrationTimeout, first, acts, idle, Option.isSome_some, Bool.not_false, Bool.and_self, if_true,
    passSince]

/-! ### Key epochs (R154, R155) -/

theorem execEpochSwitchApply_reached {g : Fin 4} {s : State} {w : EpochSwitch} {c : Nat}
    (switch : (groupOf s g).switch = some w) (fresh : w.applied = false) (come : reached s g w.sfc = some c) :
    execEpochSwitchApply g s = .next (applySwitch g w (passFrame c w.sfc s)) := by
  simp only [execEpochSwitchApply, switch, fresh, come, Bool.false_eq_true, if_false]

/-- A switch under the current root between epochs of two KEY_INDEXes only moves the group on. -/
theorem applySwitch_of_current_root {g : Nat} {s : State} {w : EpochSwitch}
    (apart : sameIndex (groupOf s g) w = false) (current : w.fromPending = false) :
    applySwitch g w s = raise 0x0207 false g (leBytes 4 w.epoch ++ leBytes 8 w.sfc)
      (bump (ck 166 32 0) 1 (modGroup g (fun x => { x with
        upIndex := BitVec.ofNat 2 (epochIndex w.epoch), epoch := w.epoch, keyReqAt := s.now
        switch := some { w with applied := true } }) s)) := by
  simp only [applySwitch, apart, current, Bool.false_eq_true, if_false]

theorem execEpochRetire_reached {g : Fin 4} {s : State} {w : EpochSwitch} {c : Nat}
    (switch : (groupOf s g).switch = some w) (applied : w.applied = true)
    (come : reached s g (w.sfc + 800) = some c) :
    execEpochRetire g s = .next (retireEpoch g w (passFrame c (w.sfc + 800) s)) := by
  simp only [execEpochRetire, switch, applied, come, if_true]

/-! ### Timers (R133, R156) -/

theorem execRekeyInterval_runs {g : Fin 4} {s : State} (every : s.fib.policy.rekeyS ≠ 0)
    (root : (groupOf s g).curRoot = true) (acts : actsRun s = true) :
    let t := passTo ((groupOf s g).keyReqAt + ms (1000 * s.fib.policy.rekeyS)) s
    execRekeyInterval g s = .next (requestKey g 1 (modGroup g (fun x => { x with keyReqAt := t.now }) t)) := by
  refine if_neg ?_
  simp [every, root, acts]

theorem execRangingTimerExpiry_ranging {ch : Fin 4} {s : State}
    (ranging : (actOf s ch).act = .f3 ∨ (actOf s ch).act = .f4) (acts : actsRun s = true)
    (idle : processing s = false) :
    execRangingTimerExpiry ch s = .next (moveAct ch .f2 8 loseStation (passSince (actOf s ch).rangingEnd 0 s)) := by
  refine if_pos ?_
  rcases ranging with f3 | f4
  · simp [f3, acts, idle]
  · simp [f4, acts, idle]

theorem execF6TimerExpiry_f6 {ch : Fin 4} {s : State} (f6 : (actOf s ch).act = .f6) (acts : actsRun s = true)
    (idle : processing s = false) :
    execF6TimerExpiry ch s = .next (moveAct ch .f1 14 loseStation (passSince (actOf s ch).f6End 0 s)) := by
  refine if_pos ?_
  simp [f6, acts, idle]

/-! ### Consequent actions (R159 to R161) -/

section ConsequentAction

variable {ch : Fin 4} {g : Trigger} {s t : State} {at_ : Nat}
  (since : tget none s.fib.trigSince (ch * 8 + trigRow g) = some at_) (act : actionable s ch = true)
  (due : waitExit ch (passTo (at_ + ms (tget 0 s.fib.policy.holdoff (trigRow g))) s) = t)
include since act due

/-- A consequent action whose hold-off is over is applied outside D2. -/
theorem execConsequentAction_awake (awake : t.pow.state ≠ .d2) :
    execConsequentAction ch g s = .next (applyAction ch g t) := by
  have notD2 : (t.pow.state == .d2) = false := by simpa using awake
  simp only [execConsequentAction, since, act, due, notD2, Bool.not_true, Bool.false_eq_true, if_false]

/-- In D2 the doze channel first returns the terminal to D0. -/
theorem execConsequentAction_dozing (asleep : t.pow.state = .d2) (idle : t.pow.phase = .idle)
    (own : t.fib.doze.ch = ch.val) : execConsequentAction ch g s = .next (startExit t) := by
  simp only [execConsequentAction, since, act, due, asleep, idle, own, Bool.not_true, Bool.false_eq_true, if_false,
    beq_self_eq_true, Bool.and_self, if_true]

end ConsequentAction

/-- A withdrawn channel whose triggers have been clear for the restore hold-off takes its place again. -/
theorem execChannelRestore_clear {ch : Fin 4} {s : State} {g : Trigger} {at_ : Nat}
    (withdrawn : (actOf s ch).withdrawn = some g) (clear : tget none s.fib.clearSince ch = some at_)
    (acts : actsRun s = true) (f5 : (actOf s ch).act = .f5) (join : canJoin s ch = true) :
    execChannelRestore ch s = .next (restoreChannel ch g (passTo (at_ + ms s.fib.policy.restoreMs) s)) := by
  rw [execChannelRestore, withdrawn, clear]
  refine if_pos ?_
  simp [acts, f5, join]

/-- Settles O42: each row is its own lemma, on the group or the channel that the hypotheses describe. -/
theorem activationTimersAct : Obligations.ActivationTimersAct := by
  refine ⟨?timeout, ?apply, ?switch, ?retire, ?rekey, ?ranging, ?f6, ?action, ?restore⟩
  case timeout => exact fun g s at_ first acts idle => execRegistrationTimeout_first first acts idle
  case apply => exact fun g s w c switch fresh come => execEpochSwitchApply_reached switch fresh come
  case switch => exact fun g s w apart current => applySwitch_of_current_root apart current
  case retire => exact fun g s w c switch applied come => execEpochRetire_reached switch applied come
  case rekey => exact fun g s every root acts => execRekeyInterval_runs every root acts
  case ranging => exact fun ch s ranging acts idle => execRangingTimerExpiry_ranging ranging acts idle
  case f6 => exact fun ch s f6 acts idle => execF6TimerExpiry_f6 f6 acts idle
  case action =>
    exact fun ch g s at_ since act =>
      ⟨execConsequentAction_awake since act rfl, execConsequentAction_dozing since act rfl⟩
  case restore =>
    exact fun ch s g at_ withdrawn clear acts f5 join => execChannelRestore_clear withdrawn clear acts f5 join

end Sys2Proof.Machine
end

section
/-! PROOFS. The packet pipeline, and transmission on the client ports (O44, O48). -/

namespace Sys2Proof.Machine

open Sys2Proof

/-! ### A pass of a slice (R26, R168) -/

section Pass

variable {k : Fin 2} {r : List (Nat × EccVerdict)} {p : Pkt} {s t : State}

theorem execPipelinePass_off (off : sliceRuns s k = false) :
    execPipelinePass k s r = .next (wantAll (sliceDomains k) s) := by
  refine if_pos ?_
  rw [off, Bool.not_false]

variable (runs : sliceRuns s k = true) (next : nextPacket k s = (some p, t))
include runs next

/-- A packet that reaches a slice of a device that runs no traffic is discarded. -/
theorem execPipelinePass_discards (out : inService t = false) :
    execPipelinePass k s r = .next (discardInSlice p t) := by
  simp only [execPipelinePass, runs, next, out, Bool.not_true, Bool.not_false, Bool.false_eq_true, if_false, if_true]

/-- In a state that runs traffic the pass is decided and acted on. -/
theorem execPipelinePass_decides (serves : inService t = true) :
    execPipelinePass k s r = .next (
      let b := beginPass k p t
      let d := decidePass k b.1 r (stampAt b.1 3 (sliceIsland k 0) b.1.pass (touchSlice k b.2))
      let u := stampAt d.1.pkt 4 (sliceIsland k 2) d.1.kind d.2
      actOn d.1 (countAction d.1 (samplePass k d.1 u))) := by
  simp only [execPipelinePass, runs, next, serves, Bool.not_true, Bool.false_eq_true, if_false]

end Pass

/-! ### The next decided packet (R226) -/

/-- The oldest packet is the next one where slice 0 decided it. -/
theorem nextDecided_of_slice_zero {d : Decided} (h : d.pkt.slice = 0) (l : List Decided) :
    nextDecided (d :: l) = some (d, l) := by
  simp only [nextDecided, h, if_true]

/-- Of two packets decided at one instant that of slice 0 goes first. -/
theorem slice_of_nextDecided {d e f : Decided} {l m : List Decided} (next : nextDecided (d :: l) = some (f, m))
    (mem : e ∈ l) (zero : e.pkt.slice = 0) (same : e.at_ = d.at_) : f.pkt.slice = 0 := by
  by_cases own : d.pkt.slice = 0
  · rw [nextDecided_of_slice_zero own] at next
    obtain ⟨rfl, -⟩ := Prod.mk.inj (Option.some.inj next)
    exact own
  · have hit : (fun x : Decided => x.at_ == d.at_ && x.pkt.slice == 0) e = true := by simp [same, zero]
    cases found : l.findIdx? (fun x => x.at_ == d.at_ && x.pkt.slice == 0) with
    | none =>
      have miss := List.findIdx?_eq_none_iff.mp found e mem
      simp [hit] at miss
    | some i =>
      obtain ⟨lt, first, -⟩ := List.findIdx?_eq_some_iff_getElem.mp found
      simp only [nextDecided, own, if_false, found, List.getElem?_eq_getElem lt, Option.some.injEq,
        Prod.mk.injEq] at next
      obtain ⟨rfl, -⟩ := next
      simp only [Bool.and_eq_true, beq_iff_eq] at first
      exact first.2

/-! ### The packet enqueued (R231, R240, R253) -/

section Enqueue

variable {d : Decided} {l : List Decided} {s t : State} {m : Pkt × Bool × State}
  (next : nextDecided s.cls.decided = some (d, l))
  (taken : takePacket (linkNo 8 d.pkt.slice) 1 d.pkt.cport d.pkt.booked
    { s with cls := { s.cls with decided := l } } = t)
  (metered : meterPacket d.pkt t = m) (serves : inService t = true)
include next taken metered serves

/-- A packet that its policer finds red is dropped. -/
theorem execEnqueue_red (red : m.2.1 = true) : execEnqueue s = .next (dropPacket 0x40 m.1 m.2.2) := by
  simp only [execEnqueue, next, taken, metered, serves, red, Bool.not_true, Bool.false_eq_true, if_false, if_true]

/-- Any other packet is copied to its destinations, and each copy is offered to its queue. -/
theorem execEnqueue_offers (pass : m.2.1 = false) : execEnqueue s = .next (
    let ds := d.dests.map (fun e => (distribute m.2.2 m.1 e.1, e.2))
    let u := forEach ((ds.drop 1).map (·.1)) (fun _ s => book .repl m.1.cport m.1.booked s)
      (noteCopies m.1 (ds.length - 1) (addRefs m.1.fid (ds.length - 1) m.2.2))
    (copiesOf m.1 ds).foldl (fun s e => enqueueCopy e.1 e.2 s) u) := by
  simp only [execEnqueue, next, taken, metered, serves, pass, Bool.not_true, Bool.false_eq_true, if_false]

end Enqueue

/-- Settles O44: a pass and an enqueue by cases on whether the device runs traffic, and slice 0 first by the position
that the search finds. -/
theorem pipelineDecides : Obligations.PipelineDecides := by
  refine ⟨?pass, ?off, ?enqueue, ?zero, ?first⟩
  case pass =>
    exact fun k r p s t runs next => ⟨execPipelinePass_discards runs next, execPipelinePass_decides runs next⟩
  case off => exact fun k r s off => execPipelinePass_off off
  case enqueue =>
    exact fun d l s next => ⟨fun serves red => execEnqueue_red next rfl rfl serves red,
      fun serves pass => execEnqueue_offers next rfl rfl serves pass⟩
  case zero => exact fun d l zero => nextDecided_of_slice_zero zero l
  case first => exact fun d e f l m next mem zero same => slice_of_nextDecided next mem zero same

/-! ### The next frame of a port (R36, R243, R441) -/

theorem execTransmitStart_safe {p : Fin 16} {s : State} (safe : s.dev.state = .safe) :
    execTransmitStart p s = .next (forEach ((List.range 8).map (8 * p.val + ·)) (flushQueue 0x72) s) :=
  if_pos safe

section Transmit

variable {p : Fin 16} {s t : State} (running : s.dev.state ≠ .safe) (may : mayStart s p = true)
  (ready : passTo (portOf s p).readyAt s = t)
include running may ready

/-- Without a frame of Knarrasar's own the scheduler picks. -/
theorem execTransmitStart_scheduled (empty : (portOf t p).inject = []) :
    execTransmitStart p s = .next (startNextFrame p t) := by
  simp only [execTransmitStart, running, may, ready, empty, Bool.not_true, Bool.false_eq_true, if_false]

/-- While class 7 is paused the scheduler picks although a frame of Knarrasar's own waits. -/
theorem execTransmitStart_paused {f : OwnFrame} {l : List OwnFrame} (own : (portOf t p).inject = f :: l)
    (paused7 : paused t p 7 = true) : execTransmitStart p s = .next (startNextFrame p t) := by
  simp only [execTransmitStart, running, may, ready, own, paused7, Bool.not_true, Bool.false_eq_true, if_false,
    if_true]

/-- While class 7 is open a frame of Knarrasar's own goes first. -/
theorem execTransmitStart_own {f : OwnFrame} {l : List OwnFrame} (own : (portOf t p).inject = f :: l)
    (open7 : paused t p 7 = false) :
    execTransmitStart p s = .next (sendOwn p f (modPort p (fun x => { x with inject := l }) t)) := by
  simp only [execTransmitStart, running, may, ready, own, open7, Bool.not_true, Bool.false_eq_true, if_false]

end Transmit

/-! ### The last byte of a frame (R249, R358) -/

/-- What the last byte of a frame comes to: a frame found bad is stomped, a good one is complete. -/
theorem execEgressFrameEnd_sent {p : Fin 16} {l : Leaving} {s : State} (sent : tget none s.tm.leaving p = some l)
    (whole : l.waiting = false) (bad : Bool) :
    let t : State := { s with tm := { s.tm with leaving := tset none s.tm.leaving p none } }
    execEgressFrameEnd p bad s = if bad || l.copy.pkt.bad then .next (noteIdle p (stompLeaving p 0x4A l t))
      else if l.copy.pkt.badFcs then .next (noteIdle p (stompLeaving p 0x01 l t))
      else .next (loopBack p l.bytes (noteIdle p (completeLeaving p l t))) := by
  simp only [execEgressFrameEnd, sent, whole, Bool.false_eq_true, if_false]

/-- Settles O48: transmission starts by cases on what waits at the port, and ends by cases on how the frame was
found. -/
theorem portsTransmit : Obligations.PortsTransmit := by
  refine ⟨?safe, ?start, ?last⟩
  case safe => exact fun p s safe => execTransmitStart_safe safe
  case start =>
    exact fun p s running may => ⟨execTransmitStart_scheduled running may rfl, fun f l own =>
      ⟨execTransmitStart_paused running may rfl own, execTransmitStart_own running may rfl own⟩⟩
  case last =>
    intro p bad l s sent whole
    have ends := execEgressFrameEnd_sent sent whole bad
    refine ⟨fun stomped => ends.trans (if_pos stomped), fun good badFcs => ends.trans ?_,
      fun good goodFcs => ends.trans ?_⟩
    · simp only [good, badFcs, Bool.false_eq_true, if_false, if_true]
    · simp only [good, goodFcs, Bool.false_eq_true, if_false]

end Sys2Proof.Machine
end

section
/-! PROOFS. The requests of the cipher complex (O49). -/

namespace Sys2Proof.Machine

open Sys2Proof

/-! ### The oldest request of a source (R277, R278, R293) -/

section Request

variable {src : Fin 11} {r : CipherReq} {l : List CipherReq} {p : Nat} {s : State}
  (oldest : tget [] s.cip.waiting src = r :: l) (least : leastLoaded s (pipesOf src) = some p)
include oldest least

/-- After an erasure a request fails at once. -/
theorem execCipherRequest_erased (erased : complexErased s = true) : execCipherRequest src s
    = .next (finishRequest { req := r, status := 4, bytes := [], pipe := p, taken := false } (popRequest src s)) := by
  simp only [execCipherRequest, oldest, least, erased, if_true]

/-- A request first wakes the power domain of its pipeline. -/
theorem execCipherRequest_wakes (held : complexErased s = false) (off : domainOn s (engineDomain p) = false) :
    execCipherRequest src s = .next (want (engineDomain p) s) := by
  simp only [execCipherRequest, oldest, least, held, off, Bool.not_false, Bool.false_eq_true, if_false, if_true]

/-- A request that fits joins the pipeline. -/
theorem execCipherRequest_joins (held : complexErased s = false) (fits : requestFits s p r = true)
    (on : domainOn s (engineDomain p) = true) :
    execCipherRequest src s = .next (joinPipe p r (popRequest src s)) := by
  simp only [execCipherRequest, oldest, least, held, fits, on, Bool.not_true, Bool.false_eq_true, if_false, if_true]

end Request

/-! ### Derivations (R282, R300) -/

section Derivation

variable {k : Nat × Nat} {l : List (Nat × Nat)} {s t : State} (oldest : s.cip.derivations = k :: l)
  (counted : bump (ck 305 33 0) 1 { s with cip := { s.cip with derivations := l } } = t)
include oldest counted

/-- A derivation whose root or epoch is gone enters nothing. -/
theorem execKeyDerivationDone_gone (gone : derivedEntry s k = none) :
    execKeyDerivationDone s = .next (forEach (List.range 16) lookAhead t) := by
  simp only [execKeyDerivationDone, oldest, counted, gone]

/-- Any other enters the cache. -/
theorem execKeyDerivationDone_cached {e : KeyEntry} (derived : derivedEntry s k = some e) :
    execKeyDerivationDone s = .next (forEach (List.range 16) lookAhead (fillCache e t)) := by
  simp only [execKeyDerivationDone, oldest, counted, derived]

end Derivation

/-- The cache holds the newest 512 entries. -/
theorem fillCache_cache (e : KeyEntry) (s : State) :
    (fillCache e s).cip.cache = (e :: s.cip.cache).take 512 := by
  simp only [fillCache]
  split <;> rfl

/-- An entry that a full cache loses is counted. -/
theorem fillCache_count (e : KeyEntry) (s : State) :
    (fillCache e s).count (ck 305 32 0) = s.count (ck 305 32 0) + b2n (decide (512 ≤ s.cip.cache.length)) := by
  by_cases full : 512 ≤ s.cip.cache.length
  · simp only [fillCache, ge_iff_le, full, decide_true, if_true, count_bump]
    rfl
  · simp only [fillCache, ge_iff_le, full, decide_false, Bool.false_eq_true, if_false]
    rfl

/-! ### The start of a request (R282 to R284) -/

section Start

variable {p : Fin 16} {s : State} (held : complexErased s = false) (on : engineRuns p s = true)
include held on

/-- A ready line request starts on a pipeline at rest. -/
theorem execPipelineStart_line {q : CipherReq} (line : readyLine s p = some q)
    (rest : (pipeOf s p).running = none) : execPipelineStart p s = .next (startRequest p q s) := by
  simp only [execPipelineStart, held, on, line, rest, Bool.not_true, Bool.false_eq_true, if_false]

/-- It suspends a bulk request that runs. -/
theorem execPipelineStart_suspends {q : CipherReq} {r : Result} (line : readyLine s p = some q)
    (runs : (pipeOf s p).running = some r) (bulk : r.req.bulk = true) :
    execPipelineStart p s = .next (startRequest p q (suspendBulk p r s)) := by
  simp only [execPipelineStart, held, on, line, runs, bulk, Bool.not_true, Bool.false_eq_true, if_false, if_true]

variable (noLine : readyLine s p = none) (rest : (pipeOf s p).running = none)
include noLine rest

/-- Without one the suspended bulk request goes on. -/
theorem execPipelineStart_resumes {r : Result} (suspended : (pipeOf s p).suspended = some r) :
    execPipelineStart p s = .next (resumeBulk p r s) := by
  simp only [execPipelineStart, held, on, noLine, rest, suspended, Bool.not_true, Bool.false_eq_true, if_false]

/-- Else the oldest bulk request that is ready starts. -/
theorem execPipelineStart_bulk {q : CipherReq} (noneSuspended : (pipeOf s p).suspended = none)
    (bulk : readyBulk s p = some q) : execPipelineStart p s = .next (startRequest p q s) := by
  simp only [execPipelineStart, held, on, noLine, rest, noneSuspended, bulk, Bool.not_true, Bool.false_eq_true,
    if_false]

end Start

/-! ### The share of bulk requests (R285) -/

section Share

variable {p : Fin 16} {at_ : Nat} {s t : State} (rest : (pipeOf s p).running = none)
  (noShare : (pipeOf s p).share = false) (waits : (pipeOf s p).bulkWait = some at_) (on : engineRuns p s = true)
include rest noShare waits on

/-- A suspended bulk request takes the share. -/
theorem execBulkShare_suspended {r : Result} (suspended : (pipeOf s p).suspended = some r) :
    execBulkShare p s = .next (bump (ck 305 29 p) 1 (modPipe p (fun x => { x with share := true })
      (passTo (at_ + us 20) s))) := by
  simp only [execBulkShare, rest, noShare, waits, on, suspended, passSince, Option.any_none, Option.isNone_some,
    Bool.not_true, Bool.or_self, Bool.false_and, Bool.false_eq_true, if_false]

variable (noneSuspended : (pipeOf s p).suspended = none)
include noneSuspended

/-- Without a bulk request that is ready no share begins. -/
theorem execBulkShare_unready (unready : readyBulk s p = none) : execBulkShare p s = .next (lookAhead p s) := by
  simp only [execBulkShare, rest, noShare, waits, on, noneSuspended, unready, Option.any_none, Option.isNone_some,
    Option.isNone_none, Bool.not_true, Bool.or_self, Bool.and_self, Bool.false_eq_true, if_false, if_true]

/-- The bulk request that is ready when the share begins is taken into service beside the line request. -/
theorem execBulkShare_enters {q : CipherReq} (ready : (readyBulk s p).isSome = true)
    (begun : bump (ck 305 29 p) 1 (modPipe p (fun x => { x with share := true }) (passTo (at_ + us 20) s)) = t)
    (bulk : readyBulk t p = some q) : execBulkShare p s = .next (modPipe p (fun x => { x with
      suspended := some (enterPipe p q t).1, saved := some (savedAt (enterPipe p q t).2 q 0) })
      (enterPipe p q t).2) := by
  have notNone : (readyBulk s p).isNone = false := by simpa using ready
  simp only [execBulkShare, rest, noShare, waits, on, noneSuspended, notNone, passSince, begun, bulk, Option.any_none,
    Option.isNone_some, Option.isNone_none, Bool.not_true, Bool.or_self, Bool.and_false, Bool.false_eq_true, if_false]

end Share

/-! ### Results (R281) -/

/-- A result ends the request that runs. -/
theorem execCipherResult_running {p : Fin 16} {r : Result} {s : State} (runs : (pipeOf s p).running = some r)
    (on : engineRuns p s = true) :
    let t := modPipe p (fun x => { x with running := none }) s
    execCipherResult p s = .next (endRequest r (if r.req.bulk then endBulk p t else t)) := by
  simp only [execCipherResult, runs, on, Bool.not_true, Bool.false_eq_true, if_false]

/-- On a pipeline at rest it ends the bulk request in its share. -/
theorem execCipherResult_share {p : Fin 16} {r : Result} {s : State} (rest : (pipeOf s p).running = none)
    (suspended : (pipeOf s p).suspended = some r) (share : (pipeOf s p).share = true)
    (on : engineRuns p s = true) : execCipherResult p s
      = .next (endRequest r (endBulk p (modPipe p (fun x => { x with suspended := none, saved := none }) s))) := by
  simp only [execCipherResult, rest, suspended, share, on, Bool.not_true, Bool.false_eq_true, if_false, if_true]

/-- Settles O49: each row by cases on its request and on the pipeline it finds. -/
theorem cipherRequestsMove : Obligations.CipherRequestsMove := by
  refine ⟨?request, ?derivation, ?cache, ?line, ?bulk, ?shareSuspended, ?shareReady, ?result, ?resultShare, ?failures⟩
  case request =>
    exact fun src r l p s oldest least => ⟨execCipherRequest_erased oldest least,
      execCipherRequest_wakes oldest least, execCipherRequest_joins oldest least⟩
  case derivation =>
    exact fun k l s oldest => ⟨execKeyDerivationDone_gone oldest rfl,
      fun e derived => execKeyDerivationDone_cached oldest rfl derived⟩
  case cache => exact fun e s => ⟨fillCache_cache e s, fillCache_count e s⟩
  case line =>
    exact fun p q s held on line => ⟨execPipelineStart_line held on line,
      fun r runs bulk => execPipelineStart_suspends held on line runs bulk⟩
  case bulk =>
    exact fun p s held on noLine rest => ⟨fun r => execPipelineStart_resumes held on noLine rest,
      fun q => execPipelineStart_bulk held on noLine rest⟩
  case shareSuspended =>
    exact fun p r at_ s rest noShare waits suspended on => execBulkShare_suspended rest noShare waits on suspended
  case shareReady =>
    exact fun p at_ s rest noShare waits noneSuspended on =>
      ⟨execBulkShare_unready rest noShare waits on noneSuspended,
        fun q ready bulk => execBulkShare_enters rest noShare waits on noneSuspended ready rfl bulk⟩
  case result => exact fun p r s runs on => execCipherResult_running runs on
  case resultShare => exact fun p r s rest suspended share on => execCipherResult_share rest suspended share on
  case failures => exact fun s after => if_pos after

end Sys2Proof.Machine
end

section
/-! PROOFS. Power domains, device power states, droop and the cap (O55). -/

namespace Sys2Proof.Machine

open Sys2Proof

/-! ### A power domain without requests (R476, R477, R493) -/

section IdleOff

variable {d : Fin 96} {s t : State} (idle : domainBusy s d = false) (later : passTo (idleFrom s d + us 100) s = t)
include idle later

/-- An island's domain is gated off, and loses what it held. -/
theorem execDomainIdleOff_gated (setting : domainSetting s d = .gated) (awake : (domainOf s d).asleep = false) :
    execDomainIdleOff d s = .next (modDomain d (fun x => { x with asleep := true }) (loseDomain d t)) := by
  simp only [execDomainIdleOff, idle, setting, awake, later, Bool.false_eq_true, if_false]

/-- A domain woken while its setting is off goes off again. -/
theorem execDomainIdleOff_off (setting : domainSetting s d = .off) (woken : (domainOf s d).woken = true) :
    execDomainIdleOff d s = .next (modDomain d (fun x => { x with woken := false }) (loseDomain d t)) := by
  simp only [execDomainIdleOff, idle, setting, woken, later, Bool.false_eq_true, if_false, if_true]

/-- A bank group woken from retention is retained again. -/
theorem execDomainIdleOff_retained {g : Nat} (setting : domainSetting s d = .retained)
    (woken : (domainOf s d).woken = true) (bank : bankOfDomain d = some g) :
    execDomainIdleOff d s = .next (retainBank g (modDomain d (fun x => { x with woken := false }) t)) := by
  simp only [execDomainIdleOff, idle, setting, woken, later, bank, Bool.false_eq_true, if_false, if_true]

end IdleOff

/-! ### Changes of power state (R157, R480 to R487) -/

theorem execD2Entry_comes {s : State} (scheduled : s.fib.doze.phase = .scheduled)
    (awake : s.pow.state = .d0 ∨ s.pow.state = .d1) (come : comesTo s s.fib.doze.ch s.fib.doze.start = true) :
    execD2Entry s = .next (enterD2 (passFrame s.fib.doze.ch s.fib.doze.start s)) := by
  refine if_pos ?_
  rcases awake with d0 | d1
  · simp [scheduled, d0, come]
  · simp [scheduled, d1, come]

theorem execD3EntryDone_entering {s : State} (entering : s.pow.phase = .enteringD3) :
    execD3EntryDone s = .next (finishD3 s) :=
  if_pos (beq_iff_eq.mpr entering)

theorem execPowerStateChangeDone_toD1 {s : State} (toD1 : s.pow.phase = .toD1) :
    execPowerStateChangeDone s = .next (concludePower stOk false [] (enterPower .d1 s)) := by
  simp only [execPowerStateChangeDone, toD1]

theorem execPowerStateChangeDone_fromD1 {s : State} (fromD1 : s.pow.phase = .fromD1) :
    execPowerStateChangeDone s = .next (concludePower stOk false [] (enterPower .d0 s)) := by
  simp only [execPowerStateChangeDone, fromD1]

theorem execD2ExitDone_exiting {s : State} (exiting : s.pow.phase = .exitingD2) (l : List (Fin 24)) :
    execD2ExitDone l s = .next (endExit l s) :=
  if_pos (beq_iff_eq.mpr exiting)

theorem execD3ExitDone_exiting {s : State} (exiting : s.pow.phase = .exitingD3) (l : List (Fin 24)) :
    execD3ExitDone l s = .next (endExit l s) :=
  if_pos (beq_iff_eq.mpr exiting)

/-! ### Droop (R21, R488, R489) -/

/-- The detector and the counters once a sag has begun. -/
def sagBegun (d : Nat) (s : State) : State :=
  modDetect d (fun x => { x with
      recent := recentSags s (detectOf s d), stretching := !exemptIsland (detectorIsland d)
      since := s.now, low := s.now })
    (countIsland (detectorIsland d) (0x1100 + detectorIndex d) 1 (bump (ck 495 16 d) 1 s))

/-- A sag that begins is answered when it is one too many within 1 ms. -/
theorem beginSag_eq (d : Nat) (s : State) : beginSag d s
    = if (detectOf s d).sustain ≤ (recentSags s (detectOf s d)).length then answerSag d (sagBegun d s)
      else sagBegun d s := rfl

section Sag

variable {d : Fin 48} {s : State} (armed : domainOn s (islandDomain (detectorIsland d)) = true)
include armed

/-- A sag within a stretch only prolongs it. -/
theorem execDroopSag_stretching (stretching : (detectOf s d).stretching = true) :
    execDroopSag d s = .next (modDetect d (fun x => { x with low := s.now }) s) := by
  simp only [execDroopSag, armed, stretching, Bool.not_true, Bool.false_eq_true, if_false, if_true]

/-- Any other sag begins one. -/
theorem execDroopSag_begins (apart : (detectOf s d).stretching = false) :
    execDroopSag d s = .next (beginSag d s) := by
  simp only [execDroopSag, armed, apart, Bool.not_true, Bool.false_eq_true, if_false]

end Sag

theorem detectOf_passTo (d t : Nat) (s : State) : detectOf (passTo t s) d = detectOf s d := by
  simp only [detectOf, passTo_pow]

/-- A detector's change matters only on the detector as it stands. -/
theorem modDetect_congr {d : Nat} {f g : Detect → Detect} {s : State}
    (same : f (detectOf s d) = g (detectOf s d)) : modDetect d f s = modDetect d g s := by
  unfold detectOf at same
  simp only [modDetect, same]

/-- A stretch that ends adds its length to the detector's total. -/
theorem execDroopStretchEnd_stretching {d : Fin 48} {s t : State} (stretching : (detectOf s d).stretching = true)
    (ended : passTo ((detectOf s d).low + us 1) s = t) :
    execDroopStretchEnd d s = .next (modDetect d (fun x => { x with
      stretching := false, sustained := false
      stretched := (detectOf s d).stretched + (t.now - (detectOf s d).since) }) t) := by
  have kept : detectOf t d = detectOf s d := ended ▸ detectOf_passTo d _ s
  simp only [execDroopStretchEnd, stretching, ended, if_true]
  exact congrArg _ (modDetect_congr (by rw [kept]))

/-- A stretch of 100 µs is answered once. -/
theorem execSustainedSag_lasts {d : Fin 48} {s : State} (stretching : (detectOf s d).stretching = true)
    (first : (detectOf s d).sustained = false) :
    execSustainedSag d s = .next (answerSag d (passTo ((detectOf s d).since + us 100) s)) := by
  refine if_pos ?_
  simp [stretching, first]

/-! ### DEGRADED (R442, R443) -/

theorem execDegradedEvaluation_active {s : State} (active : s.dev.state = .active) :
    execDegradedEvaluation s = if s.dev.causes = 0 then .next s else .next (changeState .degraded s) := by
  simp only [execDegradedEvaluation, active]

theorem execDegradedEvaluation_degraded {s : State} (degraded : s.dev.state = .degraded) :
    execDegradedEvaluation s = if s.dev.causes = 0 then .next (changeState .active s) else .next s := by
  simp only [execDegradedEvaluation, degraded]

/-- Settles O55: each row acts in the phase, the setting or the state that its hypothesis names. -/
theorem powerEventsAct : Obligations.PowerEventsAct := by
  refine ⟨?wake, ?idleOff, ?d2Entry, ?wakeSource, ?d3Entry, ?toD1, ?fromD1, ?d2Exit, ?d3Exit, ?sag, ?stretchEnd, ?cap,
    ?active, ?degraded⟩
  case wake => exact fun d ok s rails => if_pos rails
  case idleOff =>
    exact fun d s idle => ⟨execDomainIdleOff_gated idle rfl, execDomainIdleOff_off idle rfl,
      fun g => execDomainIdleOff_retained idle rfl⟩
  case d2Entry => exact fun s scheduled awake come => execD2Entry_comes scheduled awake come
  case wakeSource => exact fun w s => rfl
  case d3Entry => exact fun s entering => execD3EntryDone_entering entering
  case toD1 => exact fun s toD1 => execPowerStateChangeDone_toD1 toD1
  case fromD1 => exact fun s fromD1 => execPowerStateChangeDone_fromD1 fromD1
  case d2Exit => exact fun l s exiting => execD2ExitDone_exiting exiting l
  case d3Exit => exact fun l s exiting => execD3ExitDone_exiting exiting l
  case sag =>
    intro d s armed
    refine ⟨execDroopSag_stretching armed, fun apart few => ?_, fun apart many => ?_⟩
    · refine (execDroopSag_begins armed apart).trans (congrArg _ ?_)
      exact (beginSag_eq d s).trans (if_neg (Nat.not_le.mpr few))
    · refine (execDroopSag_begins armed apart).trans (congrArg _ ?_)
      exact (beginSag_eq d s).trans (if_pos many)
  case stretchEnd =>
    exact fun d s stretching => ⟨execDroopStretchEnd_stretching stretching rfl,
      fun first => execSustainedSag_lasts stretching first⟩
  case cap => exact fun mW s ready => if_pos ready
  case active =>
    exact fun s active => ⟨fun cause => (execDegradedEvaluation_active active).trans (if_neg cause),
      fun clear => (execDegradedEvaluation_active active).trans (if_pos clear)⟩
  case degraded =>
    exact fun s degraded => ⟨fun clear => (execDegradedEvaluation_degraded degraded).trans (if_pos clear),
      fun cause => (execDegradedEvaluation_degraded degraded).trans (if_neg cause)⟩

end Sys2Proof.Machine
end

section
/-! PROOFS. Alarms, the Warden, sensors and pins (O57). -/

namespace Sys2Proof.Machine

open Sys2Proof

/-! ### Alarms and the Warden (R301, R302, R547, R549) -/

theorem execEraseDone_erasing {s : State} (erasing : s.dev.erasing = true) :
    execEraseDone s = .next (concludeErase
      (raise 0x0103 true 0xFF [] (bump (ck 305 38 0) 1 { s with dev := { s.dev with erasing := false } }))) :=
  if_pos erasing

/-- A third mismatch in a row holds the alarm source; fewer are only counted. -/
theorem execTamperCheck_mismatch (s : State) :
    let t : State := { s with pow := { s.pow with tamperRun := s.pow.tamperRun + 1 } }
    execTamperCheck false s = .next (if 3 ≤ s.pow.tamperRun + 1 then holdSource 0 t else t) := rfl

/-- The first mismatch of the lockstep pair raises the Warden's alarm. -/
theorem execLockstepMismatch_first {s : State} (first : s.dev.lockstep = false) :
    execLockstepMismatch s = .next (raiseAlarm 4 { s with dev := { s.dev with lockstep := true } }) := by
  simp only [execLockstepMismatch, first, Bool.false_eq_true, if_false]

/-! ### Sensors (R38, R547) -/

theorem readingOk_eq_true_iff (t : Int) : readingOk t = true ↔ -550 ≤ t ∧ t ≤ 1500 := by
  simp only [readingOk, Bool.and_eq_true, decide_eq_true_iff]

/-- A reading out of the sensor's range is counted and discarded. -/
theorem noteReading_out (k : Fin 24) {t : Int} (out : t < -550 ∨ 1500 < t) (s : State) :
    noteReading (k, t) s = bump (ck 547 0 k) 1 s := by
  refine if_neg ?_
  rw [readingOk_eq_true_iff]
  omega

theorem noteReading_within (k : Fin 24) {t : Int} (lo : -550 ≤ t) (hi : t ≤ 1500) (s : State) :
    noteReading (k, t) s = modSensor k (takeReading t s.now) s :=
  if_pos ((readingOk_eq_true_iff t).mpr ⟨lo, hi⟩)

/-- The state after the readings of a conversion and the throttle that they begin. -/
def converted (l : List (Fin 24 × Int)) (s : State) : State :=
  let u := l.foldl (fun s e => noteReading e s) s
  if crossing s l = [] then u else beginThrottle (lowest (crossing s l)) u

/-- A reading of a conversion is above 125 °C, and so was its sensor's reading before. -/
def overAlarmTwice (l : List (Fin 24 × Int)) (s : State) : Prop :=
  ∃ e ∈ l, readingOk e.2 = true ∧ (sensorOf s e.1).overAlarm = true ∧ 1250 < e.2

theorem any_overAlarm_eq_true_iff (l : List (Fin 24 × Int)) (s : State) :
    l.any (fun e => readingOk e.2 && (sensorOf s e.1).overAlarm && decide (e.2 > 1250)) = true
      ↔ overAlarmTwice l s := by
  simp only [overAlarmTwice, List.any_eq_true, Bool.and_eq_true, decide_eq_true_iff, and_assoc, gt_iff_lt]

theorem any_sensor_overAlarm_eq_true_iff (s : State) :
    (List.range 24).any (fun j => (sensorOf s j).overAlarm) = true ↔ ∃ j < 24, (sensorOf s j).overAlarm = true := by
  simp only [List.any_eq_true, List.mem_range]

section Conversion

variable {k : Fin 24} {d : Int} {m : List (Fin 24 × Int)} {s v : State} (taken : converted ((k, d) :: m) s = v)
include taken

/-- What a conversion comes to: alarm source 2 is held, stays as it is, or is over. -/
theorem execThermalConversion_eq : execThermalConversion k d s m
    = if ((k, d) :: m).any (fun e => readingOk e.2 && (sensorOf s e.1).overAlarm && decide (e.2 > 1250))
      then .next (holdSource 2 v)
      else if (List.range 24).any (fun j => (sensorOf v j).overAlarm) then .next v
      else .next (assertSource 2 false v) := by
  have state : (if (crossing s ((k, d) :: m)).isEmpty then ((k, d) :: m).foldl (fun s e => noteReading e s) s
      else beginThrottle (lowest (crossing s ((k, d) :: m)))
        (((k, d) :: m).foldl (fun s e => noteReading e s) s)) = v := by
    rw [← taken, converted]
    by_cases quiet : crossing s ((k, d) :: m) = []
    · rw [if_pos quiet, if_pos (List.isEmpty_iff.mpr quiet)]
    · rw [if_neg quiet, if_neg (mt List.isEmpty_iff.mp quiet)]
  simp only [execThermalConversion, state]

theorem execThermalConversion_holds (high : overAlarmTwice ((k, d) :: m) s) :
    execThermalConversion k d s m = .next (holdSource 2 v) :=
  (execThermalConversion_eq taken).trans (if_pos ((any_overAlarm_eq_true_iff _ s).mpr high))

theorem execThermalConversion_stays (low : ¬ overAlarmTwice ((k, d) :: m) s)
    (hot : ∃ j < 24, (sensorOf v j).overAlarm = true) : execThermalConversion k d s m = .next v := by
  rw [execThermalConversion_eq taken, if_neg (mt (any_overAlarm_eq_true_iff _ s).mp low),
    if_pos ((any_sensor_overAlarm_eq_true_iff v).mpr hot)]

theorem execThermalConversion_ends (low : ¬ overAlarmTwice ((k, d) :: m) s)
    (cool : ∀ j < 24, (sensorOf v j).overAlarm = false) :
    execThermalConversion k d s m = .next (assertSource 2 false v) := by
  have noneHot : ¬ ∃ j < 24, (sensorOf v j).overAlarm = true := by
    rintro ⟨j, lt, hot⟩
    rw [cool j lt] at hot
    exact absurd hot Bool.false_ne_true
  rw [execThermalConversion_eq taken, if_neg (mt (any_overAlarm_eq_true_iff _ s).mp low),
    if_neg (mt (any_sensor_overAlarm_eq_true_iff v).mp noneHot)]

end Conversion

/-! ### The throttle (R38) -/

/-- The lowest of some sensor numbers is their minimum. -/
theorem lowest_eq_min {l : List Nat} (nonempty : l ≠ []) (sensors : ∀ k ∈ l, k ≤ 23) : lowest l = l.min nonempty :=
  (List.foldl_min_eq_min nonempty).trans (Nat.min_eq_right (sensors _ (List.min_mem nonempty)))

theorem le_of_mem_crossing {s : State} {l : List (Fin 24 × Int)} {k : Nat} (mem : k ∈ crossing s l) : k ≤ 23 := by
  obtain ⟨e, -, rfl⟩ := List.mem_map.mp mem
  omega

/-- The throttle's event names a sensor that crossed, and none below it did. -/
theorem lowest_crossing {s : State} {l : List (Fin 24 × Int)} (nonempty : crossing s l ≠ []) :
    lowest (crossing s l) ∈ crossing s l ∧ ∀ k ∈ crossing s l, lowest (crossing s l) ≤ k := by
  rw [lowest_eq_min nonempty fun _ => le_of_mem_crossing]
  exact ⟨List.min_mem nonempty, fun _ => List.min_le_of_mem⟩

/-- Once every sensor is cool the throttle is released 10 ms after the last to cool. -/
theorem execThrottleRelease_cool {s t : State} (throttled : s.pow.throttle = true)
    (cool : ∀ k < 24, stillHot (sensorOf s k) = false) (later : passTo ((lastToCool s).2 + ms 10) s = t) :
    execThrottleRelease s = .next (raise 0x0A02 true (lastToCool s).1 (leBytes 1 0)
      (setCause 1 false { t with pow := { t.pow with throttle := false } })) := by
  have noneHot : (List.range 24).any (fun k => stillHot (sensorOf s k)) = false := by
    simpa using cool
  simp only [execThrottleRelease, throttled, noneHot, later, Bool.not_false, Bool.and_self, if_true]

theorem execSensorFailed_first {k : Fin 24} {s t : State} (working : (sensorOf s k).failed = false)
    (later : passTo ((sensorOf s k).at_ + ms 1) s = t) :
    execSensorFailed k s = .next { modSensor k (fun x => { x with failed := true }) t with
      hif := { t.hif with sensorFail := true } } := by
  simp only [execSensorFailed, working, later, Bool.false_eq_true, if_false]

/-! ### Pins and their filters (R128, R546, R576, R587) -/

/-- A level held for the filter's width takes effect the width after its edge. -/
theorem deglitch_of_le {row unit width held : Nat} (wide : width ≤ held) (f : State → State) (s : State) :
    deglitch row unit width held f s = f (passTo (s.now + width) s) :=
  if_neg (Nat.not_lt.mpr wide)

/-- A level held for less is counted, and nothing else. -/
theorem deglitch_of_lt {row unit width held : Nat} (narrow : held < width) (f : State → State) (s : State) :
    deglitch row unit width held f s = bump (ck 546 row unit) 1 s :=
  if_pos narrow

/-- What low VIO_OPT does to the laser-fault inputs, filtered. -/
theorem execVioOptLow_good {s : State} (good : s.sup.vioLow = false) (held : Nat) :
    execVioOptLow s held = .next (deglitch 4 0 (us 10) held
      (fun s => forEach (List.range 4) (fun c s => laserFault c true s) (isolateOptics true s)) s) := by
  simp only [execVioOptLow, good, Bool.false_eq_true, if_false]

/-- What the return of VIO_OPT does to them, filtered. -/
theorem execVioOptRestore_low {s : State} (low : s.sup.vioLow = true) (held : Nat) :
    execVioOptRestore s held = .next (deglitch 4 0 (us 10) held (fun s =>
      forEach (List.range 4) (fun c s => laserFault c (actOf s c).txPin s) (isolateOptics false s)) s) :=
  if_pos low

/-- A transition of an input ball is filtered and counted. -/
theorem execGpioInputTransition_input {i : Fin 16} {b : Bool} {s : State}
    (input : bit s.hif.gpioDir.toNat i = false) (change : bit s.hif.gpioIn.toNat i ≠ b) (held : Nat) :
    execGpioInputTransition i b s held = .next (deglitch 1 i (us 10) held (fun s =>
      countIsland 43 0x6000 1 { s with hif := { s.hif with
        gpioIn := BitVec.ofNat 16 (setBit s.hif.gpioIn.toNat i b) } }) s) := by
  refine if_neg ?_
  simp [input, change]

/-! ### Optics (R547, R576, R581) -/

section Optics

variable {ch : Fin 4} {s : State} (lane : (laneOf s (16 + ch)).state = .ready) (act : (actOf s ch).act ≠ .f0)
  (serves : servicesRun s = true)
include lane act serves

theorem opticRead_due :
    ((laneOf s (16 + ch)).state == .ready && (actOf s ch).act != .f0 && servicesRun s) = true := by
  simp [lane, act, serves]

/-- A read that brings no page is a failure. -/
theorem execOpticDiagRead_none : execOpticDiagRead ch none s = .next (opticFailure ch s) := by
  have due := opticRead_due lane act serves
  cases low : s.sup.vioLow <;> simp only [execOpticDiagRead, due, low, if_true, if_false, Bool.false_eq_true]

/-- While the optic bank is isolated every read is a failure. -/
theorem execOpticDiagRead_isolated (low : s.sup.vioLow = true) (b : Bytes) :
    execOpticDiagRead ch (some b) s = .next (opticFailure ch s) := by
  simp only [execOpticDiagRead, opticRead_due lane act serves, low, if_true]

/-- A page that a bank in service brings is recorded and kept. -/
theorem execOpticDiagRead_page (good : s.sup.vioLow = false) (b : Bytes) : execOpticDiagRead ch (some b) s
    = .next (amberRecord 0x0008 false (leBytes 1 ch ++ leBytes 1 0x51 ++ b) (setCount (ck 581 1 ch) 0
      { s with mnt := { s.mnt with optics := tset [] s.mnt.optics ch b } })) := by
  simp only [execOpticDiagRead, opticRead_due lane act serves, good, Bool.false_eq_true, if_false, if_true]

end Optics

/-! ### JTAG (R585) -/

theorem execJtagInstruction_honoured {i : JtagInstr} {s : State} (h : resetOnly i = false ∨ s.dev.pinLow = true) :
    execJtagInstruction i s = .next { s with mnt := { s.mnt with jtag := i } } := by
  refine if_neg ?_
  rcases h with always | asserted
  · simp [always]
  · simp [asserted]

/-- Outside RESET_N an instruction of the boundary cells is BYPASS, and counted. -/
theorem execJtagInstruction_bypass {i : JtagInstr} {s : State} (cells : resetOnly i = true)
    (released : s.dev.pinLow = false) : execJtagInstruction i s
      = .next (bump (ck 585 0 0) 1 { s with mnt := { s.mnt with jtag := .bypass } }) := by
  refine if_pos ?_
  simp [cells, released]

/-- Settles O57: each row under its occasion; a conversion by its readings and the sensors it leaves, a pin by the
time for which its level was held. -/
theorem alarmsAndFaultsAct : Obligations.AlarmsAndFaultsAct := by
  refine ⟨?alarm, ?erase, ?tamper, ?lockstep, ?watchdog, ?memory, ?reseed, ?reading, ?conversion, ?lowest, ?release,
    ?failed, ?txfault, ?vioLow, ?vioRestore, ?gpio, ?glitch, ?optic, ?jtag⟩
  case alarm => exact fun k s => rfl
  case erase => exact fun s erasing => execEraseDone_erasing erasing
  case tamper =>
    intro s
    refine ⟨rfl, fun few => ?_, fun many => ?_⟩
    · exact (execTamperCheck_mismatch s).trans (congrArg _ (if_neg (by omega)))
    · exact (execTamperCheck_mismatch s).trans (congrArg _ (if_pos (by omega)))
  case lockstep => exact fun s first => execLockstepMismatch_first first
  case watchdog => exact fun l s runs => if_pos runs
  case memory => exact fun s runs => if_pos runs
  case reseed => exact fun s after => if_pos after
  case reading => exact fun k t s => ⟨fun out => noteReading_out k out s, fun lo hi => noteReading_within k lo hi s⟩
  case conversion =>
    exact fun k d m s => ⟨execThermalConversion_holds rfl, execThermalConversion_stays rfl,
      execThermalConversion_ends rfl⟩
  case lowest => exact fun l s crossed => lowest_crossing crossed
  case release => exact fun s throttled cool => execThrottleRelease_cool throttled cool rfl
  case failed => exact fun k s working => execSensorFailed_first working rfl
  case txfault => exact fun ch b held s wide => congrArg _ (deglitch_of_le wide _ s)
  case vioLow =>
    exact fun held s good wide => (execVioOptLow_good good held).trans (congrArg _ (deglitch_of_le wide _ s))
  case vioRestore =>
    exact fun held s low wide => (execVioOptRestore_low low held).trans (congrArg _ (deglitch_of_le wide _ s))
  case gpio =>
    exact fun i b held s input change wide =>
      (execGpioInputTransition_input input change held).trans (congrArg _ (deglitch_of_le wide _ s))
  case glitch =>
    refine fun ch i b held s => ⟨fun narrow => congrArg _ (deglitch_of_lt narrow _ s), fun good narrow => ?_,
      fun low narrow => ?_, fun input change narrow => ?_⟩
    · exact (execVioOptLow_good good held).trans (congrArg _ (deglitch_of_lt narrow _ s))
    · exact (execVioOptRestore_low low held).trans (congrArg _ (deglitch_of_lt narrow _ s))
    · exact (execGpioInputTransition_input input change held).trans (congrArg _ (deglitch_of_lt narrow _ s))
  case optic =>
    exact fun ch s lane act serves => ⟨execOpticDiagRead_none lane act serves,
      fun b low => execOpticDiagRead_isolated lane act serves low b,
      fun b good => execOpticDiagRead_page lane act serves good b⟩
  case jtag => exact fun i s => ⟨execJtagInstruction_honoured, execJtagInstruction_bypass⟩

end Sys2Proof.Machine
end

section
/-! PROOFS. The fibre commands (O27). -/

namespace Sys2Proof.Machine

open Sys2Proof

/-! ### Settings (R94, R118, R455, R456) -/

/-- A bond whose joining channels are all accepted is set. -/
theorem cmdFibreSetBond_run (n : Nat) (a : Bytes) (t : State) (taken : joinRefused t (byteAt a 0) = none) :
    cmdFibreSetBond.run n a t = done (modBond (fun b => { b with
      working := chanOpt (byteAt a 1), standby := chanOpt (byteAt a 2) }) (setMembers (byteAt a 0) t)) := by
  simp only [cmdFibreSetBond, taken]

theorem cmdFibreSetGroups_run (n : Nat) (a : Bytes) (t : State) (idle : groupsBusy t a = false) :
    cmdFibreSetGroups.run n a t = done (setGroups a t) := by
  simp only [cmdFibreSetGroups, idle, Bool.false_eq_true, if_false]

/-- The port IDs answer with the result of every item, where no store overflows. -/
theorem cmdFibreSetPortId_run (n : Nat) {a r : Bytes} {t u : State}
    (fits : portItems (bit (le a 0 2) 15) a (List.range (fld (le a 0 2) 0 15)) [] t = some (r, u)) :
    cmdFibreSetPortId.run n a t = doneWith r u := by
  simp only [cmdFibreSetPortId, fits]

theorem cmdFibreSetUpstream_run (n : Nat) {a : Bytes} {t u : State}
    (fits : setUpstream (le a 0 2) (le a 2 2) (bit (byteAt a 4) 0) t = some u) :
    cmdFibreSetUpstream.run n a t = done u := by
  simp only [cmdFibreSetUpstream, fits]

/-- A list is set once every queue that it moves is empty. -/
theorem cmdFibreSetAllocQueues_run (n : Nat) (a : Bytes) (t : State)
    (empty : ∀ q ∈ queuesMoved t (le a 0 2) (listEntries a), queueHolds t q = false) :
    cmdFibreSetAllocQueues.run n a t = done (setList (le a 0 2) (listEntries a) t) := by
  refine if_neg ?_
  simpa using empty

/-! ### Counters (R97, R455) -/

theorem cmdFibreReadCounters_run_channel (n : Nat) (a : Bytes) (t : State) (channel : byteAt a 0 ≠ 4) :
    cmdFibreReadCounters.run n a t
      = doneWith ((channelKeys (byteAt a 0)).flatMap (fun k => leBytes 8 (t.count k))) t := by
  simp only [cmdFibreReadCounters, beq_eq_false_iff_ne.mpr channel, Bool.false_eq_true, if_false]

theorem cmdFibreReadCounters_run_group (n : Nat) (a : Bytes) (t : State) (group : byteAt a 0 = 4) :
    cmdFibreReadCounters.run n a t
      = doneWith (groupKeys.flatMap (fun k => leBytes 8 (t.count k))) (clearSkewHigh t) := by
  simp only [cmdFibreReadCounters, group, beq_self_eq_true, if_true]

/-- Settles O27: each command is its own run, under the conditions of its lemma where it has any. -/
theorem fibreCommandsComplete : Obligations.FibreCommandsComplete := by
  refine ⟨?channel, ?bond, ?groups, ?portId, ?upstream, ?allocQueues, ?heKey, ?policy, ?status, ?channelCounters,
    ?groupCounters⟩
  case channel => exact completes_of_run (fun _ _ => rfl) fun _ _ _ _ => rfl
  case bond => exact completes_of_run (fun _ _ => rfl) cmdFibreSetBond_run
  case groups => exact completes_of_run (fun _ _ => rfl) cmdFibreSetGroups_run
  case portId => exact fun r u => completes_of_run (fun _ _ => rfl) fun n _ _ fits => cmdFibreSetPortId_run n fits
  case upstream => exact fun u => completes_of_run (fun _ _ => rfl) fun n _ _ fits => cmdFibreSetUpstream_run n fits
  case allocQueues => exact completes_of_run (fun _ _ => rfl) cmdFibreSetAllocQueues_run
  case heKey => exact completes_of_run (fun _ _ => rfl) fun _ _ _ _ => rfl
  case policy => exact completes_of_run (fun _ _ => rfl) fun _ _ _ _ => rfl
  case status => exact completes_of_run (fun _ _ => rfl) fun _ _ _ _ => rfl
  case channelCounters => exact completes_of_run (fun _ _ => rfl) cmdFibreReadCounters_run_channel
  case groupCounters => exact completes_of_run (fun _ _ => rfl) cmdFibreReadCounters_run_group

end Sys2Proof.Machine
end

section
/-! PROOFS. Delineation, delivered frames, the windows and the bonding unit (O38, O39, O40). -/

namespace Sys2Proof.Machine

open Sys2Proof

/-! ### HUNT (R52) -/

/-- A match at an offset that no candidate has opens the first slot that is free. -/
theorem execHuntMatch_opens {ch : Fin 4} {off i : Nat} {w : Word64} {s : State} (stream : hasStream s ch = true)
    (hunt : (rxOf s ch).delin = .hunt) (hit : windowMatches w = true)
    (fresh : (rxOf s ch).slots.any (fun e => e.2 == some off) = false)
    (free : freeCandidate (rxOf s ch) = some i) :
    execHuntMatch ch off w s = .next (modRx ch (fun x => { x with slots := tset none x.slots i (some off) }) s) := by
  simp only [execHuntMatch, stream, hunt, hit, fresh, free, beq_self_eq_true, Bool.not_false, Bool.and_self, if_true]

section Candidate

variable {ch slot : Fin 4} {w w0 : Word64} {s : State} (hunt : (rxOf s ch).delin = .hunt)
  (candidate : (tget none (rxOf s ch).slots slot).isSome = true) (lit : dark s ch = false)
include hunt candidate lit

/-- A candidate whose window matches and whose word 0 is valid is confirmed: the search closes, and the next frame
is expected to carry the next counter value. -/
theorem execCandidateTest_confirmed {v : Nat} {t : State} (hit : windowMatches w = true)
    (valid : decideWord0 ch w0 s = (some v, t)) :
    execCandidateTest ch slot w w0 s = .next (modRx ch (fun x => { x with
      delin := .presync, slots := [], sfc := BitVec.ofNat 51 (v + 1) }) t) := by
  simp only [execCandidateTest, hunt, candidate, lit, hit, valid, beq_self_eq_true, Bool.not_false, Bool.and_self,
    if_true]

/-- A candidate whose window does not match frees its slot. -/
theorem execCandidateTest_missed (miss : windowMatches w = false) :
    execCandidateTest ch slot w w0 s
      = .next (modRx ch (fun x => { x with slots := tset none x.slots slot none }) s) := by
  simp only [execCandidateTest, hunt, candidate, lit, miss, beq_self_eq_true, Bool.not_false, Bool.and_self,
    Bool.false_eq_true, if_true, if_false]

end Candidate

/-! ### PRESYNC (R53) -/

section Presync

variable {ch : Fin 4} {w w0 : Word64} {s : State} (presync : (rxOf s ch).delin = .presync) (lit : dark s ch = false)
include presync lit

/-- The next start pattern with the next counter value brings SYNC. -/
theorem execPresyncTest_confirmed {e : Nat × Bool} (hit : windowMatches w = true)
    (valid : hecDecode w0.toNat = some e) (next : fld e.1 13 51 = (rxOf s ch).sfc.toNat) :
    execPresyncTest ch w w0 s = .next (enterSync ch s) := by
  simp only [execPresyncTest, presync, lit, hit, valid, next, Option.map_some, beq_self_eq_true, Bool.not_false,
    Bool.and_self, if_true]

theorem execPresyncTest_missed (miss : windowMatches w = false) :
    execPresyncTest ch w w0 s = .next (leaveSync ch s) := by
  simp only [execPresyncTest, presync, lit, miss, beq_self_eq_true, Bool.not_false, Bool.and_self, Bool.false_and,
    Bool.false_eq_true, if_true, if_false]

end Presync

/-! ### SYNC (R54) -/

/-- A channel in SYNC that is not dark takes its tests and its frames. -/
theorem not_idle_of_sync {ch : Fin 4} {s : State} (sync : (rxOf s ch).delin = .sync) (lit : dark s ch = false) :
    ¬ ((rxOf s ch).delin != .sync || dark s ch) = true := by
  simp [sync, lit]

section Sync

variable {ch : Fin 4} {w : Word64} {s : State} (sync : (rxOf s ch).delin = .sync) (lit : dark s ch = false)
include sync lit

/-- A match ends the run of misses. -/
theorem execSyncFrameTest_hit (hit : windowMatches w = true) :
    execSyncFrameTest ch w s = .next (modRx ch (fun x => { x with misses := 0 }) (passTrx ch s)) := by
  simp only [execSyncFrameTest, if_neg (not_idle_of_sync sync lit), hit, if_true]

/-- A miss is counted, and the third in a row leaves SYNC. -/
theorem execSyncFrameTest_missed (miss : windowMatches w = false) :
    let t := bump (ck 97 1 ch) 1 (modRx ch (fun x => { x with misses := x.misses + 1 }) (passTrx ch s))
    execSyncFrameTest ch w s
      = if 3 ≤ (rxOf s ch).misses + 1 then .next (endDoze ch (leaveSync ch t)) else .next t := by
  simp only [execSyncFrameTest, if_neg (not_idle_of_sync sync lit), miss, Bool.false_eq_true, if_false, ge_iff_le]

end Sync

/-- Settles O38: each test is its own lemma, in the state of delineation that the hypotheses describe. -/
theorem delineationMoves : Obligations.DelineationMoves := by
  refine ⟨?hunt, ?confirmed, ?missed, ?presync, ?presyncMissed, ?hit, ?syncMissed⟩
  case hunt => exact fun ch off i w s stream hunt hit fresh free => execHuntMatch_opens stream hunt hit fresh free
  case confirmed =>
    exact fun ch slot w w0 v s t hunt candidate hit valid lit =>
      execCandidateTest_confirmed hunt candidate lit hit valid
  case missed =>
    exact fun ch slot w w0 s hunt candidate miss lit => execCandidateTest_missed hunt candidate lit miss
  case presync =>
    exact fun ch w w0 e s presync hit valid next lit => execPresyncTest_confirmed presync lit hit valid next
  case presyncMissed => exact fun ch w w0 s presync miss lit => execPresyncTest_missed presync lit miss
  case hit => exact fun ch w s sync lit hit => execSyncFrameTest_hit sync lit hit
  case syncMissed =>
    exact fun ch w s sync lit miss =>
      ⟨fun few => (execSyncFrameTest_missed sync lit miss).trans (if_neg (Nat.not_le.mpr few)),
        fun third => (execSyncFrameTest_missed sync lit miss).trans (if_pos third)⟩

/-! ### Downstream frames (R55, R56, R90, R98, R157) -/

/-- What a frame delivered in SYNC leads to, once its counter is judged and its arrival noted: the doze skips it, or
it is taken apart and processed. -/
theorem execDownstreamFrame_sync {ch : Fin 4} {s : State} (sync : (rxOf s ch).delin = .sync)
    (lit : dark s ch = false) (f0 : RxFrame) :
    let f := { f0 with bytes := (laneOf s (16 + ch)).receive f0.bytes }
    let w := decideWord0 ch (BitVec.ofNat 64 (be f.bytes 8 8)) (beginFrame ch (endFrame ch s))
    let a := judgeCounter ch w.1 w.2
    let n := (rxOf a ch).sfc.toNat
    let b := noteArrival ch n (arrivalOf (rxOf a ch) f) a
    execDownstreamFrame ch f0 s = .next (modRx ch (fun x => { x with sfc := BitVec.ofNat 51 (n + 1) })
      (if dozedFrame b n then dropOpen ch 0x12 b else processFrame ch n (takeApart f n) b)) :=
  if_neg (not_idle_of_sync sync lit)

/-- In F0 no frame is taken (R132). -/
theorem execDownstreamFrame_dark {ch : Fin 4} {s : State} (unlit : dark s ch = true) (f : RxFrame) :
    execDownstreamFrame ch f s = .next s := by
  refine if_pos ?_
  rw [unlit, Bool.or_true]

/-! ### PFE frames (R63, R74 to R79) -/

section Pfe

variable {ch : Fin 4} {s : State} (inFrame : (rxOf s ch).inFrame = true) (left : 8 ≤ (rxOf s ch).regionLeft)
include inFrame left

/-- A region with room for a header is being parsed. -/
theorem region_open : (!(rxOf s ch).inFrame || decide ((rxOf s ch).regionLeft < 8)) = false := by
  simp [inFrame, left]

/-- A header over erased bytes ends the region. -/
theorem execPfeFrame_erased (erased : erasedIn (rxOf s ch).badWords (headerAt (rxOf s ch)) 8 = true) (u : Unit) :
    execPfeFrame ch u s = .next (abandonRegion ch s) := by
  rw [execPfeFrame, region_open inFrame left, if_neg Bool.false_ne_true, if_pos erased]

variable (clear : erasedIn (rxOf s ch).badWords (headerAt (rxOf s ch)) 8 = false)
include clear

/-- A header that does not decode is counted and ends the region. -/
theorem execPfeFrame_invalid (invalid : hecDecode (be (rxOf s ch).region 0 8) = none) (u : Unit) :
    execPfeFrame ch u s = .next (abandonRegion ch (bump (ck 97 16 ch) 1 s)) := by
  simp only [execPfeFrame, region_open inFrame left, clear, invalid, Bool.false_eq_true, if_false]

variable {w : Nat} (valid : hecDecode (be (rxOf s ch).region 0 8) = some (w, false)) (reserved : fld w 13 17 = 0)
  (fits : pfeSize ((rxOf s ch).frameLabel == 0x11) w ≤ (rxOf s ch).regionLeft)
include valid reserved fits

/-- A frame that lies within its region is skipped where it is idle, and else taken up. -/
theorem execPfeFrame_fits (u : Unit) :
    let size := pfeSize ((rxOf s ch).frameLabel == 0x11) w
    execPfeFrame ch u s = if pfeIdle w then .next (consume ch size (bump (ck 97 20 ch) (pfeLen w) s))
      else .next (consume ch size (takePfe ch w (pfeUnit (rxOf s ch) w)
        (crossLink (linkNo 0 ch) (entriesFor .packet size) s))) := by
  simp only [execPfeFrame, region_open inFrame left, clear, valid, reserved, gt_iff_lt, Nat.not_lt.mpr fits, ne_eq,
    not_true_eq_false, Bool.false_eq_true, if_false]

end Pfe

/-- Settles O39: a downstream frame by cases on whether the doze skips it, a PFE frame by what its header says. -/
theorem framesAreDelivered : Obligations.FramesAreDelivered := by
  refine ⟨?frame, ?unlit, ?pfe, ?abandoned⟩
  case frame =>
    intro ch f0 s sync lit
    have delivered := execDownstreamFrame_sync sync lit f0
    refine ⟨fun dozed => delivered.trans ?_, fun awake => delivered.trans ?_⟩
    · simp only [dozed, if_true]
    · simp only [awake, Bool.false_eq_true, if_false]
  case unlit => exact fun ch f s unlit => execDownstreamFrame_dark unlit f
  case pfe =>
    intro ch w s inFrame left clear valid reserved fits
    have taken := execPfeFrame_fits inFrame left clear valid reserved fits ()
    exact ⟨fun idle => taken.trans (if_pos idle), fun busy => taken.trans (if_neg (Bool.eq_false_iff.mp busy))⟩
  case abandoned =>
    exact fun ch s inFrame left => ⟨fun erased => execPfeFrame_erased inFrame left erased (),
      fun clear invalid => execPfeFrame_invalid inFrame left clear invalid ()⟩

/-! ### Windows (R95) -/

/-- The end of a 1 ms window in SYNC extends a run, and a run that is long enough decides. -/
theorem execSignalFailWindow_sync {ch : Fin 4} {s : State} (sync : (rxOf s ch).delin = .sync) :
    let x := rxOf s ch
    let n := runOf x.winBad x.sfBad x.sfRun
    let t := modRx ch (fun x => { x with sfBad := x.winBad, sfRun := n, winBad := false }) s
    execSignalFailWindow ch s = if x.winBad = true ∧ 3 ≤ n then .next (setDefect ch 6 true t)
      else if x.winBad = false ∧ 10 ≤ n then .next (setDefect ch 6 false t) else .next t := by
  simp only [execSignalFailWindow, sync, bne_self_eq_false, Bool.false_eq_true, if_false, Bool.and_eq_true,
    Bool.not_eq_true', decide_eq_true_iff, ge_iff_le]

/-- Outside SYNC no window is delivered, and both runs are broken. -/
theorem execSignalFailWindow_lost {ch : Fin 4} {s : State} (lost : (rxOf s ch).delin ≠ .sync) :
    execSignalFailWindow ch s = .next (modRx ch (fun x => { x with winBad := false, sfRun := 0 }) s) := by
  refine if_pos ?_
  simpa using lost

section Degrade

variable {ch : Fin 4} {s : State}

/-- Corrected bits above 10^-n of the received bits raise signal degrade. -/
theorem execSignalDegradeWindow_above
    (above : (rxOf s ch).winRx < (rxOf s ch).winBits * 10 ^ s.fib.policy.degradeExp) :
    execSignalDegradeWindow ch s
      = .next (setDefect ch 5 true (modRx ch (fun x => { x with winBits := 0, winRx := 0 }) s)) :=
  if_pos above

/-- Corrected bits below a tenth of that clear it. -/
theorem execSignalDegradeWindow_below
    (below : (rxOf s ch).winBits * 10 ^ (s.fib.policy.degradeExp + 1) < (rxOf s ch).winRx) :
    execSignalDegradeWindow ch s
      = .next (setDefect ch 5 false (modRx ch (fun x => { x with winBits := 0, winRx := 0 }) s)) := by
  have tenth : (rxOf s ch).winBits * 10 ^ s.fib.policy.degradeExp
      ≤ (rxOf s ch).winBits * 10 ^ (s.fib.policy.degradeExp + 1) :=
    Nat.mul_le_mul_left _ (Nat.pow_le_pow_right (by decide) (Nat.le_succ _))
  exact (if_neg (Nat.not_lt.mpr (Nat.le_of_lt (Nat.lt_of_le_of_lt tenth below)))).trans (if_pos below)

/-- Between the two bounds the defect stays as it is. -/
theorem execSignalDegradeWindow_between
    (low : (rxOf s ch).winBits * 10 ^ s.fib.policy.degradeExp ≤ (rxOf s ch).winRx)
    (high : (rxOf s ch).winRx ≤ (rxOf s ch).winBits * 10 ^ (s.fib.policy.degradeExp + 1)) :
    execSignalDegradeWindow ch s = .next (modRx ch (fun x => { x with winBits := 0, winRx := 0 }) s) :=
  (if_neg (Nat.not_lt.mpr low)).trans (if_neg (Nat.not_lt.mpr high))

end Degrade

/-! ### The bonding unit (R91, R94) -/

theorem execBondWaitExpiry_started {s : State} (started : s.fib.bond.started = true) :
    execBondWaitExpiry s = .next (bondRelease (passSince (firstFloorTime s) (us 250) s)) :=
  if_pos started

/-- A channel that left the bond gives its reservation back once its store is empty. -/
theorem execBondReservationFree_empty {ch : Fin 4} {s : State} (holds : 0 < (rxOf s ch).reserved)
    (removed : bit s.fib.bond.members.toNat ch = false) (empty : (rxOf s ch).store = []) :
    execBondReservationFree ch s = .next (modRx ch (fun x => { x with reserved := 0 })
      { s with tm := { s.tm with free := s.tm.free + (rxOf s ch).reserved } }) := by
  refine if_pos ?_
  simp [holds, removed, empty]

/-- Settles O40: a window by cases on its run or its ratio, the bond under the conditions of its lemmas. -/
theorem windowsAndBondAct : Obligations.WindowsAndBondAct := by
  refine ⟨?fail, ?lost, ?degrade, ?wait, ?free⟩
  case fail =>
    intro ch s sync
    have ends := execSignalFailWindow_sync sync
    refine ⟨fun bad run => ends.trans (if_pos ⟨bad, run⟩), fun good run => ends.trans ?_,
      fun short => ends.trans ?_⟩
    · rw [if_neg (by grind), if_pos ⟨good, run⟩]
    · rw [if_neg (by grind), if_neg (by grind)]
  case lost => exact fun ch s lost => execSignalFailWindow_lost lost
  case degrade =>
    exact fun ch s => ⟨execSignalDegradeWindow_above, execSignalDegradeWindow_below,
      execSignalDegradeWindow_between⟩
  case wait => exact fun s started => execBondWaitExpiry_started started
  case free => exact fun ch s holds removed empty => execBondReservationFree_empty holds removed empty

end Sys2Proof.Machine
end

section
/-! PROOFS. The serial lanes (O54). -/

namespace Sys2Proof.Machine

open Sys2Proof

/-! ### Detectors (R384 to R387) -/

section Detectors

variable {l : Fin 21} {d : Detector} {b : Bool} {g : Option LaneSeen} {s : State}

/-- A detector of an armed lane acts on a measurement that calls for it, unless it is a masked LOS. -/
theorem execLaneDetector_acts (ready : armed (laneOf s l) = true) (called : bears (laneOf s l) d b g = true)
    (unmasked : b = false ∨ d ≠ .los ∨ losMaskedNow s (laneOf s l) = false) :
    execLaneDetector l d b s g = .next (setDetector l d b s) := by
  refine if_neg ?_
  rcases unmasked with rfl | other | shown
  · simp [ready, called]
  · simp [ready, called, other]
  · simp [ready, called, shown]

theorem execLaneDetector_idle (idle : armed (laneOf s l) = false ∨ bears (laneOf s l) d b g = false) :
    execLaneDetector l d b s g = .next s := by
  refine if_pos ?_
  rcases idle with unarmed | uncalled
  · simp [unarmed]
  · simp [uncalled]

/-! ### Energy (R388, R391) -/

/-- A report during an entry is held. -/
theorem execEnergyDetect_entering (stirred : stirs l (laneOf s l) g = true)
    (entering : (laneOf s l).entering = true) :
    execEnergyDetect l s g = .next (modLane l (fun x => { x with energyHeld := true }) s) := by
  simp only [execEnergyDetect, stirred, entering, Bool.not_true, Bool.false_eq_true, if_false, if_true]

/-- A report in DEEP acts. -/
theorem execEnergyDetect_deep (stirred : stirs l (laneOf s l) g = true)
    (settled : (laneOf s l).entering = false) (deep : (laneOf s l).state = .deep) :
    execEnergyDetect l s g = .next (reportEnergy l s) := by
  simp only [execEnergyDetect, stirred, settled, deep, beq_self_eq_true, Bool.not_true, Bool.false_eq_true, if_false,
    if_true]

theorem execEnergyDetect_still (still : stirs l (laneOf s l) g = false) : execEnergyDetect l s g = .next s := by
  simp only [execEnergyDetect, still, Bool.not_false, if_true]

end Detectors

/-! ### Transitions (R389 to R391) -/

/-- An entry that no exit order waits for ends in DEEP. -/
theorem execLaneDeepEntryDone_stays {l : Fin 21} {s : State} (entering : (laneOf s l).entering = true)
    (noExit : (laneOf s l).order ≠ some true) :
    execLaneDeepEntryDone l s = .next (releaseEnergy l (syncHoldover l (enterDeep l s))) := by
  simp only [execLaneDeepEntryDone, entering, beq_eq_false_iff_ne.mpr noExit, Bool.not_true, Bool.false_and,
    Bool.false_eq_true, if_false]

section Ready

variable {l : Fin 21} {s : State} (exiting : (laneOf s l).state = .exiting) (n : Nat)
include exiting

theorem execLaneReady_signal : execLaneReady l true n s = .next (if isFibreLane l
    then noteSync (l - 16) (becomeReady l true n s) else becomeReady l true n s) := by
  simp only [execLaneReady, exiting, bne_self_eq_false, Bool.false_eq_true, if_false, if_true]

/-- Without a signal, LOS is raised 2 µs after arming. -/
theorem execLaneReady_silent (stays : (laneOf (becomeReady l false n s) l).entering = false) :
    execLaneReady l false n s = .next (setDetector l .los true
      (passTo ((becomeReady l false n s).now + us 2) (becomeReady l false n s))) := by
  simp only [execLaneReady, exiting, stays, bne_self_eq_false, Bool.false_eq_true, if_false]

end Ready

/-! ### Checkers (R393) -/

/-- The state in which a checker's lock has changed and its counts begin anew. -/
def lockChanged (l : Nat) (locked : Bool) (s : State) : State :=
  modLane l (fun x => { x with
    checkLock := locked, checkedTo := s.now, injectsSeen := s.count (ck 398 21 l) }) (settleInject l s)

/-- The state in which a checker has lost its lock and counted what it compared. -/
def lockLost (l bits bitErrors symErrors : Nat) (s : State) : State :=
  let t := bump (ck 398 18 l) bitErrors (bump (ck 398 17 l) bits (lockChanged l false s))
  bump (ck 398 20 l) 1 (if isPam4 s l then bump (ck 398 19 l) symErrors t else t)

section Checker

variable {l : Fin 21} {bits bitErrors : Nat} {s : State}

/-- A checker of a READY lane can change its lock to the other value. -/
theorem checker_changes {locked : Bool} (on : (laneOf s l).checker ≠ 0) (other : (laneOf s l).checkLock = !locked)
    (ready : (laneOf s l).state = .ready) :
    ¬ ((laneOf s l).checker = 0 ∨ (laneOf s l).checkLock = locked ∨ (laneOf s l).state ≠ .ready) := by
  rintro (off | same | busy)
  · exact on off
  · exact (Bool.not_eq_self locked).mp (other.symm.trans same)
  · exact busy ready

/-- A checker locks after 64 bits without an error. -/
theorem execCheckerLockChange_locks (on : (laneOf s l).checker ≠ 0) (unlocked : (laneOf s l).checkLock = false)
    (ready : (laneOf s l).state = .ready) (enough : 64 ≤ bits) (symErrors : Nat) :
    execCheckerLockChange l true bits 0 symErrors s = .next (lockChanged l true s) := by
  simp only [execCheckerLockChange, lockChanged, if_neg (checker_changes (locked := true) on unlocked ready),
    Nat.not_lt.mpr enough, decide_false, bne_self_eq_false, Bool.or_self, Bool.and_false, Bool.not_true,
    Bool.false_and, Bool.false_eq_true, if_false, if_true]

/-- Fewer bits, or bits with an error, bring no lock. -/
theorem execCheckerLockChange_unlocked (short : bits < 64 ∨ bitErrors ≠ 0) (symErrors : Nat) :
    execCheckerLockChange l true bits bitErrors symErrors s = .next s := by
  simp only [execCheckerLockChange]
  split
  · rfl
  · exact if_pos (by simpa using short)

/-- Fewer than 32 bit errors lose no lock. -/
theorem execCheckerLockChange_keeps (few : bitErrors < 32) (symErrors : Nat) :
    execCheckerLockChange l false bits bitErrors symErrors s = .next s := by
  simp only [execCheckerLockChange, Bool.false_and, Bool.false_eq_true, if_false]
  split
  · rfl
  · exact if_pos (by simpa using few)

/-- From 32 bit errors on the lock is lost. -/
theorem execCheckerLockChange_loses (on : (laneOf s l).checker ≠ 0) (locked : (laneOf s l).checkLock = true)
    (ready : (laneOf s l).state = .ready) (many : 32 ≤ bitErrors) (symErrors : Nat) :
    execCheckerLockChange l false bits bitErrors symErrors s = .next (lockLost l bits bitErrors symErrors s) := by
  simp only [execCheckerLockChange, lockLost, lockChanged, if_neg (checker_changes (locked := false) on locked ready),
    Nat.not_lt.mpr many, decide_false, Bool.and_false, Bool.false_and, Bool.false_eq_true, if_false]

end Checker

theorem laneOf_bump (k n : Nat) (s : State) (m : Nat) : laneOf (bump k n s) m = laneOf s m := rfl

/-- Settling an injection moves its own counter only. -/
theorem count_settleInject {k l : Nat} (other : k ≠ ck 398 21 l) (s : State) :
    (settleInject l s).count k = s.count k := by
  simp only [settleInject]
  split
  · rw [count_bump, if_neg other]
    rfl
  · rfl

theorem laneOf_settleInject_other {m l : Nat} (other : m ≠ l) (s : State) :
    laneOf (settleInject l s) m = laneOf s m := by
  simp only [settleInject]
  split
  · rw [laneOf_bump, laneOf_modLane, if_neg other]
  · rfl

theorem laneOf_lockLost (l bits bitErrors symErrors : Nat) (s : State) (m : Nat) :
    laneOf (lockLost l bits bitErrors symErrors s) m = laneOf (lockChanged l false s) m := by
  simp only [lockLost, laneOf_bump]
  split <;> rfl

theorem laneOf_lockLost_other {m l : Nat} (other : m ≠ l) (bits bitErrors symErrors : Nat) (s : State) :
    laneOf (lockLost l bits bitErrors symErrors s) m = laneOf s m := by
  rw [laneOf_lockLost, lockChanged, laneOf_modLane, if_neg other, laneOf_settleInject_other other]

theorem checkLock_lockLost (l bits bitErrors symErrors : Nat) (s : State) :
    (laneOf (lockLost l bits bitErrors symErrors s) l).checkLock = false := by
  rw [laneOf_lockLost, lockChanged, laneOf_modLane, if_pos rfl]

/-- The rows of R398 count apart. -/
theorem count_bump_row {i j l : Nat} (hi : i < 256) (hj : j < 256) (unit : l < 21) (n : Nat) (s : State) :
    (bump (ck 398 j l) n s).count (ck 398 i l) = s.count (ck 398 i l) + if i = j then n else 0 := by
  rw [count_bump]
  by_cases row : i = j
  · rw [if_pos row, row, if_pos rfl]
  · rw [if_neg row, if_neg fun same => row (ck_inj hi hj (by omega) (by omega) same).2.1, Nat.add_zero]

/-- What a loss of lock adds to each row of R398 but that of the injections, which settling moves. -/
theorem count_lockLost {i l : Nat} (hi : i < 256) (row : i ≠ 21) (unit : l < 21) (bits bitErrors symErrors : Nat)
    (s : State) : (lockLost l bits bitErrors symErrors s).count (ck 398 i l)
      = s.count (ck 398 i l) + (if i = 17 then bits else 0) + (if i = 18 then bitErrors else 0)
        + (if isPam4 s l then if i = 19 then symErrors else 0 else 0) + (if i = 20 then 1 else 0) := by
  have injections : ck 398 i l ≠ ck 398 21 l :=
    fun same => row (ck_inj hi (by decide) (by omega) (by omega) same).2.1
  have settled : (lockChanged l false s).count (ck 398 i l) = s.count (ck 398 i l) :=
    count_settleInject injections s
  simp only [lockLost]
  split
  · simp only [count_bump_row hi _ unit, settled, Nat.reduceLT]
  · simp only [count_bump_row hi _ unit, settled, Nat.reduceLT, Nat.add_zero]

/-- Settles O54: each report under its occasion, and a lost lock by what it counts. -/
theorem lanesReport : Obligations.LanesReport := by
  refine ⟨?acts, ?idle, ?called, ?entering, ?deep, ?still, ?entered, ?signal, ?silent, ?locks, ?unlocked, ?keeps,
    ?loses⟩
  case acts => exact fun l d b g s ready called unmasked => execLaneDetector_acts ready called unmasked
  case idle => exact fun l b d g s idle => execLaneDetector_idle idle
  case called => exact fun x d b u t => ⟨rfl, rfl, rfl⟩
  case entering => exact fun l g s stirred entering => execEnergyDetect_entering stirred entering
  case deep => exact fun l g s stirred settled deep => execEnergyDetect_deep stirred settled deep
  case still => exact fun l g s still => execEnergyDetect_still still
  case entered => exact fun l s entering noExit => execLaneDeepEntryDone_stays entering noExit
  case signal => exact fun l n s exiting => execLaneReady_signal exiting n
  case silent => exact fun l n s exiting stays => execLaneReady_silent exiting n stays
  case locks => exact fun l b se s on unlocked ready enough => execCheckerLockChange_locks on unlocked ready enough se
  case unlocked => exact fun l b be_ se s short => execCheckerLockChange_unlocked short se
  case keeps => exact fun l b be_ se s few => execCheckerLockChange_keeps few se
  case loses =>
    intro l b be_ se s on locked ready many
    refine ⟨_, execCheckerLockChange_loses on locked ready many se, checkLock_lockLost .., ?bits, ?errors, ?losses,
      fun m other => laneOf_lockLost_other (Fin.val_ne_of_ne other) ..⟩
    case bits => simp [count_lockLost]
    case errors => simp [count_lockLost]
    case losses => simp [count_lockLost]

end Sys2Proof.Machine
end

section
/-! PROOFS. Staging, commitment and launch of upstream bursts (O43). -/

namespace Sys2Proof.Machine

open Sys2Proof

/-! ### Staging (R119, R120) -/

/-- The head that an open allocation's list yields leaves its queue, is stamped and charged, and is staged. -/
theorem execStagingAdmit_stages {i : Nat} {a : Alloc} {k : Picked} {e : ListEntry} {c : Copy} {s s1 : State}
    (found : allocOf s i = some a) (isOpen : stagingOpen s a = true)
    (late : forEach (a.list.map (fun e => 128 + e.queue)) dropLate s = s1)
    (picked : pickEntry s1 a = some k) (entry : a.list[k.pos]? = some e)
    (head : stagingHead s1 a k.pos = some c) :
    execStagingAdmit i s = .next (
      let q := 128 + e.queue
      let s2 := modAlloc i (fun a => { a with turn := k.turn, deficits := k.deficits })
        (leaveQueue q c (popQueue q s1))
      stage i e.queue c.pkt (chargeShapers q
        (c.pkt.frame.length + 16 * b2n (tget {} s.up.queues e.queue).keyed)
        (stampAt c.pkt 7 9 q (returnCells c s2)))) := by
  simp only [execStagingAdmit, found, isOpen, late, picked, entry, head, Bool.not_true, Bool.false_eq_true, if_false]

/-! ### Commitment (R121, R123) -/

theorem execSectionCommit_commits {ch : Fin 4} {s : State} (waits : (nextCommit s ch).isSome = true) :
    execSectionCommit ch s = .next (commitInOrder ch (waitingGrants s) s) :=
  congrArg _ (if_pos waits)

section Order

variable {ch c due : Nat} {s : State} (n : Nat)

/-- A channel whose commit comes first commits that section and no other. -/
theorem commitInOrder_own (first : firstCommit s = some (ch, due)) :
    commitInOrder ch (n + 1) s = commitOne ch s := by
  simp only [commitInOrder, first, if_true]

/-- A commit of another channel that comes first precedes the channel's own. -/
theorem commitInOrder_other (first : firstCommit s = some (c, due)) (other : c ≠ ch) :
    commitInOrder ch (n + 1) s = commitInOrder ch n (commitOne c s) := by
  simp only [commitInOrder, first, if_neg other]

end Order

/-! ### Launch and end (R127, R129) -/

section Burst

variable {ch : Fin 4} {b : Burst} {s : State}

theorem execBurstLaunch_launches (next : nextLaunch s ch = some b) :
    execBurstLaunch ch s = .next (launchBurst ch b s) := by
  simp only [execBurstLaunch, next]

/-- A burst ends at its last bit, once the frames it completes are stamped. -/
theorem execBurstEnd_ends (next : nextEnd s ch = some b) :
    execBurstEnd ch s = .next (endBurst ch b
      ((b.sections.flatMap (·.frames)).foldl (fun s p => stampAt p 9 (4 + ch.val) ch s)
        (passTo (bitsPs b.endBit) s))) := by
  simp only [execBurstEnd, next]

end Burst

/-- Settles O43: each row under its occasion, and the order of commits by whose commit comes first. -/
theorem upstreamMoves : Obligations.UpstreamMoves := by
  refine ⟨?staging, ?commit, ?own, ?other, ?launch, ?ends⟩
  case staging =>
    exact fun i a k e c s found isOpen picked entry head =>
      execStagingAdmit_stages found isOpen rfl picked entry head
  case commit => exact fun ch s waits => execSectionCommit_commits waits
  case own => exact fun ch n due s first => commitInOrder_own n first
  case other => exact fun ch c n due s first other => commitInOrder_other n first other
  case launch => exact fun ch b s next => execBurstLaunch_launches next
  case ends => exact fun ch b s next => execBurstEnd_ends next

end Sys2Proof.Machine
end

section
/-! PROOFS. Station messages (O41). -/

namespace Sys2Proof.Machine

open Sys2Proof

/-! ### The next message (R137, R139, R140, R142, R143) -/

/-- The next message is judged where none before it still waits for its effect and the device acts on messages. -/
theorem execStationMessage_judges {m : RxMsg} {l : List RxMsg} {s : State} (next : s.fib.rxMsgs = m :: l)
    (settled : s.fib.accepted = none) (acts : actsRun s = true) :
    execStationMessage s = .next (judgeMessage m (recordMessage m (checkMic m
      (bump (ck 166 0 m.ch) 1 { s with fib := { s.fib with rxMsgs := l } })))) := by
  simp only [execStationMessage, next, settled, acts, Option.isSome_none, Bool.not_true, Bool.or_self,
    Bool.false_eq_true, if_false]

/-! ### The effect of an accepted message (R133, R136, R143 to R158) -/

section Effect

variable {m : RxMsg} {s : State} (waits : s.fib.accepted = some m)
include waits

/-- An accepted message of the type has its effect, on a state in which it waits no longer. -/
theorem onAccepted_of_typ {typ : Nat} (kind : m.typ = typ) (f : RxMsg → State → State) :
    onAccepted typ f s = f m { s with fib := { s.fib with accepted := none } } := by
  simp only [onAccepted, waits, kind, if_true]

/-- A row that carries out the messages of one type completes with the effect of the accepted message. -/
theorem completes_of_accepted {typ : Nat} (f : RxMsg → State → State) (kind : m.typ = typ) :
    (.next (onAccepted typ f s) : Answer) = .next (f m { s with fib := { s.fib with accepted := none } }) :=
  congrArg _ (onAccepted_of_typ waits kind f)

end Effect

/-- Settles O41: a message is judged under the conditions of its lemma, and each row that carries an effect out is
`onAccepted` of its own type. -/
theorem stationMessagesTakeEffect : Obligations.StationMessagesTakeEffect := by
  refine ⟨?judged, ?effects⟩
  case judged => exact fun m l s next settled acts => execStationMessage_judges next settled acts
  case effects =>
    intro m s waits
    have effect {typ : Nat} := completes_of_accepted waits (typ := typ)
    exact ⟨effect applyProfile, effect applyParams, effect applyAssign, effect applyRanging, effect applyDeactivate,
      effect applySilence, effect applyAllocation, effect applyHeKey, effect applyKeySwitch, effect applyDozeReply,
      effect applyDozeEnd⟩

end Sys2Proof.Machine
end

section
/-! PROOFS. The parse and rule commands (O28). -/

namespace Sys2Proof.Machine

open Sys2Proof

/-! ### Comparators and tags (R183, R186, R191, R192) -/

/-- A comparator that no rule in use references takes its descriptor. -/
theorem cmdRulesSetComparator_run (n : Nat) (a : Bytes) (t : State) (unused : comparatorUsed t (byteAt a 0) = false) :
    cmdRulesSetComparator.run n a t = done (rewriteItem 5 (item 1 (byteAt a 0)) { t with cls := { t.cls with
      comparators := tset 0 t.cls.comparators (byteAt a 0) (BitVec.ofNat 64 (le a 8 8)) } }) := by
  simp only [cmdRulesSetComparator, unused, Bool.false_eq_true, if_false]

theorem cmdRulesBegin_run (n : Nat) (a : Bytes) (t : State) (unstaged : tagIn t .staged = none) :
    cmdRulesBegin.run n a t = doneWith (leBytes 1 (nextTag t)) (mapVersions (fun r =>
      if r.versions.getLsbD (currentTag t) then withTag (nextTag t) true r else r.versions)
      (setTag (nextTag t) .staged t)) := by
  simp only [cmdRulesBegin, unstaged, Option.isSome_none, Bool.false_eq_true, if_false]

section Staged

variable {k : Nat} {a : Bytes} {t : State} (n : Nat) (staged : tagIn t .staged = some k)
include staged

theorem cmdRulesAbort_run : cmdRulesAbort.run n a t = done (mapVersions (withTag k false) (setTag k .free t)) := by
  simp only [cmdRulesAbort, staged]

/-- The staged version becomes current where no version drains. -/
theorem cmdRulesCommit_run (settled : tagIn t .draining = none) :
    cmdRulesCommit.run n a t = doneWith (leBytes 1 k ++ leBytes 1 (currentTag t))
      (setTag (currentTag t) .draining (setTag k .current t)) := by
  simp only [cmdRulesCommit, staged, settled, Option.isSome_none, Bool.false_eq_true, if_false]

/-! ### Rules (R187, R191, R458) -/

/-- New rules enter free entries of the store where each has a PRIORITY of its own. -/
theorem cmdRulesAdd_run {l : List Rule}
    (rules : (List.range (byteAt a 0)).map (fun i => ruleFrom a (8 + 176 * i) k) = l)
    (fresh : usedPriority t k [] l 0 = none) (room : l.length ≤ (freeRules t l.length).length) :
    cmdRulesAdd.run n a t = done (((freeRules t l.length).zip l).foldl
      (fun s e => setRule e.1 (some e.2) (beginStream (ruleStream e.1) s)) t) := by
  simp only [cmdRulesAdd, staged, rules, fresh, if_neg (Nat.not_lt.mpr room)]

/-- The rule of the staged version that has the PRIORITY leaves that version. -/
theorem cmdRulesRemove_run {i : Nat} (found : (ruleOf t k (le a 0 2)).map (·.1) = some i) :
    cmdRulesRemove.run n a t = done (mapVersions (fun r => r.versions) (setRule i
      ((tget none t.cls.rules i).map (fun r => { r with versions := withTag k false r })) t)) := by
  obtain ⟨e, rule, rfl⟩ := Option.map_eq_some_iff.mp found
  simp only [cmdRulesRemove, staged, Option.bind_some, rule, Option.map_some]

end Staged

theorem cmdRulesRead_run (n : Nat) {a : Bytes} {t : State} {i : Nat} {r : Rule}
    (found : ruleOf t (byteAt a 2) (le a 0 2) = some (i, r)) :
    cmdRulesRead.run n a t = doneWith (leBytes 8 r.control.toNat ++ leBytes 8 r.action.toNat
      ++ leBytes 8 r.pkts.toNat ++ leBytes 8 r.bytes.toNat
      ++ (List.range 8).map (fun k => BitVec.ofNat 8 (tagState t k).code)) t := by
  simp only [cmdRulesRead, found]

/-- Settles O28: the parse commands run without a condition, the rule commands under those of their lemmas. -/
theorem parseAndRuleCommandsComplete : Obligations.ParseAndRuleCommandsComplete := by
  refine ⟨?load, ?install, ?comparator, ?begin, ?add, ?remove, ?abort, ?commit, ?read⟩
  case load => exact completes_of_run (fun _ _ => rfl) fun _ _ _ _ => rfl
  case install => exact completes_of_run (fun _ _ => rfl) fun _ _ _ _ => rfl
  case comparator => exact completes_of_run (fun _ _ => rfl) cmdRulesSetComparator_run
  case begin => exact completes_of_run (fun _ _ => rfl) cmdRulesBegin_run
  case add =>
    exact fun k => completes_of_run (fun _ _ => rfl) fun n _ _ ⟨staged, fresh, room⟩ =>
      cmdRulesAdd_run n staged rfl fresh room
  case remove =>
    exact fun k i => completes_of_run (fun _ _ => rfl) fun n _ _ ⟨staged, found⟩ => cmdRulesRemove_run n staged found
  case abort => exact fun k => completes_of_run (fun _ _ => rfl) fun n _ _ staged => cmdRulesAbort_run n staged
  case commit =>
    exact fun k => completes_of_run (fun _ _ => rfl) fun n _ _ ⟨staged, settled⟩ =>
      cmdRulesCommit_run n staged settled
  case read => exact fun i r => completes_of_run (fun _ _ => rfl) fun n _ _ found => cmdRulesRead_run n found

end Sys2Proof.Machine
end

section
/-! PROOFS. The observability commands (O36). -/

namespace Sys2Proof.Machine

open Sys2Proof

/-- Settles O36: none of the nine commands has a condition of its own (R469), so each completes as its own run. -/
theorem observabilityCommandsComplete : Obligations.ObservabilityCommandsComplete := by
  refine ⟨?counter, ?group, ?sampling, ?trap, ?drops, ?ecc, ?audit, ?dump, ?ipfix⟩ <;>
    exact completes_of_run (fun _ _ => rfl) fun _ _ _ _ => rfl

end Sys2Proof.Machine
end

section
/-! PROOFS. The engines over the tables (O45). -/

namespace Sys2Proof.Machine

open Sys2Proof

/-! ### Retirement (R194) -/

/-- A draining version retires once no packet of either slice holds it. -/
theorem execRulesRetire_drained {k : Nat} {s : State} (draining : tagIn s .draining = some k)
    (slice0 : tget 0 s.cls.refs k = 0) (slice1 : tget 0 s.cls.refs (8 + k) = 0) :
    execRulesRetire s = .next (
      let freed := s.cls.rules.countP (fun e => match e.2 with
        | some r => withTag k false r == 0
        | none => false)
      raise 0x0301 false k (leBytes 4 freed) (mapVersions (withTag k false) (setTag k .free (endRules k s)))) := by
  rw [execRulesRetire, draining]
  exact if_pos ⟨slice0, slice1⟩

/-! ### Aging (R221) -/

theorem execAgingVisit_skips {w : Fin 4} {i : Nat} {s : State}
    (nothing : servicesRun s = false ∨ 131072 ≤ i ∨ emAt s (w.val * 131072 + i) = none) :
    execAgingVisit w i s = .next s := by
  by_cases skipped : (!servicesRun s || decide (i ≥ 131072)) = true
  · exact if_pos skipped
  · have free : emAt s (w.val * 131072 + i) = none := by
      rcases nothing with halted | beyond | free
      · simp [halted] at skipped
      · simp [beyond] at skipped
      · exact free
    simp only [execAgingVisit, if_neg skipped, free]

/-- What a visit comes to: a static entry stays, any other one ages out at 0 and is counted down above. -/
theorem execAgingVisit_entry {w : Fin 4} {i : Nat} {e : EmEntry} {s t : State} (runs : servicesRun s = true)
    (inside : i < 131072) (held : emAt s (w.val * 131072 + i) = some e)
    (later : passSince e.visited (ms (1000 * s.tab.agingS)) s = t) :
    execAgingVisit w i s = if e.static then .next t
      else if e.age = 0 then .next (ageOut (w.val * 131072 + i) e t)
      else .next (setEm (w.val * 131072 + i) (some { e with age := e.age - 1, visited := some t.now }) t) := by
  simp only [execAgingVisit, runs, ge_iff_le, Nat.not_le.mpr inside, held, later, Bool.not_true, decide_false,
    Bool.or_self, Bool.false_eq_true, if_false]

/-! ### The learn engine (R216, R223, R224) -/

section Learn

variable {c : Candidate} {l : List Candidate} {s t u : State}

section Pending

variable (next : s.tab.pending = c :: l) (taken : { s with tab := { s.tab with pending := l } } = u)
include next taken

theorem execLearnCandidate_settles (settled : settleCandidate c u = some t) : execLearnCandidate s = .next t := by
  simp only [execLearnCandidate, next, taken, settled]

theorem execLearnCandidate_writes (unsettled : settleCandidate c u = none) (written : writeLearned c false u = some t) :
    execLearnCandidate s = .next t := by
  simp only [execLearnCandidate, next, taken, unsettled, written]

/-- A candidate that finds no free position is passed to Knarrasar. -/
theorem execLearnCandidate_passes (unsettled : settleCandidate c u = none) (full : writeLearned c false u = none) :
    execLearnCandidate s = .next (passCandidate c u) := by
  simp only [execLearnCandidate, next, taken, unsettled, full]

end Pending

section Queued

variable (next : s.tab.learnQueue = c :: l) (runs : servicesRun s = true)
  (taken : { s with tab := { s.tab with learnQueue := l } } = u)
include next runs taken

theorem execLearnCompletion_settles (settled : settleCandidate c u = some t) : execLearnCompletion s = .next t := by
  simp only [execLearnCompletion, next, runs, taken, settled, Bool.not_true, Bool.false_eq_true, if_false]

theorem execLearnCompletion_writes (unsettled : settleCandidate c u = none) (written : writeLearned c true u = some t) :
    execLearnCompletion s = .next t := by
  simp only [execLearnCompletion, next, runs, taken, unsettled, written, Bool.not_true, Bool.false_eq_true, if_false]

/-- A candidate for which no displacement makes room is counted. -/
theorem execLearnCompletion_counts (unsettled : settleCandidate c u = none) (full : writeLearned c true u = none) :
    execLearnCompletion s = .next (countNoRoom u) := by
  simp only [execLearnCompletion, next, runs, taken, unsettled, full, Bool.not_true, Bool.false_eq_true, if_false]

end Queued

end Learn

/-- Settles O45: a visit by cases on its entry, a candidate by cases on what its second look-up finds. -/
theorem tableEnginesRun : Obligations.TableEnginesRun := by
  refine ⟨?retire, ?visit, ?skip, ?candidate, ?completion⟩
  case retire => exact fun k s draining slice0 slice1 => execRulesRetire_drained draining slice0 slice1
  case visit =>
    intro w i e s runs inside held
    have ends := execAgingVisit_entry runs inside held rfl
    refine ⟨fun static => ends.trans (if_pos static), fun dynamic zero => ends.trans ?_,
      fun dynamic positive => ends.trans ?_⟩
    · simp only [dynamic, zero, Bool.false_eq_true, if_false, if_true]
    · simp only [dynamic, positive, Bool.false_eq_true, if_false]
  case skip => exact fun w i s nothing => execAgingVisit_skips nothing
  case candidate =>
    exact fun c l s t next => ⟨execLearnCandidate_settles next rfl, execLearnCandidate_writes next rfl,
      execLearnCandidate_passes next rfl⟩
  case completion =>
    exact fun c l s t next runs => ⟨execLearnCompletion_settles next runs rfl,
      execLearnCompletion_writes next runs rfl, execLearnCompletion_counts next runs rfl⟩

end Sys2Proof.Machine
end

section
/-! PROOFS. The traffic manager's timers (O46). -/

namespace Sys2Proof.Machine

open Sys2Proof

/-! ### Flow control (R261, R262) -/

section Xoff

variable {p : Fin 16} {c : Fin 8} {s t : State}

/-- One frame refreshes the class and every other class whose refresh is due with it. -/
theorem execXoffRefresh_sends {half : Nat} (mode : (pauseOf s p).mode ≠ .off)
    (xoff : bit (pauseOf s p).xoff.toNat c = true) (opened : portOpen s p = true)
    (units : pausePs s p (pauseOf s p).quanta / 2 = half)
    (later : passTo (tget 0 (pauseOf s p).sentAt c + half) s = t) :
    execXoffRefresh p c s = .next (
      let due := (setBits 8 (pauseOf s p).xoff.toNat).filter
        (fun k => k == c.val || decide (tget 0 (pauseOf s p).sentAt k + half ≤ t.now))
      sendFlow p due (pauseOf s p).quanta (bump (ck 271 16 p) 1 (modPause p (fun x => { x with
        sentAt := due.foldl (fun u k => tset 0 u k t.now) x.sentAt }) t))) := by
  have on : ((pauseOf s p).mode != .off) = true := by simpa using mode
  simp only [execXoffRefresh, on, xoff, opened, units, later, Bool.and_self, if_true]

theorem execXoffRefresh_off (off : (pauseOf s p).mode = .off ∨ bit (pauseOf s p).xoff.toNat c = false
    ∨ portOpen s p = false) : execXoffRefresh p c s = .next s := by
  refine if_neg ?_
  rcases off with mode | xoff | closed
  · simp [mode]
  · simp [xoff]
  · simp [closed]

end Xoff

/-- The earliest pause timer of the port runs out, and with it every other one that is due by then. -/
theorem execPauseTimerExpiry_runs {p : Fin 16} {e : Nat × Nat} {l : List (Nat × Nat)} {s : State}
    (timers : (pauseOf s p).until_ = e :: l) :
    execPauseTimerExpiry p s = .next (forEach (List.range 8) (fun c s =>
      if tget 0 (pauseOf s p).until_ c ≠ 0 ∧ tget 0 (pauseOf s p).until_ c ≤ s.now then reloadPause p c 0 s
      else s) (passTo (l.foldl (fun m f => min m f.2) e.2) s)) := by
  simp only [execPauseTimerExpiry, timers]

/-! ### Sojourn (R196, R237, R248) -/

section Sojourn

variable {q : Nat} {mine : Copy → Bool} {c : Copy} {l : List Copy} {s : State}

theorem checkHead_late (head : firstOf mine (queueOf s q).pkts = some (c, l)) (late : overSojourn s q c = true) :
    checkHead q mine s = dropResident q 0x45 c (modQueue q
      (fun x => { x with pkts := l, hold := none, deficit := if l.isEmpty then 0 else x.deficit }) s) := by
  simp only [checkHead, head, late, if_true]

theorem checkHead_timely (head : firstOf mine (queueOf s q).pkts = some (c, l)) (timely : overSojourn s q c = false) :
    checkHead q mine s = s := by
  simp only [checkHead, head, timely, Bool.false_eq_true, if_false]

/-- Outside the recirculation queues a queue is one list, whose head is its first copy. -/
theorem firstOf_sliceOwns_single (single : q < 648 ∨ 656 ≤ q) (k : Nat) :
    firstOf (sliceOwns q k) (c :: l) = some (c, l) := by
  refine if_pos ?_
  have outside : ¬ (648 ≤ q ∧ q < 656) := by omega
  simp [sliceOwns, ← Bool.decide_and, outside]

theorem execSojournCheck_single (single : q < 648 ∨ 656 ≤ q) :
    execSojournCheck q s = .next (checkHead q (sliceOwns q 0) s) :=
  congrArg _ (if_neg (by omega))

theorem execSojournCheck_recirculation (low : 648 ≤ q) (high : q < 656) :
    execSojournCheck q s = .next (checkHead q (sliceOwns q 1) (checkHead q (sliceOwns q 0) s)) :=
  congrArg _ (if_pos ⟨low, high⟩)

end Sojourn

/-! ### Spill (R245) -/

/-- The first spilled copy that may be read back becomes a prefetched one with a frame of its own. -/
theorem execSpillReadback_reads {q : Nat} {front rest : List Copy} {c : Copy} {s t : State}
    (next : readBack s (queueOf s q).pkts = some (front, c, rest))
    (crossed : ownEvent 22 3 c.cells (crossCells (linkNo 15 1) (cellEntries c.cells) c.cells s) = t) :
    execSpillReadback q s = .next (
      let d : Copy := { c with spilled := false, prefetched := true, pkt := { c.pkt with fid := s.tm.nextFid } }
      modQueue q (fun x => { x with pkts := front ++ d :: rest }) { t with tm := { t.tm with
        free := s.tm.free - c.cells, spillFree := s.tm.spillFree + c.cells, nextFid := s.tm.nextFid + 1
        refs := tset {} s.tm.refs s.tm.nextFid { copies := 1, cells := c.cells } } }) := by
  simp only [execSpillReadback, next, crossed]

/-- Settles O46: the sojourn check by the lists that the queue keeps, every other timer under its occasion. -/
theorem trafficTimersAct : Obligations.TrafficTimersAct := by
  refine ⟨?refill, ?refresh, ?noRefresh, ?expiry, ?single, ?recirculation, ?readback⟩
  case refill => exact fun s => rfl
  case refresh => exact fun p c s mode xoff opened => execXoffRefresh_sends mode xoff opened rfl rfl
  case noRefresh => exact fun p c s off => execXoffRefresh_off off
  case expiry => exact fun p e l s timers => execPauseTimerExpiry_runs timers
  case single =>
    intro q c l s single late pkts
    have head : firstOf (sliceOwns q 0) (queueOf s q).pkts = some (c, l) := by
      rw [pkts, firstOf_sliceOwns_single single]
    exact (execSojournCheck_single single).trans (congrArg _ (checkHead_late head late))
  case recirculation =>
    intro q c d l m s low high head0 timely head1 late
    have kept : checkHead q (sliceOwns q 0) s = s := checkHead_timely head0 timely
    refine (execSojournCheck_recirculation low high).trans (congrArg _ ?_)
    rw [kept, checkHead_late head1 late]
  case readback => exact fun q front rest c s next => execSpillReadback_reads next rfl

end Sys2Proof.Machine
end

section
/-! PROOFS. The table commands (O29). -/

namespace Sys2Proof.Machine

open Sys2Proof

/-! ### Entry commands (R459) -/

/-- A use without records answers with the result bytes alone. -/
theorem runEntries_codes {u : EntryUse} (bare : recordLen u = 0) (k n : Nat) (a : Bytes) (s : State) :
    runEntries u k n a s
      = doneWith (runItems u a k (descCount a) s).1 (runItems u a k (descCount a) s).2.2 := by
  simp only [runEntries, bare, if_true]

/-- The records of a use that has them stand after the 40 bytes of the results. -/
theorem runEntries_records {u : EntryUse} (recorded : recordLen u ≠ 0) (k n : Nat) (a : Bytes) (s : State) :
    runEntries u k n a s
      = doneWith (fit 40 (runItems u a k (descCount a) s).1 ++ (runItems u a k (descCount a) s).2.1)
        (runItems u a k (descCount a) s).2.2 := by
  simp only [runEntries, recorded, if_false]

/-! ### Settings (R206, R207, R221) -/

/-- A profile that no valid entry and no port names takes its selectors. -/
theorem cmdTableSetProfile_run (n : Nat) (a : Bytes) (t : State) (unused : profileUsed t (byteAt a 0) = false) :
    cmdTableSetProfile.run n a t = done (rewriteItem 5 (item 2 (byteAt a 0)) { t with tab := { t.tab with
      profiles := tset {} t.tab.profiles (byteAt a 0) { dst := selectors a 8, src := selectors a 48 } } }) := by
  simp only [cmdTableSetProfile, unused, Bool.false_eq_true, if_false]

/-- An aging period of 0 leaves the period as it is, and the port 0xFF leaves every limit. -/
theorem cmdTableSetAging_run (n : Nat) (a : Bytes) (t : State) :
    cmdTableSetAging.run n a t = done { t with tab := { t.tab with
      agingS := if le a 0 2 = 0 then t.tab.agingS else le a 0 2
      limits := if byteAt a 2 = 0xFF then t.tab.limits
        else tset 524288 t.tab.limits (byteAt a 2) (le a 4 4) } } := by
  by_cases noLimit : byteAt a 2 = 0xFF
  · simp only [cmdTableSetAging, noLimit, if_true]
  · simp only [cmdTableSetAging, noLimit, if_false]

/-- Settles O29: the entry commands by whether their use has records, the settings under those of their lemmas. -/
theorem tableCommandsComplete : Obligations.TableCommandsComplete := by
  refine ⟨?add, ?modify, ?delete, ?read, ?profile, ?port, ?vlan, ?aging, ?aged⟩
  case add => exact completes_of_run (fun _ _ => rfl) fun n a t _ => runEntries_codes rfl (descCount a) n a t
  case modify => exact completes_of_run (fun _ _ => rfl) fun n a t _ => runEntries_codes rfl (descCount a) n a t
  case delete =>
    exact completes_of_run (fun _ _ => rfl) fun n a t _ => runEntries_records (by decide) (descCount a) n a t
  case read =>
    exact completes_of_run (fun _ _ => rfl) fun n a t _ => runEntries_records (by decide) (descCount a) n a t
  case profile => exact completes_of_run (fun _ _ => rfl) cmdTableSetProfile_run
  case port => exact completes_of_run (fun _ _ => rfl) fun _ _ _ _ => rfl
  case vlan => exact completes_of_run (fun _ _ => rfl) fun _ _ _ _ => rfl
  case aging => exact completes_of_run (fun _ _ => rfl) fun n a t _ => cmdTableSetAging_run n a t
  case aged => exact completes_of_run (fun _ _ => rfl) fun _ _ _ _ => rfl

end Sys2Proof.Machine
end

section
/-! PROOFS. The host packet rings (O24). -/

namespace Sys2Proof.Machine

open Sys2Proof

/-! ### Delivery (R247, R257, R429, R440) -/

section Delivery

variable {r : Fin 4} {c : Copy} {l : List Copy} {s t : State} (turn : rxTurn s r = true)
  (tested : dropLate (640 + r.val) { s with tm := { s.tm with hostTurn := (r.val + 1) % 4 } } = t)
  (queued : (queueOf t (640 + r.val)).pkts = c :: l)
include turn tested queued

/-- A posted descriptor takes the oldest frame of the queue whose turn it is. -/
theorem execHostRxDeliver_posted (posted : (rxRing t r).head ≠ (rxRing t r).tail) (buf : Word64) :
    execHostRxDeliver r buf s = .next (writeRx r buf.toNat c (crossPacket (linkNo 16 0)
      (entriesFor .packet c.pkt.stored) c.pkt.cport c.pkt.booked
      (chargeShapers (640 + r.val) c.pkt.stored (popQueue (640 + r.val) t)))) := by
  simp only [execHostRxDeliver, turn, tested, queued, posted, Bool.not_true, Bool.false_eq_true, if_false]

/-- Without a posted descriptor the frame is dropped as HOST_RING_FULL. -/
theorem execHostRxDeliver_full (full : (rxRing t r).head = (rxRing t r).tail) (buf : Word64) :
    execHostRxDeliver r buf s = .next (dropResident (640 + r.val) 0x49 c
      (bump (ck 440 10 r) 1 (popQueue (640 + r.val) t))) := by
  simp only [execHostRxDeliver, turn, tested, queued, full, Bool.not_true, Bool.false_eq_true, if_false, if_true]

end Delivery

/-! ### Fetch (R428, R430, R431, R441) -/

/-- What a fetched descriptor comes to: its fields are judged first, then the device state, then the service. -/
theorem execHostTxFetch_ready {r : Fin 4} {s : State} (ready : txReady s r = true) (d : Bytes) (data : Option Bytes) :
    let p := txPacket r d data (stampOn 40 s).1
    let s1 := book .input 17 p.stored (stampOn 40 s).2
    execHostTxFetch r d data s =
      if txMalformed d data then .next (dropPacket 0x70 p (closeTx r 0x70 d s1))
      else if s.dev.state = .safe then .next (dropPacket 0x72 p (closeTx r 0 d s1))
      else if !inService s then .next (dropPacket 0x71 p (closeTx r 0x71 d s1))
      else
        let a := admitFrame p
          (crossPacket (linkNo 16 1) (entriesFor .packet p.stored) 17 p.stored (closeTx r 0 d s1))
        .next (offerCopy (644 + r.val) a.1 a.2) :=
  if_neg (by simp [ready])

/-- Settles O24: a delivery by whether a descriptor is posted, a fetch by what is judged of the frame in turn. -/
theorem hostRingsMoveFrames : Obligations.HostRingsMoveFrames := by
  refine ⟨?deliver, ?fetch⟩
  case deliver =>
    exact fun r buf s c l turn queued => ⟨fun posted => execHostRxDeliver_posted turn rfl queued posted buf,
      fun full => execHostRxDeliver_full turn rfl queued full buf⟩
  case fetch =>
    intro r d data s ready
    have fetched := execHostTxFetch_ready ready d data
    refine ⟨fun malformed => fetched.trans (if_pos malformed), fun formed safe => fetched.trans ?_,
      fun formed running idle => fetched.trans ?_, fun formed running serving => fetched.trans ?_⟩
    · simp only [formed, safe, Bool.false_eq_true, if_false, if_true]
    · simp only [formed, running, idle, Bool.not_false, Bool.false_eq_true, if_false, if_true]
    · simp only [formed, running, serving, Bool.not_true, Bool.false_eq_true, if_false]

end Sys2Proof.Machine
end

section
/-! PROOFS. The traffic commands (O30). -/

namespace Sys2Proof.Machine

open Sys2Proof

/-- A descriptor that is enabled, or a queue that holds nothing, is set (R239). -/
theorem cmdTrafficSetQueue_run (n : Nat) (a : Bytes) (t : State)
    (settable : bit (le a 8 16) 127 = true ∨ held t (le a 0 2) = []) :
    cmdTrafficSetQueue.run n a t = done (rewriteItem 3 (item 0 (le a 0 2))
      (modQueue (le a 0 2) (fun x => { x with desc := BitVec.ofNat 128 (le a 8 16) }) t)) := by
  refine if_neg ?_
  rcases settable with enabled | empty
  · simp [enabled]
  · simp [empty]

/-- XOFF stands at a port and its mode changes (R259). -/
theorem xoff_ends_iff (xoff : Byte) (new old : FlowMode) :
    (decide (xoff.toNat ≠ 0) && new != old) = true ↔ xoff ≠ 0 ∧ (new == old) = false := by
  rw [Bool.and_eq_true, decide_eq_true_iff, bne, Bool.not_eq_true', Ne, Ne, ← BitVec.toNat_inj]
  rfl

/-- A read of a queue or a policer counts no paused time. -/
theorem cmdTrafficRead_run_of_ne_port (n : Nat) (a : Bytes) (t : State) (other : byteAt a 0 ≠ 2) :
    cmdTrafficRead.run n a t = doneWith (counterBytes t (trafficKeys (byteAt a 0) (le a 2 2)))
      (if byteAt a 0 = 0 then setCount (ck 269 0 (le a 2 2)) 0 (setCount (ck 269 1 (le a 2 2)) 0 t) else t) := by
  simp only [cmdTrafficRead, other, if_false]

/-- A read of a port counts the time that its classes have stood paused up to the read. -/
theorem cmdTrafficRead_run_port (n : Nat) (a : Bytes) (t : State) (port : byteAt a 0 = 2) :
    cmdTrafficRead.run n a t = doneWith
      (counterBytes (forEach (List.range 8) (countPaused (le a 2 2)) t) (trafficKeys 2 (le a 2 2)))
      (forEach (List.range 8) (countPaused (le a 2 2)) t) := by
  simp only [cmdTrafficRead, port, if_true, show ¬(2 = 0) by decide, if_false]

/-- Settles O30: only TRAFFIC_SET_QUEUE has a condition of its own, and TRAFFIC_READ runs by what it reads. -/
theorem trafficCommandsComplete : Obligations.TrafficCommandsComplete := by
  refine ⟨?queue, ?flush, ?policer, ?shaper, ?pause, ?gate, ?histogram, ?read, ?readPort, ?readHistogram⟩
  case queue => exact completes_of_run (fun _ _ => rfl) cmdTrafficSetQueue_run
  case flush => exact completes_of_run (fun _ _ => rfl) fun _ _ _ _ => rfl
  case policer => exact completes_of_run (fun _ _ => rfl) fun _ _ _ _ => rfl
  case shaper => exact completes_of_run (fun _ _ => rfl) fun _ _ _ _ => rfl
  case pause =>
    exact completes_of_run (fun _ _ => rfl) fun _ a _ _ =>
      congrArg (fun u => done (checkAccounts (byteAt a 0) (List.range 8) u))
        (ite_congr (propext (xoff_ends_iff _ _ _)) (fun _ => rfl) fun _ => rfl)
  case gate => exact completes_of_run (fun _ _ => rfl) fun _ _ _ _ => rfl
  case histogram => exact completes_of_run (fun _ _ => rfl) fun _ _ _ _ => rfl
  case read => exact completes_of_run (fun _ _ => rfl) cmdTrafficRead_run_of_ne_port
  case readPort => exact completes_of_run (fun _ _ => rfl) cmdTrafficRead_run_port
  case readHistogram => exact completes_of_run (fun _ _ => rfl) fun _ _ _ _ => rfl

end Sys2Proof.Machine
end

section
/-! PROOFS. Gate lists (O47). -/

namespace Sys2Proof.Machine

open Sys2Proof

/-! ### Boundaries (R265, R308) -/

/-- The gates follow the list in force at its next boundary, once the island's replica is aligned. -/
theorem execGateChange_active {x : Word16} {g : GateList} {s : State} (inForce : (gateOf s x.toNat).active = some g) :
    execGateChange x s = .next (
      let u := awaitReplica x.toNat s
      let t := match nextBoundary g (nowNs u) with
        | some i => passMain (i * fracNs) u
        | none => u
      modGate x.toNat (fun y => { y with gates := liveGates t x.toNat y }) t) := by
  unfold execGateChange
  split
  case h_1 absent => cases absent.symm.trans inForce
  case h_2 found =>
    cases found.symm.trans inForce
    rfl

/-! ### Switches (R266, R267, R461) -/

/-- A list in force on a target in place of the pending one, its gates as they stand now. -/
def switchList (target : Nat) (l : Option GateList) (s : State) : State :=
  modGate target (fun y =>
    let z := { y with active := l, pending := none }
    { z with gates := liveGates s target z }) s

/-- The pending list of a live target takes effect at its instant; a client port's hold times restart. -/
theorem execGateListSwitch_pending {x : Word16} {l : Option GateList} {instant : Nat} {s t : State}
    (pending : (gateOf s x.toNat).pending = some (l, instant)) (live : gateTargetLive s x.toNat = true)
    (switched : switchList x.toNat l (passMain (instant * fracNs) (awaitReplica x.toNat s)) = t) :
    execGateListSwitch x s = if bit x.toNat 15 then .next t
      else .next (forEach ((List.range 8).map (8 * (x.toNat % 16) + ·)) (fun q s =>
        modQueue q (fun y => { y with hold := y.hold.map (fun _ => s.now) }) s)
        (bump (ck 271 49 (x.toNat % 16)) 1 t)) := by
  subst switched
  simp only [execGateListSwitch, pending, live, if_true, switchList]

/-! ### Holds (R267) -/

section Holds

variable {q : Nat} {s : State}

/-- Where no window opens, the hold passes to its end. -/
theorem passHold_closed (closed : windowOpen s (gateOf s (q / 8)) (q % 8) = none) (limit : Nat) :
    passHold q limit s = passTo limit s := by
  simp only [passHold, closed]

/-- A window that opens before the hold ends passes only the time until it opens. -/
theorem passHold_opens {i limit : Nat} (opens : windowOpen s (gateOf s (q / 8)) (q % 8) = some i)
    (before : s.now + (i - nowNs s) * 1000 < limit) : passHold q limit s = passMain (i * fracNs) s := by
  simp only [passHold, opens, before, if_true]

variable {h cyc : Nat} {t : State} (hold : (queueOf s q).hold = some h) (cycle : holdCycle s q = some cyc)
  (passed : passHold q (h + cyc * 1000) s = t)
include hold cycle passed

/-- A frame held for a whole cycle is dropped, and the next head is tested. -/
theorem execGateHoldTest_drops {c : Copy} {l : List Copy} (client : q < 128) (late : h + cyc * 1000 ≤ t.now)
    (head : (queueOf t q).pkts = c :: l) :
    execGateHoldTest q s = .next (testHead q
      (bump (ck 271 (41 + q % 8) (q / 8)) 1 (dropResident q 0x44 c (popQueue q t)))) := by
  simp only [execGateHoldTest, hold, cycle, passed, client, late, head, decide_true, Bool.and_self, if_true]

/-- A frame whose hold has not ended stays. -/
theorem execGateHoldTest_keeps (early : t.now < h + cyc * 1000) : execGateHoldTest q s = .next t := by
  simp only [execGateHoldTest, hold, cycle, passed, ge_iff_le, Nat.not_le.mpr early, decide_false, Bool.and_false,
    Bool.false_eq_true, if_false]

end Holds

/-- Settles O47: a change and a switch under the list that they find, a hold by what ends it first. -/
theorem gatesFollowLists : Obligations.GatesFollowLists := by
  refine ⟨?change, ?switch, ?drop, ?window⟩
  case change => exact fun x g s inForce => execGateChange_active inForce
  case switch =>
    intro x l instant s pending live
    have switched := execGateListSwitch_pending pending live rfl
    exact ⟨fun upstream => switched.trans (if_pos upstream),
      fun client => switched.trans (if_neg (Bool.eq_false_iff.mp client))⟩
  case drop =>
    exact fun q h cyc c l s client hold cycle closed late head =>
      execGateHoldTest_drops hold cycle (passHold_closed closed _) client late head
  case window =>
    exact fun q h cyc i s hold cycle opens before early =>
      execGateHoldTest_keeps hold cycle (passHold_opens opens before) early

end Sys2Proof.Machine
end

section
/-! PROOFS. Port links and the management lane (O52). -/

namespace Sys2Proof.Machine

open Sys2Proof

/-! ### Links (R241, R351) -/

section Links

variable {p : Fin 16} {since : Nat} {s : State}

/-- A port that has a MODE takes its conditions, and its link may fail by them at once. -/
theorem execLinkConditionChange_of_mode {aligned fecLock localFault remoteFault : Bool} {t : State}
    (used : (portOf s p).mode ≠ 0)
    (noted : syncFaults (noteLink p (modPort p (fun x => { x with
        aligned := aligned, fecLock := fecLock, localFault := localFault, remoteFault := remoteFault })
      (bump (ck 369 45 p) (b2n (remoteFault && !(portOf s p).remoteFault))
        (bump (ck 369 44 p) (b2n (localFault && !(portOf s p).localFault))
          (bump (ck 369 53 p) (b2n ((portOf s p).aligned && !aligned)) s))))) = t) :
    execLinkConditionChange p aligned fecLock localFault remoteFault s
      = .next (if (portOf t p).link && !linkGood (portOf t p) && (portOf t p).downHold == 0 then
          linkGoesDown p (failCause t p) t
        else t) := by
  subst noted
  exact if_neg used

/-- A link comes up 10 ms after its conditions began to hold. -/
theorem execLinkUp_good (down : (portOf s p).link = false) (good : linkGood (portOf s p) = true)
    (runs : portRuns s p = true) (sends : portsSend s = true) (begun : (portOf s p).goodSince = some since) :
    execLinkUp p s = .next (reportLink p 0 true (passTo (since + ms 10) s)) := by
  simp only [execLinkUp, down, good, runs, sends, begun, passSince, Option.isNone_some, Bool.not_true, Bool.or_self,
    Bool.false_eq_true, if_false]

/-- A link goes down DOWN_HOLD × 10 ms after a condition began to fail. -/
theorem execLinkDown_bad (up : (portOf s p).link = true) (bad : linkGood (portOf s p) = false)
    (begun : (portOf s p).badSince = some since) :
    execLinkDown p s
      = .next (linkGoesDown p (failCause s p) (passTo (since + ms (10 * (portOf s p).downHold)) s)) := by
  simp only [execLinkDown, up, bad, begun, passSince, Option.isNone_some, Bool.not_true, Bool.or_self,
    Bool.false_eq_true, if_false]

/-! ### Negotiation (R350) -/

section Negotiation

variable (kr : (portOf s p).kr = true) (runs : portRuns s p = true)
include kr runs

/-- Negotiation starts again at once after a resolution without RS-FEC, else 500 ms after the later of its last
start and the loss of the link. -/
theorem execAnRestart_down {fecFailed : Bool} {t : State} (down : (portOf s p).link = false)
    (failed : fecFailed = true → (portOf s p).anFailed = true)
    (waited : (if fecFailed then s else passTo (max (portOf s p).linkAt (portOf s p).anAt + ms 500) s) = t) :
    execAnRestart p fecFailed s = .next (noteLink p (startTraining p (bump (ck 369 58 p) 1 t))) := by
  subst waited
  refine if_neg ?_
  cases fecFailed
  · simp [kr, runs, down]
  · simp [kr, runs, down, failed]

/-- What a resolution comes to: 25GBASE-KR without RS-FEC fails, an untrained one is counted, any other is done. -/
theorem execAutoNegotiationComplete_open (undone : (portOf s p).anDone = false) (fec trained pre : Bool) :
    execAutoNegotiationComplete p fec trained s pre =
      if (portOf s p).mode = 1 ∧ !fec then
        .next (bump (ck 369 60 p) 1 (modPort p (fun x => { x with anFailed := true }) s))
      else if !trained then .next (bump (ck 369 61 p) 1 s)
      else .next (noteLink p (modPort p (fun x => { x with
        anDone := true, anFailed := false, precode := pre && mayPrecode x }) (bump (ck 369 59 p) 1 s))) :=
  if_neg (by simp [kr, runs, undone])

end Negotiation

/-! ### Low-power idle (R361, R362, R387) -/

/-- A port enters LPI once it has been idle for LPI_IDLE. -/
theorem execLpiEntry_idle {t : State} (awake : (portOf s p).txLpi = false) (idle : mayIdle s p = true)
    (passed : passSince (portOf s p).idleSince (us (portOf s p).lpiIdle) s = t) :
    execLpiEntry p s = .next (onWire p (.lpi p) (bump (ck 369 62 p) 1 (modPort p (fun x => { x with
      txLpi := true, lpiAt := t.now }) t))) := by
  simp only [execLpiEntry, awake, idle, passed, Bool.not_true, Bool.or_self, Bool.false_eq_true, if_false]

end Links

section ReceiveLpi

variable {l : Fin 16} {p : Nat} {s : State} (ready : armed (laneOf s l) = true) (owner : ownerOf s l = some p)
include ready owner

theorem execReceiveLpi_overdue :
    execReceiveLpi l .overdue s = .next (modLane l (fun x => { x with losMasked := false }) s) := by
  simp only [execReceiveLpi, ready, owner, if_true]

theorem execReceiveLpi_refreshed : execReceiveLpi l .refreshed s
    = .next (endRxLpi p (modLane l (fun x => { x with unmaskAt := some (s.now + us 10), frozen := false }) s)) := by
  simp only [execReceiveLpi, ready, owner, if_true]

/-- The first lane of a port to fall quiet begins the port's LPI. -/
theorem execReceiveLpi_quiet (awake : (portOf s p).rxLpi = false) : execReceiveLpi l .quiet s
    = .next (bump (ck 369 64 p) 1 (modPort p (fun x => { x with rxLpi := true, rxLpiAt := s.now })
      (modLane l (fun x => { freezeCoeffs x with losMasked := true, unmaskAt := none, frozen := true }) s))) := by
  simp only [execReceiveLpi, ready, owner, awake, Bool.false_eq_true, if_false, if_true]

end ReceiveLpi

/-! ### The management lane (R368, R383, R398) -/

/-- What a change of synchronisation comes to: three ordered sets are needed to acquire it. -/
theorem execMgmtSynchronisationChange_armed {acquired : Bool} {s : State} (used : s.prt.mgmtMode ≠ 0)
    (changed : s.prt.mgmtSync ≠ acquired) (ready : armed (laneOf s 20) = true) (sets commas : Nat) :
    execMgmtSynchronisationChange acquired s sets commas =
      if acquired && decide (sets < 3) then .next (bump (ck 398 13 20) commas (countCodeErrors s))
      else .next (raise 0x0801 false 16 (leBytes 1 (b2n acquired) ++ leBytes 1 (1 - b2n acquired))
        (bump (ck 398 (if acquired then 13 else 14) 20) (if acquired then commas else 1)
          (countCodeErrors { s with prt := { s.prt with mgmtSync := acquired } }))) :=
  if_neg (by simp [used, changed, ready])

/-- Settles O52: each row under its occasion, a resolution and a synchronisation by what their lemmas judge. -/
theorem linksChange : Obligations.LinksChange := by
  refine ⟨?condition, ?up, ?down, ?restart, ?resolved, ?unresolved, ?idle, ?lpi, ?sync, ?short⟩
  case condition => exact fun p al fec lf rf s used => execLinkConditionChange_of_mode used rfl
  case up => exact fun p instant s down good runs sends begun => execLinkUp_good down good runs sends begun
  case down => exact fun p instant s up bad begun => execLinkDown_bad up bad begun
  case restart =>
    exact fun p s kr runs down => ⟨fun failed => execAnRestart_down kr runs down (fun _ => failed) (if_pos rfl),
      execAnRestart_down kr runs down nofun (if_neg Bool.false_ne_true)⟩
  case resolved =>
    intro p fec pre s kr runs undone resolves
    refine (execAutoNegotiationComplete_open kr runs undone fec true pre).trans ?_
    rw [if_neg (by simpa using resolves), if_neg (by decide)]
  case unresolved =>
    intro p fec tr pre s kr runs undone
    have resolution := execAutoNegotiationComplete_open kr runs undone fec tr pre
    refine ⟨fun mode without => resolution.trans (if_pos (by simp [mode, without])),
      fun resolves untrained => resolution.trans ?_⟩
    rw [if_neg (by simpa using resolves), if_pos (by simp [untrained])]
  case idle => exact fun p s awake idle => execLpiEntry_idle awake idle rfl
  case lpi =>
    exact fun l p s ready owner => ⟨execReceiveLpi_overdue ready owner, execReceiveLpi_refreshed ready owner,
      execReceiveLpi_quiet ready owner⟩
  case sync =>
    intro b k c s used changed ready enough
    refine (execMgmtSynchronisationChange_armed used changed ready k c).trans (if_neg ?_)
    rcases enough with rfl | three
    · simp
    · simp [three]
  case short =>
    intro k c s used lost ready few
    refine (execMgmtSynchronisationChange_armed used (by simp [lost]) ready k c).trans (if_pos ?_)
    simpa using few

end Sys2Proof.Machine
end

section
/-! SUPPORT. What taking a command up leaves alone: whether DMA is allowed. Amber's record and the wakes of what Hive
reaches (R478, R553) touch no register of the host interface; of a bank group that is lost on waking, the events and
the mailboxes are rewritten, and neither Bus Master Enable nor D3hot (R404, R494). -/

namespace Sys2Proof.Machine

open Sys2Proof

theorem dmaOk_of_hif {s t : State} (h : t.hif = s.hif) : dmaOk t = dmaOk s := by
  simp only [dmaOk, h]

theorem dmaOk_foldl {α : Type} {f : State → α → State} (h : ∀ t a, dmaOk (f t a) = dmaOk t) (l : List α)
    (s : State) : dmaOk (l.foldl f s) = dmaOk s := by
  induction l generalizing s with
  | nil => rfl
  | cons a l ih => exact (ih _).trans (h s a)

theorem hif_forEach {f : Nat → State → State} (h : ∀ i t, (f i t).hif = t.hif) (l : List Nat) (s : State) :
    (forEach l f s).hif = s.hif := by
  induction l generalizing s with
  | nil => rfl
  | cons _ l ih => exact (ih _).trans (h _ s)

/-! ### Events -/

theorem fireVec_dmaOk (v : Nat) (s : State) : dmaOk (fireVec v s) = dmaOk s := by
  simp only [fireVec]
  split <;> rfl

theorem causeVec_dmaOk (v : Nat) (s : State) : dmaOk (causeVec v s) = dmaOk s := by
  simp only [causeVec]
  split
  · exact fireVec_dmaOk v s
  · split
    · exact fireVec_dmaOk v _
    · rfl

theorem backlogEvent_dmaOk (e : Event) (s : State) : dmaOk (backlogEvent e s) = dmaOk s := by
  unfold backlogEvent
  split
  · rfl
  · split
    · split <;> rfl
    · rfl

theorem raise_dmaOk (typ : Nat) (urgent : Bool) (index : Nat) (payload : Bytes) (s : State) :
    dmaOk (raise typ urgent index payload s) = dmaOk s := by
  simp only [raise, raiseAt]
  split
  · exact causeVec_dmaOk ..
  · exact backlogEvent_dmaOk ..

/-! ### Wakes -/

@[simp] theorem crossLink_hif (n k : Nat) (s : State) : (crossLink n k s).hif = s.hif := by
  simp [crossLink, readLink, writeLink]

@[simp] theorem wantAll_hif (l : List Nat) (s : State) : (wantAll l s).hif = s.hif := hif_forEach want_hif l s

@[simp] theorem passTo_hif (t : Nat) (s : State) : (passTo t s).hif = s.hif := by
  unfold passTo
  split <;> rfl

@[simp] theorem markHigh_hif (k n : Nat) (s : State) : (markHigh k n s).hif = s.hif := by
  unfold markHigh
  split <;> rfl

@[simp] theorem countStall_hif (d ns : Nat) (s : State) : (countStall d ns s).hif = s.hif :=
  hif_forEach (fun _ _ => bump_hif ..) (stallers s d) s

theorem bankContents_dmaOk (g : Nat) (s : State) : dmaOk (bankContents g s) = dmaOk s := by
  have lost := dmaOk_foldl (f := fun s e => loseEvent e.seq s) (fun _ _ => rfl) s.hif.backlog s
  simp only [bankContents]
  split
  · rfl
  · split
    · exact lost
    · split
      · rfl
      · split <;> rfl

theorem loseBank_dmaOk (g : Nat) (s : State) : dmaOk (loseBank g s) = dmaOk s := by
  have lost : dmaOk (bump (ck 495 14 g) 1 (raise 0x0A04 false g (leBytes 1 0) (bankContents g s))) = dmaOk s :=
    (raise_dmaOk ..).trans (bankContents_dmaOk g s)
  simp only [loseBank]
  split
  · exact (raise_dmaOk ..).trans lost
  · exact lost

theorem wakeBank_dmaOk (g : Nat) (intact : Bool) (s : State) : dmaOk (wakeBank g intact s) = dmaOk s := by
  simp only [wakeBank]
  split
  · split
    · rfl
    · exact loseBank_dmaOk ..
  · rfl

theorem wakeFrom_dmaOk (t0 d : Nat) (intact : Bool) (s : State) : dmaOk (wakeFrom t0 d intact s) = dmaOk s := by
  simp only [wakeFrom]
  split
  · rfl
  · have replicas := hif_forEach (f := realign) (fun _ _ => rfl)
    split
    · refine (wakeBank_dmaOk ..).trans (dmaOk_of_hif ((replicas ..).trans ?_))
      simp [takeFree, clocksMayRun]
    · refine dmaOk_of_hif ((replicas ..).trans ?_)
      simp [takeFree, clocksMayRun]

theorem touchFrom_dmaOk (t0 d : Nat) (s : State) : dmaOk (touchFrom t0 d s) = dmaOk s := by
  simp only [touchFrom]
  split
  · exact wakeFrom_dmaOk ..
  · split <;> rfl

theorem touchFor_dmaOk (opcode : Nat) (s : State) : dmaOk (touchFor opcode s) = dmaOk s := by
  have clocks : dmaOk (if [1, 8, 9].contains (opcode / 256) then clocksMayRun s else s) = dmaOk s := by
    split <;> rfl
  simp only [touchFor]
  generalize (if [1, 8, 9].contains (opcode / 256) then clocksMayRun s else s) = t at clocks ⊢
  split
  · refine (dmaOk_foldl (fun u i => touchFrom_dmaOk _ i u) _ _).trans
      ((dmaOk_of_hif (hif_forEach ?_ _ _)).trans clocks)
    exact fun _ _ => crossLink_hif ..
  · exact clocks

/-! ### Amber's record -/

@[simp] theorem putRecord_hif (typ : Nat) (rejected : Bool) (payload : Bytes) (s : State) :
    (putRecord typ rejected payload s).hif = s.hif := by
  simp only [putRecord]
  split
  · exact wantAll_hif ..
  · rfl

@[simp] theorem amberSkip_hif (s : State) : (amberSkip s).hif = s.hif := by
  have closed : (closeGap s).hif = s.hif := by
    unfold closeGap
    split
    · exact putRecord_hif ..
    · rfl
  unfold amberSkip
  split
  · exact closed
  · rfl

@[simp] theorem amberRecord_hif (typ : Nat) (rejected : Bool) (payload : Bytes) (s : State) :
    (amberRecord typ rejected payload s).hif = s.hif := by
  have own : (if [1, 2, 7, 8].contains typ then ownEvent 38 1 (b2n rejected) (ownEvent 38 0 1 s) else s).hif
      = s.hif := by
    split <;> rfl
  simp only [amberRecord]
  generalize (if [1, 2, 7, 8].contains typ then ownEvent 38 1 (b2n rejected) (ownEvent 38 0 1 s) else s) = t
    at own ⊢
  split
  · exact (putRecord_hif ..).trans ((amberSkip_hif _).trans own)
  · exact own

/-- A command runs with DMA allowed or not as it was when its ring was taken. -/
theorem underWay_dmaOk (n : Nat) (s : State) : dmaOk (underWay n s) = dmaOk s :=
  (touchFor_dmaOk ..).trans (dmaOk_of_hif (s := popBell s) (amberRecord_hif ..))

end Sys2Proof.Machine
end

section
/-! PROOFS. The cipher commands (O31). -/

namespace Sys2Proof.Machine

open Sys2Proof

/-- The CAK that DMA has read is written to the port's roots (R463). -/
theorem cmdCipherSetCak_run {t : State} (allowed : dmaOk t = true) (cak : Bytes) (n : Nat) (a : Bytes) :
    (cmdCipherSetCak (some cak)).run n a t
      = done (writeCak (byteAt a 0) (slice a 8 (byteAt a 1)) (fit 32 cak) t) := by
  simp only [cmdCipherSetCak, allowed, if_true]

/-- Where DMA is not allowed no CAK is read, whatever the host's buffer holds (R463). -/
theorem cmdCipherSetCak_run_refused {t : State} (barred : dmaOk t = false) (cak : Option Bytes) (n : Nat)
    (a : Bytes) : (cmdCipherSetCak cak).run n a t = .final stResource (leBytes 4 (takeFree t).1) (takeFree t).2 := by
  simp only [cmdCipherSetCak, barred, Bool.false_eq_true, if_false, refuseFree]

/-- Settles O31: only CIPHER_SET_CAK has a condition of its own, and taking it up does not change whether DMA is
allowed. -/
theorem cipherCommandsComplete : Obligations.CipherCommandsComplete := by
  refine ⟨?cak, ?cakRefused, ?macsec, ?threshold, ?status⟩
  case cak =>
    exact fun cak => completes_of_run (fun _ _ => rfl) fun n a t allowed => cmdCipherSetCak_run allowed cak n a
  case cakRefused =>
    intro n s cak acc barred
    have refused := cmdCipherSetCak_run_refused ((underWay_dmaOk n s).trans barred) cak n (cmdArgs s n)
    exact congrArg Host.Outcome.next (takeUp_final acc refused)
  case macsec => exact completes_of_run (fun _ _ => rfl) fun _ _ _ _ => rfl
  case threshold => exact completes_of_run (fun _ _ => rfl) fun _ _ _ _ => rfl
  case status => exact completes_of_run (fun _ _ => rfl) fun _ _ _ _ => rfl

end Sys2Proof.Machine
end

section
/-! PROOFS. The step of the queue and the time commands (O1, O32). -/

namespace Sys2Proof.Machine

open Sys2Proof

/-! ### The step of the queue (log entry 2) -/

@[simp] theorem idleTick_pending (s : State) : (idleTick s).pending = s.pending := rfl
@[simp] theorem idleTick_now (s : State) : (idleTick s).now = s.now + 800 := rfl
@[simp] theorem idleTick_hif (s : State) : (idleTick s).hif = s.hif := rfl
@[simp] theorem idleTick_dev (s : State) : (idleTick s).dev = s.dev := rfl
@[simp] theorem idleTick_cnt (s : State) : (idleTick s).cnt = s.cnt := rfl
@[simp] theorem idleTick_out (s : State) : (idleTick s).out = s.out := rfl

theorem step_of_pending_cons {c : Instr} {rest : List Instr} {s : State} (waits : s.pending = c :: rest) :
    step s = exec c { s with pending := rest } := by
  simp only [step, waits]

theorem step_of_pending_nil {s : State} (empty : s.pending = []) : step s = .next (idleTick s) := by
  simp only [step, empty]

/-- Settles O1: a step by what waits in the queue; what a tick leaves alone it leaves by definition. -/
theorem stepRunsFrontCommand : Obligations.StepRunsFrontCommand := by
  refine ⟨?front, ?empty⟩
  case front => exact fun c rest s waits => step_of_pending_cons waits
  case empty =>
    exact fun s empty => ⟨step_of_pending_nil empty, idleTick_now s, (idleTick_pending s).trans empty, idleTick_hif s,
      idleTick_dev s, idleTick_cnt s, idleTick_out s⟩

/-! ### The time commands (R464) -/

/-- A step that keeps the main counter and the selected shadow within their range is made (R309). -/
theorem cmdTimeStep_run (n : Nat) (a : Bytes) (t : State)
    (fits : withinTime (mainNow t) (nsUnits (sint 64 (le a 0 8))) = true
      ∧ withinTime (servoOf t (selected t)).shadow (nsUnits (sint 64 (le a 0 8))) = true) :
    cmdTimeStep.run n a t = done (moveTime (nsUnits (sint 64 (le a 0 8))) 10 t) := by
  obtain ⟨main, shadow⟩ := fits
  simp only [cmdTimeStep, main, shadow, Bool.and_self, if_true]

/-- A step that takes either of them out of it is refused (R309). -/
theorem cmdTimeStep_run_outside (n : Nat) (a : Bytes) (t : State)
    (leaves : withinTime (mainNow t) (nsUnits (sint 64 (le a 0 8))) = false
      ∨ withinTime (servoOf t (selected t)).shadow (nsUnits (sint 64 (le a 0 8))) = false) :
    cmdTimeStep.run n a t = refuseWord stRange 0x040 t := by
  rcases leaves with main | shadow
  · simp only [cmdTimeStep, main, Bool.false_and, Bool.false_eq_true, if_false]
  · simp only [cmdTimeStep, shadow, Bool.and_false, Bool.false_eq_true, if_false]

/-- The time domain that byte 0 of a command's arguments names (R464). -/
def domArg (a : Bytes) : TimeDomain := if byteAt a 0 = 0 then .a else .b

/-- The domain that is selected already stays (R318). -/
theorem cmdTimeSelectDomain_run_selected (n : Nat) (a : Bytes) (t : State) (already : selected t = domArg a) :
    cmdTimeSelectDomain.run n a t = done t :=
  if_pos already

/-- A domain that has been LOCKED is switched to (R318). -/
theorem cmdTimeSelectDomain_run_other (n : Nat) (a : Bytes) (t : State)
    (fit : selected t ≠ domArg a ∧ (servoOf t (domArg a)).everLocked = true) :
    cmdTimeSelectDomain.run n a t = done (switchTo (domArg a) t) := by
  obtain ⟨differs, locked⟩ := fit
  exact (if_neg differs).trans (if_neg (by rw [← domArg, locked]; decide))

/-- PTP is set on ports that all have a MODE (R329). -/
theorem cmdTimeSetPtp_run (n : Nat) (a : Bytes) (t : State)
    (used : ∀ p ∈ setBits 16 (le a 2 2), (portOf t p).mode ≠ 0) :
    cmdTimeSetPtp.run n a t = done { t with time := { t.time with
      ptpDomain := byteAt a 0, ptpMask := BitVec.ofNat 16 (le a 2 2)
      ptpAsym := (List.range 16).foldl (fun l p => tset 0 l p (sint 32 (le a (8 + 4 * p) 4))) t.time.ptpAsym } } :=
  if_neg (by simpa using used)

/-- Settles O32: only TIME_STEP, TIME_SELECT_DOMAIN and TIME_SET_PTP have a condition of their own. -/
theorem timeCommandsComplete : Obligations.TimeCommandsComplete := by
  refine ⟨?set, ?step, ?outside, ?servo, ?selected, ?other, ?fibre, ?readFibre, ?source, ?io, ?ptp, ?status⟩
  case set => exact completes_of_run (fun _ _ => rfl) fun _ _ _ _ => rfl
  case step => exact completes_of_run (fun _ _ => rfl) cmdTimeStep_run
  case outside => exact turnedAway_of_run (fun _ _ => rfl) cmdTimeStep_run_outside
  case servo => exact completes_of_run (fun _ _ => rfl) fun _ _ _ _ => rfl
  case selected => exact completes_of_run (fun _ _ => rfl) cmdTimeSelectDomain_run_selected
  case other => exact completes_of_run (fun _ _ => rfl) cmdTimeSelectDomain_run_other
  case fibre => exact completes_of_run (fun _ _ => rfl) fun _ _ _ _ => rfl
  case readFibre => exact completes_of_run (fun _ _ => rfl) fun _ _ _ _ => rfl
  case source => exact completes_of_run (fun _ _ => rfl) fun _ _ _ _ => rfl
  case io => exact completes_of_run (fun _ _ => rfl) fun _ _ _ _ => rfl
  case ptp => exact completes_of_run (fun _ _ => rfl) cmdTimeSetPtp_run
  case status => exact completes_of_run (fun _ _ => rfl) fun _ _ _ _ => rfl

end Sys2Proof.Machine
end

section
/-! PROOFS. The time servos, the fibre estimates, and the inputs and outputs of time (O50, O51). -/

namespace Sys2Proof.Machine

open Sys2Proof

/-! ### What the passing of time leaves alone

Of the time state only the counters and the sleep timer move. -/

section Passing

variable {α : Type} {read : Time → α}
  (still : ∀ x main a b sleep, read { x with main := main, a := a, b := b, sleep := sleep } = read x)
include still

theorem read_ticks (n : Nat) (s : State) : read (ticks n s).time = read s.time := by
  simp only [ticks]
  cases s.time.sleep with
  | none => exact still s.time ..
  | some timer => exact still s.time ..

theorem read_passTo (t : Nat) (s : State) : read (passTo t s).time = read s.time := by
  unfold passTo
  split
  · rfl
  · exact read_ticks still ..

end Passing

@[simp] theorem passTo_fibre (t : Nat) (s : State) : (passTo t s).time.fibre = s.time.fibre :=
  read_passTo (read := Time.fibre) (fun _ _ _ _ _ => rfl) t s

@[simp] theorem passTo_edgeAt (t : Nat) (s : State) : (passTo t s).time.edgeAt = s.time.edgeAt :=
  read_passTo (read := Time.edgeAt) (fun _ _ _ _ _ => rfl) t s

@[simp] theorem passTo_lastEdge (t : Nat) (s : State) : (passTo t s).time.lastEdge = s.time.lastEdge :=
  read_passTo (read := Time.lastEdge) (fun _ _ _ _ _ => rfl) t s

@[simp] theorem passTo_count (t k : Nat) (s : State) : (passTo t s).count k = s.count k := by
  unfold passTo
  split <;> rfl

/-! ### Servos (R312 to R319) -/

section Servos

variable {d : TimeDomain} {s : State}

/-- A slew ends at the tick in which the rest of the difference is absorbed. -/
theorem execSlewEnd_slewing {per : Nat} (slews : s.time.slewing = true) (awake : s.time.sleep = none)
    (rate : s.time.slewPpm * 4 * 2 ^ 40 / 5000000 = per) :
    execSlewEnd s = .next (endSlew (ticks
      (((shadowDelta s (selected s)).natAbs + 5 * per - 1) / (5 * per)) s)) := by
  simp only [execSlewEnd, slews, awake, rate, Option.isNone_none, Bool.and_self, if_true]

/-- A domain that follows its source goes to HOLDOVER after HOLD_S without a sample. -/
theorem execDomainHoldover_follows (follows : (servoOf s d).state = .acquiring ∨ (servoOf s d).state = .locked)
    (awake : s.time.sleep = none) :
    execDomainHoldover d s
      = .next (toHoldover .noSample d (passSince (servoOf s d).lastAt (ms (1000 * (servoOf s d).holdS)) s)) := by
  refine if_pos ?_
  rcases follows with acquiring | locked
  · simp [acquiring, awake]
  · simp [locked, awake]

theorem execServoSample_none (nothing : (servoOf s d).pending = none) (e : Int) (age : Nat) :
    execServoSample d e age s = .next s := by
  simp only [execServoSample, nothing]

theorem execServoSample_some {v : Int} {instant : Nat} (left : (servoOf s d).pending = some (v, instant)) (e : Int)
    (age : Nat) : execServoSample d e age s = .next (servoStep d v ((s.now - instant) / 1000)
      (modServo d (fun x => { x with pending := none }) s)) := by
  simp only [execServoSample, left]

end Servos

/-! ### Fibre time transfer (R323 to R327) -/

/-- A channel's offset by its time-of-day field, in 2^-16 ps (R323). -/
def fieldOffset (s : State) (e : Nat × Capture) : Int :=
  arrivalOff s e.1 e.2 - (roundTrip s e.1 + asymOf s.time.fibre (fibreDelayOf s e.1)) / 2

/-- The mean offset of the channels with a field of the latest counter value becomes the sample of domain A. -/
theorem execTodFieldSample_latest {k : Nat} {r : Nat × Capture} {l : List (Nat × Capture)} {s t : State}
    (latest : latestChannels s s.time.fibre.sampledOf = (some k, r :: l)) (unused : s.time.fibre.sampled ≠ some k)
    (sampled : modServo .a (fun x => { x with pending := some (meanInt ((r :: l).map (fieldOffset s)) / 1000,
      s.now - (s.time.a.shadow.stamp - r.2.tc) * 1000 / 65536) }) s = t) :
    execTodFieldSample s = .next (forEach ((r :: l).map (·.1)) (fun c s => bump (ck 344 15 c) 1 s)
      { t with time := { t.time with fibre := { t.time.fibre with
        sampled := some k, sampledOf := heldFields s } } }) := by
  subst sampled
  simp only [execTodFieldSample, latest, if_neg unused]
  rfl

/-- What the last sixteen seconds gave, this one with the channels that are new. -/
def nextHistory (s : State) : List (List ChanSecond) :=
  ((newChannels s).2.map (chanSecond s) :: s.time.fibre.history).take 16

/-- The sums of an estimate made now. -/
def nextSums (s : State) : Int × Int := estimateSums (nextHistory s) ((newChannels s).2.map (·.1))

/-- An estimate made now qualifies: two channels, far enough apart in wavelength (R326). -/
def qualifies (s : State) : Bool :=
  decide ((newChannels s).2.length ≥ 2) && decide ((nextSums s).2 ≥ 4000000000000000000)

/-- The validity that an estimate made now leaves (R326). -/
def nextValidity (s : State) : Nat := if qualifies s then 1 else if s.time.fibre.validity = 0 then 0 else 2

/-- The fibre time that an estimate made now leaves. -/
def nextFibre (s : State) : FibreTime :=
  { s.time.fibre with
    history := nextHistory s
    estimated := if (newChannels s).1.isSome then (newChannels s).1 else s.time.fibre.estimated
    estimatedOf := heldFields s, single := !qualifies s, validity := nextValidity s, estimatedAt := s.now
    pHat := if qualifies s then (nextSums s).1 * 1000000000 / (nextSums s).2 else s.time.fibre.pHat }

/-- An estimate leaves its fibre time, counted by its validity unless there is none yet. -/
theorem estimate_eq (s : State) : estimate s =
    if nextValidity s = 0 then { s with time := { s.time with fibre := nextFibre s } }
    else bump (ck 344 (15 + nextValidity s) 0) 1 { s with time := { s.time with fibre := nextFibre s } } := rfl

@[simp] theorem estimate_fibre (s : State) : (estimate s).time.fibre = nextFibre s := by
  rw [estimate_eq]
  split <;> rfl

@[simp] theorem estimate_hif (s : State) : (estimate s).hif = s.hif := by
  rw [estimate_eq]
  split <;> rfl

/-- A qualified estimate is counted as new. -/
theorem count_estimate_qualified {s : State} (fit : qualifies s = true) :
    (estimate s).count (ck 344 16 0) = s.count (ck 344 16 0) + 1 := by
  have valid : nextValidity s = 1 := if_pos fit
  rw [estimate_eq, valid, if_neg (by decide), count_bump, if_pos rfl]
  rfl

/-- Without one, an estimate that there has been is counted as held. -/
theorem count_estimate_held {s : State} (unfit : qualifies s = false) :
    (estimate s).count (ck 344 17 0) = s.count (ck 344 17 0) + b2n (s.time.fibre.validity != 0) := by
  have validity : nextValidity s = if s.time.fibre.validity = 0 then 0 else 2 := if_neg (by simp [unfit])
  rw [estimate_eq, validity]
  by_cases never : s.time.fibre.validity = 0
  · simp only [never, if_true]
    rfl
  · rw [if_neg never, if_neg (by decide), count_bump, if_pos rfl, bne_iff_ne.mpr never]
    rfl

theorem not_qualifies_of_few {s : State} (few : (newChannels s).2.length < 2) : qualifies s = false := by
  rw [qualifies, decide_eq_false (Nat.not_le.mpr few), Bool.false_and]

section Estimate

variable {s t : State} (loaded : afterLoading s = true) (second : passTo (s.time.fibre.estimatedAt + ms 1000) s = t)
include loaded second

/-- From LOADING's end on an estimate is made each second. -/
theorem execAsymmetryEstimate_runs : execAsymmetryEstimate s = .next (estimate t) := by
  subst second
  exact if_pos loaded

/-- With fewer than two new channels the last valid estimate is held. -/
theorem execAsymmetryEstimate_held (few : (newChannels t).2.length < 2) :
    ∃ u, execAsymmetryEstimate s = .next u
      ∧ u.time.fibre.estimated = ((newChannels t).1 <|> s.time.fibre.estimated)
      ∧ u.time.fibre.single = true ∧ u.time.fibre.pHat = s.time.fibre.pHat
      ∧ u.time.fibre.validity = (if s.time.fibre.validity = 0 then 0 else 2)
      ∧ u.time.fibre.history.length ≤ 16 ∧ u.hif = s.hif
      ∧ u.count (ck 344 17 0) = s.count (ck 344 17 0) + b2n (s.time.fibre.validity != 0) := by
  have unfit := not_qualifies_of_few few
  have fibre : t.time.fibre = s.time.fibre := by rw [← second, passTo_fibre]
  have hif : t.hif = s.hif := by rw [← second, passTo_hif]
  have count : t.count (ck 344 17 0) = s.count (ck 344 17 0) := by rw [← second, passTo_count]
  refine ⟨estimate t, execAsymmetryEstimate_runs loaded second, ?_, ?_, ?_, ?_, ?_, ?_, ?_⟩
  · rw [estimate_fibre, nextFibre, fibre]
    cases (newChannels t).1 <;> rfl
  · simp only [estimate_fibre, nextFibre, unfit, Bool.not_false]
  · simp only [estimate_fibre, nextFibre, unfit, fibre, Bool.false_eq_true, if_false]
  · simp only [estimate_fibre, nextFibre, nextValidity, unfit, fibre, Bool.false_eq_true, if_false]
  · rw [estimate_fibre]
    exact List.length_take_le 16 _
  · rw [estimate_hif, hif]
  · rw [count_estimate_held unfit, count, fibre]

/-- With two new channels that lie far enough apart in wavelength the estimate is new. -/
theorem execAsymmetryEstimate_qualified {sums : Int × Int} (formed : nextSums t = sums)
    (two : 2 ≤ (newChannels t).2.length) (apart : 4000000000000000000 ≤ sums.2) :
    ∃ u, execAsymmetryEstimate s = .next u ∧ u.time.fibre.validity = 1 ∧ u.time.fibre.single = false
      ∧ u.time.fibre.pHat = sums.1 * 1000000000 / sums.2 ∧ u.hif = s.hif
      ∧ u.count (ck 344 16 0) = s.count (ck 344 16 0) + 1 := by
  have fit : qualifies t = true := by
    rw [qualifies, formed, decide_eq_true two, decide_eq_true apart, Bool.and_self]
  have hif : t.hif = s.hif := by rw [← second, passTo_hif]
  have count : t.count (ck 344 16 0) = s.count (ck 344 16 0) := by rw [← second, passTo_count]
  refine ⟨estimate t, execAsymmetryEstimate_runs loaded second, ?_, ?_, ?_, ?_, ?_⟩
  · simp only [estimate_fibre, nextFibre, nextValidity, fit, if_true]
  · simp only [estimate_fibre, nextFibre, fit, Bool.not_true]
  · simp only [estimate_fibre, nextFibre, fit, formed, if_true]
  · rw [estimate_hif, hif]
  · rw [count_estimate_qualified fit, count]

end Estimate

/-! ### The reference (R336) -/

section Reference

variable {s : State}

theorem execReferenceInputChange_qualifies (bad : s.time.refOk = false) :
    execReferenceInputChange true s = .next (raise 0x0707 false 0xFF (leBytes 1 1)
      (bump (ck 344 22 0) 1 { s with time := { s.time with refOk := true } })) :=
  if_neg (by simp [bad])

/-- In D3 the sleep timer goes over to the internal oscillator. -/
theorem execReferenceInputChange_fails {t : State} (good : s.time.refOk = true) (timed : sleepOnOscillator s = t) :
    execReferenceInputChange false s = .next (raise 0x0707 false 0xFF (leBytes 1 0)
      (bump (ck 344 23 0) 1 { t with time := { t.time with refOk := false } })) := by
  subst timed
  exact if_neg (by simp [good])

end Reference

/-- Settles O50: each row under its occasion, an estimate by whether it qualifies. -/
theorem servosAct : Obligations.ServosAct := by
  refine ⟨?slew, ?holdover, ?sample, ?field, ?held, ?qualified, ?good, ?bad⟩
  case slew => exact fun s slews awake => execSlewEnd_slewing slews awake rfl
  case holdover => exact fun d s follows awake => execDomainHoldover_follows follows awake
  case sample =>
    exact fun d e age s => ⟨fun nothing => execServoSample_none nothing e age,
      fun v instant left => execServoSample_some left e age⟩
  case field => exact fun k r l s latest unused => execTodFieldSample_latest latest unused rfl
  case held => exact fun s loaded few => execAsymmetryEstimate_held loaded rfl few
  case qualified => exact fun s loaded two apart => execAsymmetryEstimate_qualified loaded rfl rfl two apart
  case good => exact fun s bad => execReferenceInputChange_qualifies bad
  case bad => exact fun s good => execReferenceInputChange_fails good rfl

/-! ### The snapshot (R310, R626) -/

/-- A snapshot is taken where bit 0 is written from READY on. -/
theorem execTimeSnap_taken {v : Word32} {s : State} (taken : v.getLsbD 0 = true) (ready : s.dev.ready = true) :
    execTimeSnap v s = .next { s with hif := { s.hif with snap := {
      seq := s.hif.snap.seq + 1, valid := true, status := BitVec.ofNat 9 (snapStatus s)
      main := BitVec.ofNat 96 (timeWord s), ts32 := BitVec.ofNat 32 (ts32 s)
      shadowA := BitVec.ofNat 96 (shadowNow s .a), shadowB := BitVec.ofNat 96 (shadowNow s .b)
      bound := BitVec.ofNat 32 (snapBound s) } } } := by
  simp only [execTimeSnap, taken, Bool.not_true, Bool.false_eq_true, if_false, afterReady_of_ready _ ready]

theorem execTimeSnap_none {v : Word32} (clear : v.getLsbD 0 = false) (s : State) : execTimeSnap v s = .next s := by
  simp only [execTimeSnap, clear, Bool.not_false, if_true]

/-! ### PPS_OUT and TOD_OUT (R337 to R339) -/

/-- PPS_OUT gives its edge at the next boundary, once the pulse in progress has completed. -/
theorem execPpsOutEdge_gives {k : Nat} {s t u : State} (enabled : s.time.ppsEnable = true)
    (free : s.time.ppsHeld = false) (awake : s.time.sleep = none) (fallen : passTo s.time.ppsFall s = t)
    (next : nextPps t.time = k) (reached : passMain ((k * secUnits : Nat) + nsUnits s.time.ppsOffset).toNat t = u) :
    execPpsOutEdge s = .next (emit (.pps s.time.ppsWidth) { u with time := { u.time with
      lastPps := some k, todDue := some (k, u.now), ppsFall := u.now + 1000 * s.time.ppsWidth } }) := by
  subst reached next fallen
  exact if_pos (by simp [enabled, free, awake])

theorem execTodOutMessage_due {k instant : Nat} {s t : State} (edge : s.time.todDue = some (k, instant))
    (awake : s.time.sleep = none) (reached : passTo (instant + ms 100) s = t) :
    execTodOutMessage s = .next (emit (.tod (todMessage t k)) { t with
      fresh := t.fresh + 1, time := { t.time with todDue := none } }) := by
  subst reached
  simp only [execTodOutMessage, edge, awake, Option.isNone_none, if_true]

/-! ### PPS_IN (R340, R546) -/

section Edge

variable {w : Nat} {s t : State}

theorem execPpsInEdge_narrow (narrow : w < 100000) : execPpsInEdge s w = .next (bump (ck 546 5 0) 1 s) :=
  if_pos narrow

/-- The edge of a pulse of 100 ns or more is taken when it has passed the filter. -/
theorem execPpsInEdge_wide (wide : 100000 ≤ w) (filtered : passTo (s.now + 5000) s = t) :
    execPpsInEdge s w = .next (takeEdge t) := by
  have passes : ¬ w < 5000 := by omega
  simp only [execPpsInEdge, deglitch, if_neg (Nat.not_lt.mpr wide), if_neg passes, filtered]

variable (idle : t.time.edgeAt = none)
include idle

/-- The first edge is accepted whenever it comes, and waits for its message. -/
theorem takeEdge_first (first : t.time.lastEdge = none) :
    takeEdge t = bump (ck 344 18 0) 1 { t with time := { t.time with
      lastEdge := some (t.time.b.shadow.add (-nsUnits 5))
      edgeAt := some (t.time.b.shadow.add (-nsUnits 5), t.now - 5000) } } := by
  simp only [takeEdge, idle, first, Option.isSome_none, Bool.false_eq_true, if_false, if_true]

/-- An edge more than 100 µs away from 1 s after the accepted one is counted as outside its window. -/
theorem takeEdge_outside {b : Beryl} (accepted : t.time.lastEdge = some b)
    (outside : 100000 * fracNs < (((t.time.b.shadow.add (-nsUnits 5)).total : Int) - b.total - secUnits).natAbs) :
    takeEdge t = bump (ck 344 20 0) 1 { t with time := { t.time with edgeAt := none } } := by
  simp only [takeEdge, idle, accepted, Option.isSome_none, Bool.false_eq_true, if_false,
    decide_eq_false (Nat.not_le.mpr outside)]

end Edge

/-! ### TOD_IN (R328, R340, R547) -/

section Message

variable {m : Bytes} {s : State}

theorem execTodInMessage_unframed (m : Bytes) (s : State) :
    execTodInMessage m s false = .next (bump (ck 547 16 0) 1 s) := rfl

theorem execTodInMessage_crc (wrong : todCrc m ≠ be m 14 2) :
    execTodInMessage m s true = .next (bump (ck 344 21 0) 1 s) :=
  (if_neg (by decide)).trans (if_pos wrong)

/-- A message of the right shape, at most 900 ms after its edge, names that edge's second; where PPS is the source
it makes the sample of domain B. -/
theorem execTodInMessage_names {edge : Beryl} {instant : Nat} {e : Int} {t : State} (right : todCrc m = be m 14 2)
    (waits : s.time.edgeAt = some (edge, instant)) (shape : todShape m = true) (timely : s.now ≤ instant + ms 900)
    (offset : ((edge.total : Int) - nsUnits s.time.ppsInDelay - (be m 4 6 * secUnits : Nat)) / (5 * 2 ^ 24) = e)
    (named : { s with time := { s.time with edgeAt := none } } = t) :
    execTodInMessage m s true = .next (if s.time.sourceB == .pps then
        modServo .b (fun x => { x with pending := some (e, instant) }) t
      else t) := by
  subst named
  simp only [execTodInMessage, right, waits, shape, timely, offset, decide_true, Bool.and_self, Bool.not_true,
    Bool.false_eq_true, ne_eq, not_true_eq_false, if_false, if_true]
  split <;> rfl

end Message

/-- What waits at a port for the host is delivered while the services run: the timestamps, then the lost tags
(R334, R335). -/
theorem execTimestampDrain_runs {p : Fin 16} {s : State} (runs : servicesRun s = true) :
    execTimestampDrain p s = .next ((tget [] s.time.lostTags p).foldl (fun s e => deliverLost p e s)
      ((tget [] s.time.txStamps p).foldl (fun s e => deliverStamp p e s) { s with time := { s.time with
        txStamps := tset [] s.time.txStamps p [], lostTags := tset [] s.time.lostTags p [] } })) :=
  if_neg (by simp [runs])

/-- Settles O51: each row under its occasion, an edge by its pulse and its window, a message by its frame and its
edge. -/
theorem timeInputsAndOutputs : Obligations.TimeInputsAndOutputs := by
  refine ⟨?snap, ?noSnap, ?pps, ?tod, ?narrow, ?first, ?outside, ?unframed, ?names, ?crc, ?drain⟩
  case snap => exact fun v s taken ready => execTimeSnap_taken taken ready
  case noSnap => exact fun v s clear => execTimeSnap_none clear s
  case pps => exact fun s enabled free awake => execPpsOutEdge_gives enabled free awake rfl rfl rfl
  case tod => exact fun k instant s edge awake => execTodOutMessage_due edge awake rfl
  case narrow => exact fun w s narrow => execPpsInEdge_narrow narrow
  case first =>
    intro w s wide idle first t edge
    exact (execPpsInEdge_wide wide rfl).trans (congrArg _ (takeEdge_first ((passTo_edgeAt ..).trans idle)
      ((passTo_lastEdge ..).trans first)))
  case outside =>
    intro w b s wide idle accepted t outside
    exact (execPpsInEdge_wide wide rfl).trans (congrArg _ (takeEdge_outside ((passTo_edgeAt ..).trans idle)
      ((passTo_lastEdge ..).trans accepted) outside))
  case unframed => exact execTodInMessage_unframed
  case names =>
    exact fun m edge instant s right waits shape timely => execTodInMessage_names right waits shape timely rfl rfl
  case crc => exact fun m s wrong => execTodInMessage_crc wrong
  case drain => exact fun p s runs => execTimestampDrain_runs runs

end Sys2Proof.Machine
end

section
/-! PROOFS. Client frames, the management lane, and Knarrasar's own protocols (O53). -/

namespace Sys2Proof.Machine

open Sys2Proof

/-! ### What the elastic buffers and a time stamp leave alone (R330, R381) -/

@[simp] theorem compensate_prt (l : Nat) (s : State) : (compensate l s).prt = s.prt := rfl

@[simp] theorem overrunLane_prt (l : Nat) (s : State) : (overrunLane l s).prt = s.prt := by
  simp only [overrunLane]
  split <;> rfl

theorem prt_forEach {f : Nat → State → State} (h : ∀ i t, (f i t).prt = t.prt) (l : List Nat) (s : State) :
    (forEach l f s).prt = s.prt := by
  induction l generalizing s with
  | nil => rfl
  | cons _ l ih => exact (ih _).trans (h _ s)

@[simp] theorem bufferLanes_prt (p : Nat) (pcsOk : Bool) (s : State) : (bufferLanes p pcsOk s).prt = s.prt := by
  refine prt_forEach (fun l t => ?_) _ s
  split
  · exact compensate_prt l t
  · exact (overrunLane_prt l _).trans (compensate_prt l t)

@[simp] theorem stampOn_prt (i : Nat) (s : State) : (stampOn i s).2.prt = s.prt := by
  simp only [stampOn]
  split <;> rfl

/-- A frame is judged by its port's settings as they stood before it. -/
theorem portOf_stamped (p i : Nat) (pcsOk : Bool) (s : State) :
    portOf (stampOn i (bufferLanes p pcsOk s)).2 p = portOf s p := by
  simp only [portOf, stampOn_prt, bufferLanes_prt]

/-! ### Client frames (R352) -/

/-- A port whose lanes run a far-end loopback sends back what it receives (R397). -/
theorem execClientFrameReceive_looped {p : Fin 17} {s : State} (looping : looped s p 3 = true) (f : Bytes)
    (room pcs : Bool) : execClientFrameReceive p f room pcs s = .next (emit (.clientFrame p f false) s) :=
  if_pos looping

theorem execClientFrameReceive_client {p : Fin 17} {s : State} (straight : looped s p 3 = false) (client : p.val ≠ 16)
    (f : Bytes) (room pcs : Bool) :
    execClientFrameReceive p f room pcs s = .next (takeClientFrame p f room pcs s) := by
  simp only [execClientFrameReceive, straight, client, Bool.false_eq_true, if_false]

theorem takeClientFrame_dark {p : Nat} {s : State} (dark : delineates s p = false) (f : Bytes) (room pcs : Bool) :
    takeClientFrame p f room pcs s = countLaneErrors p s := by
  simp only [takeClientFrame, dark, Bool.not_false, if_true]

section Checks

variable {p stamp : Nat} {f : Bytes} {room pcs : Bool} {s u : State} (delineated : delineates s p = true)
  (stamped : stampOn (10 + p / 4) (bufferLanes p pcs s) = (stamp, u))
include delineated stamped

/-- A frame that fails one of checks 1 to 3 is refused before its length is counted. -/
theorem takeClientFrame_early {r : Nat} (fault : earlyFault u p room pcs = some r) :
    takeClientFrame p f room pcs s = refuseFrame p r f stamp u := by
  simp only [takeClientFrame, delineated, stamped, fault, Bool.not_true, Bool.false_eq_true, if_false]

variable (passes : earlyFault u p room pcs = none)
include passes

/-- A frame that fails check 4 or 5 is counted by its length and refused. -/
theorem takeClientFrame_length {r : Nat} (fault : lengthFault (portOf s p) f = some r) :
    takeClientFrame p f room pcs s = refuseFrame p r f stamp (bump (ck 369 (5 + lengthBin f.length) p) 1 u) := by
  simp only [takeClientFrame, delineated, stamped, passes, fault, Bool.not_true, Bool.false_eq_true, if_false]

/-- A frame of good length goes on to checks 6 to 11. -/
theorem takeClientFrame_judged (fits : lengthFault (portOf s p) f = none) :
    takeClientFrame p f room pcs s = judgeFrame p f stamp (bump (ck 369 (5 + lengthBin f.length) p) 1 u) := by
  simp only [takeClientFrame, delineated, stamped, passes, fits, Bool.not_true, Bool.false_eq_true, if_false]

end Checks

/-! ### The management lane (R368) -/

theorem execClientFrameReceive_mgmt {p : Fin 17} {s : State} (lane : p.val = 16) (straight : looped s 16 3 = false)
    (f : Bytes) (room pcs : Bool) : execClientFrameReceive p f room pcs s = .next (takeMgmtFrame f pcs s) := by
  simp only [execClientFrameReceive, lane, straight, Bool.false_eq_true, if_false, if_true]

section Mgmt

variable {f b : Bytes} {s : State} (up : mgmtUp s = true)
  (spelt : unrepeat (sgmiiRepeat s.prt.mgmtMode) f = b) (good : fcsOk b = true)
include up spelt good

/-- A good frame that the filter does not pass is counted. -/
theorem takeMgmtFrame_filtered (filtered : passesMgmt s b = false) :
    takeMgmtFrame f true s = bump (ck 369 111 16) 1 (compensate 20 s) := by
  simp only [takeMgmtFrame, up, spelt, good, filtered, Bool.not_true, Bool.not_false, Bool.or_self,
    Bool.false_eq_true, if_false, if_true]

variable (passes : passesMgmt s b = true)
include passes

theorem takeMgmtFrame_long (long : 1522 < b.length) :
    takeMgmtFrame f true s = bump (ck 369 112 16) 1 (compensate 20 s) := by
  simp only [takeMgmtFrame, up, spelt, good, passes, Bool.not_true, Bool.or_self, Bool.false_eq_true, if_false,
    if_pos long]

theorem takeMgmtFrame_kept (short : b.length ≤ 1522) (plain : divertOf s 16 b = none) :
    takeMgmtFrame f true s = bump (ck 369 1 16) b.length (bump (ck 369 0 16) 1 (compensate 20 s)) := by
  simp only [takeMgmtFrame, up, spelt, good, passes, plain, Bool.not_true, Bool.or_self, Bool.false_eq_true, if_false,
    if_neg (Nat.not_lt.mpr short)]

end Mgmt

/-! ### Protocol frames and timers (R329, R355, R547) -/

section Protocol

variable {p : Fin 17} {k : ProtocolKind} {f : Bytes} {instant : Nat} {l : List (ProtocolKind × Bytes × Nat)}
  {s : State}

section Oldest

variable (oldest : (portOf s p).diverted = (k, f, instant) :: l)
include oldest

/-- The oldest diverted frame has its effect while its service runs; MKA verifies its ICV first. -/
theorem execProtocolFrame_served (on : serviceOn s p k = true) (a : ProtocolAct) : execProtocolFrame p a s
    = .next (protocolEffect p k (judged s k f a) instant (recordFrame p (judged s k f a == .reject) f (countCheck p k f
      (if k == .mka && (macsecOf s p).mkaUp then verifyIcv p f (modPort p (fun x => { x with diverted := l }) s)
        else modPort p (fun x => { x with diverted := l }) s)))) := by
  simp only [execProtocolFrame, oldest, on, if_true]

theorem execProtocolFrame_unserved (off : serviceOn s p k = false) (a : ProtocolAct) :
    execProtocolFrame p a s = .next (modPort p (fun x => { x with diverted := l }) s) := by
  simp only [execProtocolFrame, oldest, off, Bool.false_eq_true, if_false]

end Oldest

/-- A protocol's timer sends its frames while the service runs, MKA's while MKA is up. -/
theorem execProtocolTimer_runs {t : State} (on : serviceOn s p k = true)
    (live : k = .mka → (macsecOf s p).mkaUp = true)
    (expired : passTo (tget 0 (portOf s p).timerAt (divertRow k) + timerPeriod s p k) s = t) :
    execProtocolTimer k p s = .next ((timerFrames t p k).foldl
      (fun s f => if p.val = 16 then sendMgmt f s else injectFrame p f s) (modPort p (fun x => { x with
        timerAt := tset 0 x.timerAt (divertRow k) t.now
        announces := if k == .ptp then !x.announces else x.announces }) t)) := by
  subst expired
  refine if_pos ?_
  by_cases mka : k = .mka
  · simp [on, live mka]
  · simp [on, mka]

/-- The port leaves SLAVE. -/
theorem execPtpTimeout_slave {p : Fin 16} (runs : servicesRun s = true) (slave : s.time.slave = some p.val) :
    execPtpTimeout p s = .next { s with time := { s.time with slave := none } } :=
  if_pos (by simp [runs, slave])

end Protocol

/-- Settles O53: a client frame by the first check that it fails, one on the management lane by filter and length,
a diverted frame by its protocol and its service. -/
theorem clientFramesAreJudged : Obligations.ClientFramesAreJudged := by
  refine ⟨?looped, ?client, ?dark, ?mgmt, ?frame, ?timer, ?timeout⟩
  case looped => exact fun p f room pcs s looping => execClientFrameReceive_looped looping f room pcs
  case client =>
    intro p f room pcs s client straight delineated d t
    have port : portOf t p = portOf s p := portOf_stamped ..
    have taken := execClientFrameReceive_client straight client f room pcs
    rw [port]
    exact ⟨fun r fault => taken.trans (congrArg _ (takeClientFrame_early delineated rfl fault)),
      fun r passes fault => taken.trans (congrArg _ (takeClientFrame_length delineated rfl passes fault)),
      fun passes fits => taken.trans (congrArg _ (takeClientFrame_judged delineated rfl passes fits))⟩
  case dark =>
    exact fun p f room pcs s client straight dark => (execClientFrameReceive_client straight client f room pcs).trans
      (congrArg _ (takeClientFrame_dark dark f room pcs))
  case mgmt =>
    intro f room s straight up b t good
    have taken := execClientFrameReceive_mgmt (p := 16) rfl straight f room true
    exact ⟨fun filtered => taken.trans (congrArg _ (takeMgmtFrame_filtered up rfl good filtered)),
      fun passes long => taken.trans (congrArg _ (takeMgmtFrame_long up rfl good passes long)),
      fun passes short plain => taken.trans (congrArg _ (takeMgmtFrame_kept up rfl good passes short plain))⟩
  case frame =>
    intro p a k f instant l s oldest t j
    refine ⟨fun on other => (execProtocolFrame_served oldest on a).trans ?_,
      fun on mka live => (execProtocolFrame_served oldest on a).trans ?_,
      fun off => execProtocolFrame_unserved oldest off a⟩
    · rw [if_neg (by simp [other])]
    · rw [if_pos (by simp [mka, live])]
  case timer => exact fun k p s on live => execProtocolTimer_runs on live rfl
  case timeout => exact fun p s runs slave => execPtpTimeout_slave runs slave

end Sys2Proof.Machine
end

section
/-! PROOFS. The port commands (O33). -/

namespace Sys2Proof.Machine

open Sys2Proof

/-- Under the economy profile only ports 0 to 7 take a MODE other than 0 (R43). -/
theorem economyRefusal_eq_false {a : Bytes} {t : State}
    (within : t.dev.selected ≠ .economy ∨ descMode (le a 8 8) = 0 ∨ byteAt a 0 < 8) :
    (t.dev.selected == .economy && descMode (le a 8 8) != 0 && decide (byteAt a 0 ≥ 8)) = false := by
  rcases within with otherProfile | noMode | low
  · simp [otherProfile]
  · simp [noMode]
  · simp [low]

/-- A descriptor is written to a port that is free for it, within the profile and within the sum of MACsec rates
(R43, R276, R347). -/
theorem cmdPortConfigure_run (n : Nat) (a : Bytes) (t : State)
    (fit : portBusy t (byteAt a 0) (le a 8 8) = false
      ∧ (t.dev.selected ≠ .economy ∨ descMode (le a 8 8) = 0 ∨ byteAt a 0 < 8)
      ∧ (macsecRate (le a 8 8) = 0 ∨ macsecSum t (byteAt a 0) (le a 8 8) ≤ 1500)) :
    cmdPortConfigure.run n a t = done (writePort (byteAt a 0) (BitVec.ofNat 64 (le a 8 8)) t) := by
  obtain ⟨free, within, rate⟩ := fit
  have served : ¬(macsecRate (le a 8 8) ≠ 0 ∧ macsecSum t (byteAt a 0) (le a 8 8) > 1500) := by omega
  simp only [cmdPortConfigure, free, economyRefusal_eq_false within, served, Bool.false_eq_true, if_false]

/-- Settles O33: of the eight commands only PORT_CONFIGURE has conditions of its own. -/
theorem portCommandsComplete : Obligations.PortCommandsComplete := by
  refine ⟨?configure, ?filter, ?address, ?aggregation, ?mgmt, ?lldp, ?status, ?counters⟩
  case configure => exact completes_of_run (fun _ _ => rfl) cmdPortConfigure_run
  case filter => exact completes_of_run (fun _ _ => rfl) fun _ _ _ _ => rfl
  case address => exact completes_of_run (fun _ _ => rfl) fun _ _ _ _ => rfl
  case aggregation => exact completes_of_run (fun _ _ => rfl) fun _ _ _ _ => rfl
  case mgmt => exact completes_of_run (fun _ _ => rfl) fun _ _ _ _ => rfl
  case lldp => exact completes_of_run (fun _ _ => rfl) fun _ _ _ _ => rfl
  case status => exact completes_of_run (fun _ _ => rfl) fun _ _ _ _ => rfl
  case counters => exact completes_of_run (fun _ _ => rfl) fun _ _ _ _ => rfl

end Sys2Proof.Machine
end

section
/-! SUPPORT. What every row of the table does, whatever its operands: it answers a next state, and it leaves the queue
alone and the mailboxes and the journal in order. -/

namespace Sys2Proof.Machine

open Sys2Proof

/-! ### Every row answers a next state -/

theorem next_self (s : State) : (∃ t, (.next s : Answer) = .next t) ↔ True := ⟨fun _ => trivial, fun _ => ⟨s, rfl⟩⟩

theorem next_ite (c : Prop) [Decidable c] (a b : Answer) :
    (∃ t, (if c then a else b) = .next t) ↔ (if c then ∃ t, a = .next t else ∃ t, b = .next t) := by
  split <;> rfl

theorem next_of_ite (c : Prop) [Decidable c] {a b : Answer} (ha : ∃ t, a = .next t) (hb : ∃ t, b = .next t) :
    ∃ t, (if c then a else b) = .next t := by
  split
  · exact ha
  · exact hb

theorem execPfeFrame_next (ch : Fin 4) (x : Unit) (s : State) : ∃ t, execPfeFrame ch x s = .next t := by
  unfold execPfeFrame
  refine next_of_ite _ ⟨_, rfl⟩ (next_of_ite _ ⟨_, rfl⟩ ?_)
  split
  · exact ⟨_, rfl⟩
  · exact next_of_ite _ ⟨_, rfl⟩ (next_of_ite _ ⟨_, rfl⟩ ⟨_, rfl⟩)

/-- Every branch of a row that is no access of the host ends in a next state. -/
theorem exec_next_of_row (c : Instr) (s : State) (row : ∀ b a, c ≠ .unsupportedRequest b a) :
    ∃ t, exec c s = .next t := by
  cases c
  case unsupportedRequest b a => exact absurd rfl (row b a)
  case pfeFrame ch x => exact execPfeFrame_next ch x s
  -- Rows with one effect in every state.
  case mbxDoneClear | mbxIrqEnWrite | evtEnable | evtDisable | evtConsumerWrite | msixModWrite | hringRxTailWrite |
      hringTxTailWrite | jrnWindowSeqWrite | faultStatusClear | busMasterDisable | pciPmD3hot | busMasterEnable |
      functionLevelReset | perstNLow | deviceReadState | deviceStart | deviceStop | deviceSetProfile |
      deviceSetRing | deviceEnterMaintenance | deviceLeaveMaintenance | deviceLeaveSafe | deviceReset |
      deviceEraseKeys | deviceNop | deviceReadIdentity | fibreSetChannel | fibreSetBond | fibreSetGroups |
      fibreSetPortId | fibreSetUpstream | fibreSetAllocQueues | fibreSetHeKey | fibreSetPolicy | fibreReadStatus |
      fibreReadCounters | parseLoad | parseInstall | rulesSetComparator | rulesBegin | rulesAdd | rulesRemove |
      rulesAbort | rulesCommit | rulesRead | tableSetProfile | tableAdd | tableModify | tableDelete | tableRead |
      tableSetPort | tableSetVlan | tableSetAging | tableReadAged | trafficSetQueue | trafficFlushQueue |
      trafficSetPolicer | trafficSetShaper | trafficSetPause | trafficSetGate | trafficSetHistogram | trafficRead |
      trafficReadHistogram | cipherSetCak | cipherSetMacsec | cipherSetThreshold | cipherReadStatus | timeSet |
      timeStep | timeSetServo | timeSelectDomain | timeSetFibre | timeReadFibre | timeSetSource | timeSetIo |
      timeSetPtp | timeReadStatus | portConfigure | portSetFilter | portSetAddress | portSetAggregation |
      portSetMgmt | portSetLldp | portReadStatus | portReadCounters | laneConfigure | laneSetTest | laneInject |
      laneReadStatus | laneReadCounters | powerSetState | powerSetCap | powerSetDroop | powerReadStatus |
      obsSetCounter | obsSetDump | obsReadGroup | obsSetSampling | obsReadAudit | obsSetIpfix | obsSetTrap |
      obsReadDrops | obsSetEcc | journalRead | recorderSet | recorderRead | maintReadVersion | maintFlashWrite |
      maintSelectImage | maintSelfTest | maintReplay | maintAbort | underVoltageLockout | pgoodInTransition | alarm
      | lockstepMismatch | txfaultTransition | profile | rangingParams | assignStation | rangingTime | deactivate |
      silence | allocation | heKey | keySwitch | dozeReply | dozeEnd | sectionCommit | sojournCheck | shaperRefill
      | mergeRetire | eccBucketLeak | wakeSource | perstNRelease => exact ⟨_, rfl⟩
  -- Rows whose answer is found by cases on what the state holds.
  case mbxDoorbell | jrnWindowCopyDone | rcFieldRead | commandDeadlineExpiry | backgroundCommandDone | bootSelect |
      imageConfirm | hiveMemoryError | throttleRelease | degradedEvaluation | todInMessage | pauseTimerExpiry |
      protocolFrame | huntMatch | candidateTest | todFieldSample | servoSample | todOutMessage | stationMessage |
      epochSwitchApply | epochRetire | consequentAction | channelRestore | stagingAdmit | burstLaunch | burstEnd |
      cipherRequest | keyDerivationDone | pipelineStart | bulkShare | cipherResult | pipelinePass | learnCandidate
      | learnCompletion | agingVisit | rulesRetire | enqueue | transmitStart | egressFrameEnd | spillReadback |
      gateChange | gateListSwitch | gateHoldTest | hostRxDeliver | hostTxFetch | eccFilterExpiry | restoration |
      domainIdleOff | powerStateChangeDone | dumpDone | ipfixRecord | ipfixTemplate | opticDiagRead |
      eventBacklogDrain | receiveLpi | unknownOpcode | counterAccumulation =>
    dsimp only [exec, execMbxDoorbell, execJrnWindowCopyDone, execRcFieldRead, execCommandDeadlineExpiry,
      execBackgroundCommandDone, execBootSelect, execImageConfirm, execHiveMemoryError, execThrottleRelease,
      execDegradedEvaluation, execTodInMessage, execPauseTimerExpiry, execProtocolFrame, execHuntMatch,
      execCandidateTest, execTodFieldSample, execServoSample, execTodOutMessage, execStationMessage,
      execEpochSwitchApply, execEpochRetire, execConsequentAction, execChannelRestore, execStagingAdmit,
      execBurstLaunch, execBurstEnd, execCipherRequest, execKeyDerivationDone, execPipelineStart, execBulkShare,
      execCipherResult, execPipelinePass, execLearnCandidate, execLearnCompletion, execAgingVisit, execRulesRetire,
      execEnqueue, execTransmitStart, execEgressFrameEnd, execSpillReadback, execGateChange, execGateListSwitch,
      execGateHoldTest, execHostRxDeliver, execHostTxFetch, execEccFilterExpiry, execRestoration,
      execDomainIdleOff, execPowerStateChangeDone, execDumpDone, execIpfixRecord, execIpfixTemplate,
      execOpticDiagRead, execEventBacklogDrain, execReceiveLpi, execUnknownOpcode, execCounterAccumulation]
    (repeat' split) <;> exact ⟨_, rfl⟩
  -- Rows whose answer depends on conditions.
  all_goals simp only [exec, execMbxStatusRead, execMailboxWrite, execTimeSnap, execMdioCmdGo, execMdioFrameDone,
    execRegisterWrite, execRegisterLowWordWrite, execRegisterLowWordRead, execPowerOn, execResetRelease,
    execPinReset, execLoadingComplete, execRefclk156Qualify, execRefclk156Loss, execDyingGaspClear, execVinSample,
    execVioOptLow, execVioOptRestore, execEraseDone, execTamperCheck, execWatchdog, execThermalConversion,
    execSensorFailed, execDroopSag, execDroopStretchEnd, execPowerCapEvaluation, execGpioInputTransition,
    execReferenceInputChange, execPpsInEdge, execLaneDetector, execEnergyDetect, execLaneDeepEntryDone,
    execLaneReady, execCheckerLockChange, execLinkUp, execLinkDown, execAnRestart, execLpiEntry,
    execClientFrameReceive, execPtpTimeout, execPresyncTest, execSyncFrameTest, execDownstreamFrame,
    execSignalFailWindow, execSignalDegradeWindow, execBondWaitExpiry, execBondReservationFree,
    execAsymmetryEstimate, execDomainHoldover, execSlewEnd, execPpsOutEdge, execTimestampDrain,
    execRegistrationTimeout, execRangingTimerExpiry, execF6TimerExpiry, execRekeyInterval, execTagFailureCheck,
    execXoffRefresh, execScrubRead, execDomainWake, execD2Entry, execD2ExitDone, execD3EntryDone, execD3ExitDone,
    execAuditPoint, execCollectorResolve, execCheckpoint, execRandomReseed, execMsixHoldoffExpiry,
    execLinkConditionChange, execAutoNegotiationComplete, execMgmtSynchronisationChange, execJtagInstruction,
    execSustainedSag, execProtocolTimer,
    ↓next_ite, ↓next_self, ite_self]

/-- A write of BAR2 is the row of its register. -/
theorem bar2Write_next (off : Nat) (v : Word32) (s : State) : ∃ t, bar2Write off v s = .next t := by
  have row : ∀ c : Instr, (∀ b a, c ≠ .unsupportedRequest b a) → ∃ t, exec c s = .next t :=
    fun c => exec_next_of_row c s
  exact next_of_ite _ (row (.mbxDoorbell v) nofun) <| next_of_ite _ (row (.mbxDoneClear v 0) nofun) <|
    next_of_ite _ (row (.mbxIrqEnWrite v) nofun) <| next_of_ite _ (row (.faultStatusClear v 0) nofun) <|
    next_of_ite _ (next_of_ite _ (row .evtEnable nofun) (row .evtDisable nofun)) <|
    next_of_ite _ (row (.registerLowWordWrite off v) nofun) <| next_of_ite _ (row (.evtConsumerWrite v) nofun) <|
    next_of_ite _ (row (.jrnWindowSeqWrite v) nofun) <| next_of_ite _ (row (.timeSnap v) nofun) <|
    next_of_ite _ (row (.mdioCmdGo v) nofun) <| next_of_ite _ (row (.msixModWrite _ v) nofun) <|
    next_of_ite _ (row (.hringRxTailWrite _ v) nofun) <| next_of_ite _ (row (.hringTxTailWrite _ v) nofun) <|
    row (.registerWrite off v) nofun

theorem bar0Read_next (off len : Nat) (s : State) : ∃ t, bar0Read off len s = .next t := by
  unfold bar0Read
  split
  · exact ⟨_, rfl⟩
  · dsimp only
    split
    · obtain ⟨t, answers⟩ := exec_next_of_row (.mbxStatusRead (Fin.ofNat 16 (off / 4096))) s nofun
      rw [show execMbxStatusRead _ s = .next t from answers]
      exact ⟨_, rfl⟩
    · exact ⟨_, rfl⟩

theorem bar2Read_next (off : Nat) (s : State) : ∃ t, bar2Read off s = .next t := by
  unfold bar2Read
  split
  · exact exec_next_of_row (.registerLowWordRead off) s nofun
  · simp only [next_ite, next_self, ite_self]

/-- An access of the host is refused, or answered by its BAR or by configuration space. -/
theorem execUnsupportedRequest_next (b : Bar) (a : Option HostAccess) (s : State) :
    ∃ t, execUnsupportedRequest b s a = .next t := by
  cases a with
  | none => exact ⟨_, rfl⟩
  | some a =>
    show ∃ t, access b a s = .next t
    unfold access
    split
    · exact bar0Read_next ..
    · split
      · exact bar2Read_next ..
      · exact ⟨_, rfl⟩
    · exact ⟨_, rfl⟩
    · exact exec_next_of_row (.mailboxWrite _ _ _) s nofun
    · split
      · exact bar2Write_next ..
      · exact ⟨_, rfl⟩
    · exact ⟨_, rfl⟩
    · simp only [next_ite, next_self, ite_self]
    · simp only [next_ite, next_self, ite_self]

theorem exec_next (c : Instr) (s : State) : ∃ t, exec c s = .next t := by
  by_cases row : ∃ b a, c = .unsupportedRequest b a
  · obtain ⟨b, a, rfl⟩ := row
    exact execUnsupportedRequest_next b a s
  · exact exec_next_of_row c s fun b a e => row ⟨b, a, e⟩

/-! ### Rows that leave the ledger alone -/

/-- Lane detectors, the energy detector and the management lane, with what they have measured. -/
theorem execLaneDetector_ledger_seen (l : Fin 21) (d : Detector) (raised : Bool) (seen : Option LaneSeen) (s : State) :
    ∀ t, execLaneDetector l d raised s seen = .next t → t.ledger = s.ledger :=
  ledger_of_ite s _ _ _ (ledger_of_next rfl) (ledger_of_next (setDetector_ledger ..))

theorem execEnergyDetect_ledger_seen (l : Fin 21) (seen : Option LaneSeen) (s : State) :
    ∀ t, execEnergyDetect l s seen = .next t → t.ledger = s.ledger :=
  ledger_of_ite s _ _ _ (ledger_of_next rfl) (ledger_of_ite s _ _ _ (ledger_of_next (modLane_ledger ..))
    (ledger_of_ite s _ _ _ (ledger_of_next (reportEnergy_ledger ..)) (ledger_of_next rfl)))

theorem execMgmtSynchronisationChange_ledger_seen (acquired : Bool) (sets commas : Nat) (s : State) :
    ∀ t, execMgmtSynchronisationChange acquired s sets commas = .next t → t.ledger = s.ledger := by
  refine ledger_of_ite s _ _ _ (ledger_of_next rfl) (ledger_of_ite s _ _ _ (ledger_of_next ?_) (ledger_of_next ?_))
  · rw [bump_ledger, countCodeErrors_ledger]
  · rw [raise_ledger, bump_ledger, countCodeErrors_ledger]
    rfl

/-- The rows outside `touchesMailbox` that change the device state: the evaluation of R443, the release from reset and
the qualification of REFCLK156 (R442). -/
def movesState : Instr → Bool
  | .degradedEvaluation | .resetRelease _ | .refclk156Qualify => true
  | _ => false

/-- Any other row outside `touchesMailbox` leaves the queue, the mailboxes, the journal and the device state alone. -/
theorem exec_ledger {c : Instr} (s : State) (untouched : touchesMailbox c = false) (still : movesState c = false) :
    ∀ t, exec c s = .next t → t.ledger = s.ledger := by
  cases c with
  | mbxDoneClear v same => exact execMbxDoneClear_ledger v same s
  | mbxIrqEnWrite v => exact execMbxIrqEnWrite_ledger v s
  | evtEnable => exact execEvtEnable_ledger s
  | evtDisable => exact execEvtDisable_ledger s
  | evtConsumerWrite v => exact execEvtConsumerWrite_ledger v s
  | msixModWrite vec v => exact execMsixModWrite_ledger vec v s
  | hringRxTailWrite r v => exact execHringRxTailWrite_ledger r v s
  | hringTxTailWrite r v => exact execHringTxTailWrite_ledger r v s
  | jrnWindowSeqWrite v => exact execJrnWindowSeqWrite_ledger v s
  | jrnWindowCopyDone => exact execJrnWindowCopyDone_ledger s
  | timeSnap v => exact execTimeSnap_ledger v s
  | faultStatusClear v same => exact execFaultStatusClear_ledger v same s
  | mdioCmdGo v => exact execMdioCmdGo_ledger v s
  | mdioFrameDone found data => exact execMdioFrameDone_ledger found data s
  | registerWrite off v => exact execRegisterWrite_ledger off v s
  | registerLowWordWrite off v => exact execRegisterLowWordWrite_ledger off v s
  | registerLowWordRead off => exact execRegisterLowWordRead_ledger off s
  | rcFieldRead f event => exact execRcFieldRead_ledger f event s
  | busMasterDisable => exact execBusMasterDisable_ledger s
  | pciPmD3hot => exact execPciPmD3hot_ledger s
  | busMasterEnable => exact execBusMasterEnable_ledger s
  | functionLevelReset => exact execFunctionLevelReset_ledger s
  | perstNLow held => exact execPerstNLow_ledger s held
  | bootSelect readMode slow => exact execBootSelect_ledger readMode s slow
  | imageConfirm => exact execImageConfirm_ledger s
  | refclk156Loss => exact execRefclk156Loss_ledger s
  | pgoodInTransition level held => exact execPgoodInTransition_ledger level s held
  | dyingGaspClear => exact execDyingGaspClear_ledger s
  | vioOptLow held => exact execVioOptLow_ledger s held
  | vioOptRestore held => exact execVioOptRestore_ledger s held
  | throttleRelease => exact execThrottleRelease_ledger s
  | sensorFailed sensor => exact execSensorFailed_ledger sensor s
  | droopSag d => exact execDroopSag_ledger d s
  | droopStretchEnd d => exact execDroopStretchEnd_ledger d s
  | powerCapEvaluation mW => exact execPowerCapEvaluation_ledger mW s
  | txfaultTransition ch level held => exact execTxfaultTransition_ledger ch level s held
  | gpioInputTransition pin level held => exact execGpioInputTransition_ledger pin level s held
  | referenceInputChange qualified => exact execReferenceInputChange_ledger qualified s
  | ppsInEdge width => exact execPpsInEdge_ledger s width
  | todInMessage msg framed => exact execTodInMessage_ledger msg s framed
  | laneDetector lane det raised seen => exact execLaneDetector_ledger_seen lane det raised seen s
  | energyDetect lane seen => exact execEnergyDetect_ledger_seen lane seen s
  | laneDeepEntryDone lane => exact execLaneDeepEntryDone_ledger lane s
  | laneReady lane signal snr => exact execLaneReady_ledger lane signal snr s
  | checkerLockChange lane locked bits bitErrors symErrors =>
    exact execCheckerLockChange_ledger lane locked bits bitErrors symErrors s
  | linkUp p => exact execLinkUp_ledger p s
  | linkDown p => exact execLinkDown_ledger p s
  | anRestart p fecFailed => exact execAnRestart_ledger p fecFailed s
  | lpiEntry p => exact execLpiEntry_ledger p s
  | clientFrameReceive p frame room pcsOk => exact execClientFrameReceive_ledger p frame room pcsOk s
  | pauseTimerExpiry p => exact execPauseTimerExpiry_ledger p s
  | protocolFrame p act => exact execProtocolFrame_ledger p act s
  | ptpTimeout p => exact execPtpTimeout_ledger p s
  | huntMatch ch offset window => exact execHuntMatch_ledger ch offset window s
  | candidateTest ch slot window word0 => exact execCandidateTest_ledger ch slot window word0 s
  | presyncTest ch window word0 => exact execPresyncTest_ledger ch window word0 s
  | syncFrameTest ch window => exact execSyncFrameTest_ledger ch window s
  | downstreamFrame ch f => exact execDownstreamFrame_ledger ch f s
  | signalFailWindow ch => exact execSignalFailWindow_ledger ch s
  | signalDegradeWindow ch => exact execSignalDegradeWindow_ledger ch s
  | pfeFrame ch none_ => exact execPfeFrame_ledger ch none_ s
  | bondWaitExpiry => exact execBondWaitExpiry_ledger s
  | bondReservationFree ch => exact execBondReservationFree_ledger ch s
  | todFieldSample => exact execTodFieldSample_ledger s
  | asymmetryEstimate => exact execAsymmetryEstimate_ledger s
  | servoSample d e age => exact execServoSample_ledger d e age s
  | domainHoldover d => exact execDomainHoldover_ledger d s
  | slewEnd => exact execSlewEnd_ledger s
  | ppsOutEdge => exact execPpsOutEdge_ledger s
  | todOutMessage => exact execTodOutMessage_ledger s
  | timestampDrain p => exact execTimestampDrain_ledger p s
  | stationMessage => exact execStationMessage_ledger s
  | profile => exact execProfile_ledger s
  | rangingParams => exact execRangingParams_ledger s
  | assignStation => exact execAssignStation_ledger s
  | rangingTime => exact execRangingTime_ledger s
  | deactivate => exact execDeactivate_ledger s
  | silence => exact execSilence_ledger s
  | allocation => exact execAllocation_ledger s
  | heKey => exact execHeKey_ledger s
  | registrationTimeout g => exact execRegistrationTimeout_ledger g s
  | keySwitch => exact execKeySwitch_ledger s
  | epochSwitchApply g => exact execEpochSwitchApply_ledger g s
  | epochRetire g => exact execEpochRetire_ledger g s
  | dozeEnd => exact execDozeEnd_ledger s
  | rangingTimerExpiry ch => exact execRangingTimerExpiry_ledger ch s
  | f6TimerExpiry ch => exact execF6TimerExpiry_ledger ch s
  | rekeyInterval g => exact execRekeyInterval_ledger g s
  | consequentAction ch t => exact execConsequentAction_ledger ch t s
  | channelRestore ch => exact execChannelRestore_ledger ch s
  | stagingAdmit alloc => exact execStagingAdmit_ledger alloc s
  | sectionCommit ch => exact execSectionCommit_ledger ch s
  | burstLaunch ch => exact execBurstLaunch_ledger ch s
  | burstEnd ch => exact execBurstEnd_ledger ch s
  | cipherRequest src => exact execCipherRequest_ledger src s
  | keyDerivationDone => exact execKeyDerivationDone_ledger s
  | pipelineStart p => exact execPipelineStart_ledger p s
  | bulkShare p => exact execBulkShare_ledger p s
  | cipherResult p => exact execCipherResult_ledger p s
  | tagFailureCheck => exact execTagFailureCheck_ledger s
  | pipelinePass slice reads => exact execPipelinePass_ledger slice s reads
  | learnCandidate => exact execLearnCandidate_ledger s
  | learnCompletion => exact execLearnCompletion_ledger s
  | agingVisit way index => exact execAgingVisit_ledger way index s
  | rulesRetire => exact execRulesRetire_ledger s
  | enqueue => exact execEnqueue_ledger s
  | xoffRefresh p c => exact execXoffRefresh_ledger p c s
  | transmitStart p => exact execTransmitStart_ledger p s
  | egressFrameEnd p uncorrectable => exact execEgressFrameEnd_ledger p uncorrectable s
  | sojournCheck q => exact execSojournCheck_ledger q s
  | spillReadback q => exact execSpillReadback_ledger q s
  | shaperRefill => exact execShaperRefill_ledger s
  | gateChange target => exact execGateChange_ledger target s
  | gateListSwitch target => exact execGateListSwitch_ledger target s
  | gateHoldTest q => exact execGateHoldTest_ledger q s
  | hostRxDeliver r bufAddr => exact execHostRxDeliver_ledger r bufAddr s
  | hostTxFetch r desc data => exact execHostTxFetch_ledger r desc data s
  | eccBucketLeak region => exact execEccBucketLeak_ledger region s
  | eccFilterExpiry region addr => exact execEccFilterExpiry_ledger region addr s
  | domainWake d crcOk => exact execDomainWake_ledger d crcOk s
  | domainIdleOff d => exact execDomainIdleOff_ledger d s
  | wakeSource w => exact execWakeSource_ledger w s
  | auditPoint none_ => exact execAuditPoint_ledger none_ s
  | dumpDone => exact execDumpDone_ledger s
  | ipfixRecord e reason => exact execIpfixRecord_ledger e reason s
  | ipfixTemplate => exact execIpfixTemplate_ledger s
  | collectorResolve resolved => exact execCollectorResolve_ledger resolved s
  | opticDiagRead ch page => exact execOpticDiagRead_ledger ch page s
  | checkpoint => exact execCheckpoint_ledger s
  | randomReseed => exact execRandomReseed_ledger s
  | eventBacklogDrain => exact execEventBacklogDrain_ledger s
  | msixHoldoffExpiry vec => exact execMsixHoldoffExpiry_ledger vec s
  | linkConditionChange p aligned fecLock localFault remoteFault =>
    exact execLinkConditionChange_ledger p aligned fecLock localFault remoteFault s
  | autoNegotiationComplete p rsFec trained precode =>
    exact execAutoNegotiationComplete_ledger p rsFec trained s precode
  | mgmtSynchronisationChange acquired sets commas =>
    exact execMgmtSynchronisationChange_ledger_seen acquired sets commas s
  | receiveLpi lane phase => exact execReceiveLpi_ledger lane phase s
  | perstNRelease held => exact execPerstNRelease_ledger s held
  | jtagInstruction j => exact execJtagInstruction_ledger j s
  | sustainedSag d => exact execSustainedSag_ledger d s
  | protocolTimer kind p => exact execProtocolTimer_ledger kind p s
  | counterAccumulation => exact execCounterAccumulation_ledger s
  | unsupportedRequest b access =>
    rw [show access = none from Option.not_isSome_iff_eq_none.mp (Bool.not_eq_true _ ▸ untouched)]
    exact execUnsupportedRequest_ledger b s
  | degradedEvaluation => exact absurd still Bool.noConfusion
  | refclk156Qualify => exact absurd still Bool.noConfusion
  | resetRelease held => exact absurd still Bool.noConfusion
  | _ => exact absurd untouched Bool.noConfusion

/-! ### Every row is calm -/

/-- Every row leaves the queue alone and keeps the mailboxes and the journal in order; all but DEVICE_LEAVE_SAFE and the
end of loading leave a halted device halted. -/
theorem exec_calm {hd : Bool} (c : Instr) (s : State)
    (stays : hd = true → (∀ n, c ≠ .deviceLeaveSafe n) ∧ c ≠ .loadingComplete) :
    ∀ t, exec c s = .next t → Calm hd s t := by
  cases c with
  | mbxDoorbell v => exact execMbxDoorbell_calm v s
  | mbxStatusRead n => exact execMbxStatusRead_calm n s
  | mailboxWrite n off data => exact execMailboxWrite_calm n off data s
  | commandDeadlineExpiry n items internal => exact execCommandDeadlineExpiry_calm n items s internal
  | deviceReadState n => exact calm_of_next (takeUp_calm _ cmdDeviceReadState_calm n s)
  | deviceStart n => exact calm_of_next (takeUp_calm _ cmdDeviceStart_calm n s)
  | deviceStop n => exact calm_of_next (takeUp_calm _ cmdDeviceStop_calm n s)
  | deviceSetProfile n => exact calm_of_next (takeUp_calm _ cmdDeviceSetProfile_calm n s)
  | deviceSetRing n => exact calm_of_next (takeUp_calm _ cmdDeviceSetRing_calm n s)
  | deviceEnterMaintenance n => exact calm_of_next (takeUp_calm _ cmdDeviceEnterMaintenance_calm n s)
  | deviceLeaveMaintenance n => exact calm_of_next (takeUp_calm _ cmdDeviceLeaveMaintenance_calm n s)
  | deviceReset n => exact calm_of_next (takeUp_calm _ cmdDeviceReset_calm n s)
  | deviceEraseKeys n => exact calm_of_next (takeUp_calm _ cmdDeviceEraseKeys_calm n s)
  | deviceNop n => exact calm_of_next (takeUp_calm _ cmdDeviceNop_calm n s)
  | deviceReadIdentity n => exact calm_of_next (takeUp_calm _ cmdDeviceReadIdentity_calm n s)
  | fibreSetChannel n => exact calm_of_next (takeUp_calm _ cmdFibreSetChannel_calm n s)
  | fibreSetBond n => exact calm_of_next (takeUp_calm _ cmdFibreSetBond_calm n s)
  | fibreSetGroups n => exact calm_of_next (takeUp_calm _ cmdFibreSetGroups_calm n s)
  | fibreSetPortId n => exact calm_of_next (takeUp_calm _ cmdFibreSetPortId_calm n s)
  | fibreSetUpstream n => exact calm_of_next (takeUp_calm _ cmdFibreSetUpstream_calm n s)
  | fibreSetAllocQueues n => exact calm_of_next (takeUp_calm _ cmdFibreSetAllocQueues_calm n s)
  | fibreSetHeKey n => exact calm_of_next (takeUp_calm _ cmdFibreSetHeKey_calm n s)
  | fibreSetPolicy n => exact calm_of_next (takeUp_calm _ cmdFibreSetPolicy_calm n s)
  | fibreReadStatus n => exact calm_of_next (takeUp_calm _ cmdFibreReadStatus_calm n s)
  | fibreReadCounters n => exact calm_of_next (takeUp_calm _ cmdFibreReadCounters_calm n s)
  | parseLoad n => exact calm_of_next (takeUp_calm _ cmdParseLoad_calm n s)
  | parseInstall n => exact calm_of_next (takeUp_calm _ cmdParseInstall_calm n s)
  | rulesSetComparator n => exact calm_of_next (takeUp_calm _ cmdRulesSetComparator_calm n s)
  | rulesBegin n => exact calm_of_next (takeUp_calm _ cmdRulesBegin_calm n s)
  | rulesAdd n => exact calm_of_next (takeUp_calm _ cmdRulesAdd_calm n s)
  | rulesRemove n => exact calm_of_next (takeUp_calm _ cmdRulesRemove_calm n s)
  | rulesAbort n => exact calm_of_next (takeUp_calm _ cmdRulesAbort_calm n s)
  | rulesCommit n => exact calm_of_next (takeUp_calm _ cmdRulesCommit_calm n s)
  | rulesRead n => exact calm_of_next (takeUp_calm _ cmdRulesRead_calm n s)
  | tableSetProfile n => exact calm_of_next (takeUp_calm _ cmdTableSetProfile_calm n s)
  | tableAdd n => exact calm_of_next (takeUp_calm _ cmdTableAdd_calm n s)
  | tableModify n => exact calm_of_next (takeUp_calm _ cmdTableModify_calm n s)
  | tableDelete n => exact calm_of_next (takeUp_calm _ cmdTableDelete_calm n s)
  | tableRead n => exact calm_of_next (takeUp_calm _ cmdTableRead_calm n s)
  | tableSetPort n => exact calm_of_next (takeUp_calm _ cmdTableSetPort_calm n s)
  | tableSetVlan n => exact calm_of_next (takeUp_calm _ cmdTableSetVlan_calm n s)
  | tableSetAging n => exact calm_of_next (takeUp_calm _ cmdTableSetAging_calm n s)
  | tableReadAged n => exact calm_of_next (takeUp_calm _ cmdTableReadAged_calm n s)
  | trafficSetQueue n => exact calm_of_next (takeUp_calm _ cmdTrafficSetQueue_calm n s)
  | trafficFlushQueue n => exact calm_of_next (takeUp_calm _ cmdTrafficFlushQueue_calm n s)
  | trafficSetPolicer n => exact calm_of_next (takeUp_calm _ cmdTrafficSetPolicer_calm n s)
  | trafficSetShaper n => exact calm_of_next (takeUp_calm _ cmdTrafficSetShaper_calm n s)
  | trafficSetPause n => exact calm_of_next (takeUp_calm _ cmdTrafficSetPause_calm n s)
  | trafficSetGate n => exact calm_of_next (takeUp_calm _ cmdTrafficSetGate_calm n s)
  | trafficSetHistogram n => exact calm_of_next (takeUp_calm _ cmdTrafficSetHistogram_calm n s)
  | trafficRead n => exact calm_of_next (takeUp_calm _ cmdTrafficRead_calm n s)
  | trafficReadHistogram n => exact calm_of_next (takeUp_calm _ cmdTrafficReadHistogram_calm n s)
  | cipherSetCak n dma => exact calm_of_next (takeUp_calm _ (cmdCipherSetCak_calm dma) n s)
  | cipherSetMacsec n => exact calm_of_next (takeUp_calm _ cmdCipherSetMacsec_calm n s)
  | cipherSetThreshold n => exact calm_of_next (takeUp_calm _ cmdCipherSetThreshold_calm n s)
  | cipherReadStatus n => exact calm_of_next (takeUp_calm _ cmdCipherReadStatus_calm n s)
  | timeSet n => exact calm_of_next (takeUp_calm _ cmdTimeSet_calm n s)
  | timeStep n => exact calm_of_next (takeUp_calm _ cmdTimeStep_calm n s)
  | timeSetServo n => exact calm_of_next (takeUp_calm _ cmdTimeSetServo_calm n s)
  | timeSelectDomain n => exact calm_of_next (takeUp_calm _ cmdTimeSelectDomain_calm n s)
  | timeSetFibre n => exact calm_of_next (takeUp_calm _ cmdTimeSetFibre_calm n s)
  | timeReadFibre n => exact calm_of_next (takeUp_calm _ cmdTimeReadFibre_calm n s)
  | timeSetSource n => exact calm_of_next (takeUp_calm _ cmdTimeSetSource_calm n s)
  | timeSetIo n => exact calm_of_next (takeUp_calm _ cmdTimeSetIo_calm n s)
  | timeSetPtp n => exact calm_of_next (takeUp_calm _ cmdTimeSetPtp_calm n s)
  | timeReadStatus n => exact calm_of_next (takeUp_calm _ cmdTimeReadStatus_calm n s)
  | portConfigure n => exact calm_of_next (takeUp_calm _ cmdPortConfigure_calm n s)
  | portSetFilter n => exact calm_of_next (takeUp_calm _ cmdPortSetFilter_calm n s)
  | portSetAddress n => exact calm_of_next (takeUp_calm _ cmdPortSetAddress_calm n s)
  | portSetAggregation n => exact calm_of_next (takeUp_calm _ cmdPortSetAggregation_calm n s)
  | portSetMgmt n => exact calm_of_next (takeUp_calm _ cmdPortSetMgmt_calm n s)
  | portSetLldp n => exact calm_of_next (takeUp_calm _ cmdPortSetLldp_calm n s)
  | portReadStatus n => exact calm_of_next (takeUp_calm _ cmdPortReadStatus_calm n s)
  | portReadCounters n => exact calm_of_next (takeUp_calm _ cmdPortReadCounters_calm n s)
  | laneConfigure n => exact calm_of_next (takeUp_calm _ cmdLaneConfigure_calm n s)
  | laneSetTest n => exact calm_of_next (takeUp_calm _ cmdLaneSetTest_calm n s)
  | laneInject n => exact calm_of_next (takeUp_calm _ cmdLaneInject_calm n s)
  | laneReadStatus n => exact calm_of_next (takeUp_calm _ cmdLaneReadStatus_calm n s)
  | laneReadCounters n => exact calm_of_next (takeUp_calm _ cmdLaneReadCounters_calm n s)
  | powerSetState n => exact calm_of_next (takeUp_calm _ cmdPowerSetState_calm n s)
  | powerSetCap n => exact calm_of_next (takeUp_calm _ cmdPowerSetCap_calm n s)
  | powerSetDroop n => exact calm_of_next (takeUp_calm _ cmdPowerSetDroop_calm n s)
  | powerReadStatus n => exact calm_of_next (takeUp_calm _ cmdPowerReadStatus_calm n s)
  | obsSetCounter n => exact calm_of_next (takeUp_calm _ cmdObsSetCounter_calm n s)
  | obsSetDump n => exact calm_of_next (takeUp_calm _ cmdObsSetDump_calm n s)
  | obsReadGroup n => exact calm_of_next (takeUp_calm _ cmdObsReadGroup_calm n s)
  | obsSetSampling n => exact calm_of_next (takeUp_calm _ cmdObsSetSampling_calm n s)
  | obsReadAudit n => exact calm_of_next (takeUp_calm _ cmdObsReadAudit_calm n s)
  | obsSetIpfix n => exact calm_of_next (takeUp_calm _ cmdObsSetIpfix_calm n s)
  | obsSetTrap n => exact calm_of_next (takeUp_calm _ cmdObsSetTrap_calm n s)
  | obsReadDrops n => exact calm_of_next (takeUp_calm _ cmdObsReadDrops_calm n s)
  | obsSetEcc n => exact calm_of_next (takeUp_calm _ cmdObsSetEcc_calm n s)
  | journalRead n => exact calm_of_next (takeUp_calm _ cmdJournalRead_calm n s)
  | recorderSet n => exact calm_of_next (takeUp_calm _ cmdRecorderSet_calm n s)
  | recorderRead n => exact calm_of_next (takeUp_calm _ cmdRecorderRead_calm n s)
  | maintReadVersion n => exact calm_of_next (takeUp_calm _ cmdMaintReadVersion_calm n s)
  | maintFlashWrite n => exact calm_of_next (takeUp_calm _ cmdMaintFlashWrite_calm n s)
  | maintSelectImage n => exact calm_of_next (takeUp_calm _ cmdMaintSelectImage_calm n s)
  | maintSelfTest n => exact calm_of_next (takeUp_calm _ cmdMaintSelfTest_calm n s)
  | maintReplay n => exact calm_of_next (takeUp_calm _ cmdMaintReplay_calm n s)
  | maintAbort n => exact calm_of_next (takeUp_calm _ cmdMaintAbort_calm n s)
  | backgroundCommandDone n res => exact execBackgroundCommandDone_calm n res s
  | powerOn => exact execPowerOn_calm s
  | underVoltageLockout => exact execUnderVoltageLockout_calm s
  | resetRelease held => exact execResetRelease_calm s held
  | pinReset held => exact execPinReset_calm s held
  | refclk156Qualify => exact execRefclk156Qualify_calm s
  | vinSample mV => exact execVinSample_calm mV s
  | alarm src => exact execAlarm_calm src s
  | eraseDone => exact execEraseDone_calm s
  | tamperCheck same => exact execTamperCheck_calm same s
  | lockstepMismatch => exact execLockstepMismatch_calm s
  | watchdog loop => exact execWatchdog_calm loop s
  | hiveMemoryError => exact execHiveMemoryError_calm s
  | thermalConversion sensor t others => exact execThermalConversion_calm sensor t s others
  | degradedEvaluation => exact execDegradedEvaluation_calm s
  | dozeReply => exact execDozeReply_calm s
  | mergeRetire ctl cause writes => exact execMergeRetire_calm ctl cause s writes
  | scrubRead region addr verdict user => exact execScrubRead_calm region addr verdict s user
  | restoration region addr shadowOk => exact execRestoration_calm region addr shadowOk s
  | d2Entry => exact execD2Entry_calm s
  | d2ExitDone lost => exact execD2ExitDone_calm lost s
  | d3EntryDone => exact execD3EntryDone_calm s
  | d3ExitDone lost => exact execD3ExitDone_calm lost s
  | powerStateChangeDone => exact execPowerStateChangeDone_calm s
  | unknownOpcode n => exact execUnknownOpcode_calm n s
  | deviceLeaveSafe n => cases hd with
    | false => exact calm_of_next (takeUp_calm _ cmdDeviceLeaveSafe_calm n s)
    | true => exact absurd rfl ((stays rfl).1 n)
  | loadingComplete => cases hd with
    | false => exact execLoadingComplete_calm s
    | true => exact absurd rfl (stays rfl).2
  | unsupportedRequest b access => exact execUnsupportedRequest_calm b s access
  | _ => exact calm_of_kept (exec_ledger s rfl rfl)

/-- A step is calm: an idle tick, or the row at the front of the queue on the queue's rest. -/
theorem step_keeps {s t : State} (steps : step s = .next t) :
    (MailboxOk s → MailboxOk t) ∧ (JournalOk s → JournalOk t) := by
  cases waits : s.pending with
  | nil =>
    rw [step_of_pending_nil waits] at steps
    obtain ⟨_, mailbox, journal, _⟩ := calm_of_ledger (hd := false) (idleTick_ledger s)
    exact next_inj steps ▸ ⟨mailbox, journal⟩
  | cons c rest =>
    rw [step_of_pending_cons waits] at steps
    obtain ⟨_, mailbox, journal, _⟩ := exec_calm (hd := false) c { s with pending := rest } nofun t steps
    exact ⟨mailbox, journal⟩

/-- Settles O2: every row answers, and every row is calm. -/
theorem commandsCompleteAndKeepTheQueue : Obligations.CommandsCompleteAndKeepTheQueue := by
  intro c s
  obtain ⟨t, answers⟩ := exec_next c s
  exact ⟨t, answers, (exec_calm (hd := false) c s nofun t answers).1⟩

/-- Settles O3: a step is calm. -/
theorem stepKeepsMailboxForm : Obligations.StepKeepsMailboxForm :=
  fun _ _ ok steps => (step_keeps steps).1 ok

/-- Settles O4: a step is calm. -/
theorem stepKeepsJournalWhole : Obligations.StepKeepsJournalWhole :=
  fun _ _ ok steps => (step_keeps steps).2 ok

/-! ### Halted states (R441, R442, R444) -/

/-- Outside SAFE the order to leave it is not legal, so that the row is calm like any other (R453). -/
theorem cmdDeviceLeaveSafe_calm_of_not_safe {n : Nat} {s : State} (other : s.dev.state ≠ .safe) :
    Calm true s (takeUp cmdDeviceLeaveSafe n s) := by
  unfold takeUp
  split
  · exact Calm.refl s
  · split
    · refine Calm.after (popBell_ledger s) (judge_calm_of _ _ _ _ _ fun x hx _ q a l d legal => ?_)
      obtain rfl := Option.some.inj hx
      exact absurd (show s.dev.state = .safe by simpa [cmdDeviceLeaveSafe, clsIn] using legal) other
    · exact Calm.refl s

/-- Settles O7: every other row is calm and leaves a halted device halted. -/
theorem haltedStatesAreHeld : Obligations.HaltedStatesAreHeld := by
  refine ⟨fun c s t halts order loading answers => ?_, fun n s t halts other answers => ?_, execLoadingComplete_idle⟩
  · obtain ⟨_, _, _, held⟩ := exec_calm (hd := true) c s (fun _ => ⟨order, loading⟩) t answers
    exact held rfl halts
  · obtain ⟨_, _, _, held⟩ := cmdDeviceLeaveSafe_calm_of_not_safe (n := n) other
    exact next_inj answers ▸ held rfl halts

/-! ### The release from reset (R442, R605) -/

/-- The device in COLD with the supply and REFCLK156 good, before RESET_N has been released. -/
def coldReady : State := { State.reset with sup := { State.reset.sup with refOk := true } }

theorem coldReady_released (t : State) (answers : exec (.resetRelease 2000000) coldReady = .next t) :
    t.dev.state = .loading := next_inj answers ▸ rfl

/-- Refutes O6: its list of rows that may change the device state names RESET_RELEASE at its default width of 1 µs only,
so that a release from COLD after 2 µs, which ends in LOADING, is none of them. With the row at every width on the
list it is `exec_ledger`. -/
theorem not_eventsLeaveMailboxesAndState : ¬ Obligations.EventsLeaveMailboxesAndState := by
  intro h
  obtain ⟨t, answers⟩ := exec_next (.resetRelease 2000000) coldReady
  obtain ⟨_, _, _, still⟩ := h _ _ t rfl answers
  have same : t.dev.state = .cold := still (by decide)
  rw [coldReady_released t answers] at same
  cases same

end Sys2Proof.Machine
end

section
/-! SUPPORT. The steps of R414 one by one: what a rung command answers at the first that fails, and which command each
row takes up. -/

namespace Sys2Proof.Machine

open Sys2Proof

variable {c : CmdSpec} {n : Nat} {s : State} {b : Bell} {e : Option Ending}

/-! ### The steps -/

/-- How far CMD_SEQ of mailbox n stands past LAST_SEQ; 1 before the mailbox's first command (R413). -/
def seqStep (s : State) (n : Nat) : Nat :=
  match lastSeq s n with
  | none => 1
  | some l => subMod 32 (cmdSeq s n).toNat l.toNat

/-- Steps 3 to 7 of R414, for a command that passed step 2. -/
def judgeNew (c : Option CmdSpec) (n : Nat) (bell : Bell) (e : Option Ending) (s : State) : State :=
  match stepThree c n (mbxField s n 0x006 2) (cmdArgs s n) s, c with
  | some off, _ => finish n (cmdSeq s n) (mbxField s n 0x004 2) (cmdArgs s n) true stFormat false false (leBytes 4 off)
      (rejectCommand 3 n s)
  | none, none => s
  | none, some c =>
    match stepFour c (mbxField s n 0x008 4) (cmdArgs s n) s with
    | some (st, off) => finish n (cmdSeq s n) (mbxField s n 0x004 2) (cmdArgs s n) true st false false (leBytes 4 off)
        (rejectCommand 4 n s)
    | none =>
      if !c.legal s (cmdArgs s n) then
        finish n (cmdSeq s n) (mbxField s n 0x004 2) (cmdArgs s n) false
          (if s.dev.state = .safe then stSafe else stState) false false (leBytes 4 (stateWord s)) (rejectCommand 5 n s)
      else runCommand c n (cmdSeq s n) (cmdArgs s n) (deadlineAt c n bell s)
        (e.getD (if deadlineAt c n bell s < s.now then .early else .run)) s

/-- The judgement of a ring, its steps 1 and 2 told apart from the rest. -/
theorem judge_eq (c : Option CmdSpec) (n : Nat) (b : Bell) (e : Option Ending) (s : State) :
    judge c n b e s
      = if cmdSeq s n = 0 then finishBare n stFormat (leBytes 4 0x000) (rejectCommand 1 n s)
        else if seqStep s n = 0 then ((tget none s.hif.kept n).map (represent n · s)).getD s
        else if seqStep s n ≥ 2 ^ 31 then
          finishBare n stStale (leBytes 4 ((lastSeq s n).getD 0).toNat) (rejectCommand 2 n s)
        else judgeNew c n b e s := by
  have kept : (match tget none s.hif.kept n with | some k => represent n k s | none => s)
      = ((tget none s.hif.kept n).map (represent n · s)).getD s := by
    cases tget none s.hif.kept n <;> rfl
  rw [← kept]
  rfl

theorem seqNew_iff : seqNew s n = true ↔ cmdSeq s n ≠ 0 ∧ seqStep s n ≠ 0 ∧ seqStep s n < 2 ^ 31 := by
  unfold seqNew seqStep
  cases lastSeq s n with
  | none => simp
  | some l => simp [Nat.pos_iff_ne_zero]

theorem seqStep_same (same : lastSeq s n = some (cmdSeq s n)) : seqStep s n = 0 := by
  unfold seqStep
  rw [same]
  show subMod 32 (cmdSeq s n).toNat (cmdSeq s n).toNat = 0
  rw [subMod_toNat, BitVec.sub_self]
  rfl

theorem seqStep_after {l : Word32} (last : lastSeq s n = some l) :
    seqStep s n = subMod 32 (cmdSeq s n).toNat l.toNat := by
  unfold seqStep
  rw [last]

/-! ### Steps 1 and 2 -/

theorem judge_zero (c : Option CmdSpec) (zero : cmdSeq s n = 0) :
    judge c n b e s = finishBare n stFormat (leBytes 4 0x000) (rejectCommand 1 n s) := by
  rw [judge_eq, if_pos zero]

theorem judge_repeat (c : Option CmdSpec) {k : Kept} (one : cmdSeq s n ≠ 0)
    (same : lastSeq s n = some (cmdSeq s n)) (kept : tget none s.hif.kept n = some k) :
    judge c n b e s = represent n k s := by
  rw [judge_eq, if_neg one, if_pos (seqStep_same same), kept]
  rfl

theorem judge_stale (c : Option CmdSpec) {l : Word32} (one : cmdSeq s n ≠ 0) (last : lastSeq s n = some l)
    (old : 2 ^ 31 ≤ subMod 32 (cmdSeq s n).toNat l.toNat) :
    judge c n b e s = finishBare n stStale (leBytes 4 l.toNat) (rejectCommand 2 n s) := by
  rw [← seqStep_after last] at old
  rw [judge_eq, if_neg one, if_neg (by omega), if_pos old, last]
  rfl

theorem judge_new (c : Option CmdSpec) (new : seqNew s n = true) : judge c n b e s = judgeNew c n b e s := by
  obtain ⟨one, far, near⟩ := seqNew_iff.mp new
  rw [judge_eq, if_neg one, if_neg far, if_neg (by omega)]

/-! ### Steps 3 to 5 -/

theorem judge_header {c : Option CmdSpec} {off : Nat} (new : seqNew s n = true)
    (bad : stepThree c n (mbxField s n 0x006 2) (cmdArgs s n) s = some off) :
    judge c n b e s = finish n (cmdSeq s n) (mbxField s n 0x004 2) (cmdArgs s n) true stFormat false false
      (leBytes 4 off) (rejectCommand 3 n s) := by
  rw [judge_new c new]
  unfold judgeNew
  rw [bad]

theorem judge_argument {st off : Nat} (new : seqNew s n = true)
    (header : stepThree (some c) n (mbxField s n 0x006 2) (cmdArgs s n) s = none)
    (bad : stepFour c (mbxField s n 0x008 4) (cmdArgs s n) s = some (st, off)) :
    judge (some c) n b e s = finish n (cmdSeq s n) (mbxField s n 0x004 2) (cmdArgs s n) true st false false
      (leBytes 4 off) (rejectCommand 4 n s) := by
  rw [judge_new _ new]
  unfold judgeNew
  rw [header]
  dsimp only
  rw [bad]

theorem judge_illegal (new : seqNew s n = true)
    (header : stepThree (some c) n (mbxField s n 0x006 2) (cmdArgs s n) s = none)
    (listed : stepFour c (mbxField s n 0x008 4) (cmdArgs s n) s = none) (illegal : c.legal s (cmdArgs s n) = false) :
    judge (some c) n b e s = finish n (cmdSeq s n) (mbxField s n 0x004 2) (cmdArgs s n) false
      (if s.dev.state = .safe then stSafe else stState) false false (leBytes 4 (stateWord s))
      (rejectCommand 5 n s) := by
  rw [judge_new _ new]
  unfold judgeNew
  rw [header]
  dsimp only
  rw [listed]
  dsimp only
  rw [illegal]
  rfl

theorem judge_legal (new : seqNew s n = true)
    (header : stepThree (some c) n (mbxField s n 0x006 2) (cmdArgs s n) s = none)
    (listed : stepFour c (mbxField s n 0x008 4) (cmdArgs s n) s = none) (legal : c.legal s (cmdArgs s n) = true) :
    judge (some c) n b e s = runCommand c n (cmdSeq s n) (cmdArgs s n) (deadlineAt c n b s)
      (e.getD (if deadlineAt c n b s < s.now then .early else .run)) s := by
  rw [judge_new _ new]
  unfold judgeNew
  rw [header]
  dsimp only
  rw [listed]
  dsimp only
  rw [legal]
  rfl

/-! ### Step 6 not reached -/

/-- A deadline that has passed before step 6 leaves no effect but the taking up (R415). -/
theorem runCommand_early (c : CmdSpec) (n : Nat) (q : Word32) (a : Bytes) (l : Nat) (s : State) :
    runCommand c n q a l .early s = finish n q c.opcode a true stTimeout false false [] (beginCommand n s) := rfl

/-- A command stopped between two of its items ends with what those done came to, and PARTIAL where they came to OK
(R415). -/
theorem runCommand_items {f : Nat → Nat → Bytes → State → Ran} {q : Word32} {a d : Bytes} {l k st : Nat} {t : State}
    (items : c.items = some f) (left : k < c.count a) (ran : f k n a (beginCommand n s) = .final st d t) :
    runCommand c n q a l (.items k) s
      = finish n q c.opcode a true (if st = stOk then stTimeout else st) false (st == stOk) d t := by
  have stays : finalEnding c a l (.items k) (beginCommand n s) = .items k := by
    simp [finalEnding, Nat.not_le.mpr left]
  unfold runCommand
  dsimp only
  rw [stays]
  dsimp only
  rw [items]
  dsimp only
  rw [ran]
  by_cases ok : st = stOk
  · simp [endRan, ok]
  · have other : (st == stOk) = false := by simpa using ok
    simp [endRan, ok, other]

/-! ### The rows -/

/-- Every row of the reference takes up its own command. -/
theorem exec_commandRow : ∀ r ∈ commandRows, ∀ (n : Fin 16) (s : State), exec (r.2 n) s = .next (takeUp r.1 n s) := by
  simp only [commandRows, deviceCmdRows, fibreCmdRows, parseCmdRows, tableCmdRows, trafficCmdRows, cipherCmdRows,
    timeCmdRows, portCmdRows, laneCmdRows, powerCmdRows, observabilityCmdRows, journalCmdRows, maintenanceCmdRows,
    List.forall_mem_append, List.forall_mem_cons, List.not_mem_nil, false_imp_iff, implies_true, and_true]
  repeat' apply And.intro
  all_goals exact fun _ _ => rfl

/-- A ring of the row's mailbox that is next, with the row's opcode, is judged. -/
theorem exec_commandRow_next {r : CmdRow} (row : r ∈ commandRows) {n : Fin 16} {s : State} {b : Bell}
    (next : frontBell s n = some b) (named : mbxField s n 0x004 2 = r.1.opcode) :
    exec (r.2 n) s = .next (judge (some r.1) n b none (popBell s)) := by
  rw [exec_commandRow r row]
  unfold takeUp
  rw [next]
  exact congrArg _ (if_pos named)

end Sys2Proof.Machine
end

section
/-! PROOFS. The steps of R414 for every command of the reference (O13 to O15, O17). -/

namespace Sys2Proof.Machine

open Sys2Proof

/-! ### Which command a row takes up (R412) -/

/-- The opcode of every row names a command of that opcode. -/
theorem cmdOf_commandRow {r : CmdRow} (row : r ∈ commandRows) :
    (cmdOf r.1.opcode).map (·.opcode) = some r.1.opcode := by
  have listed : r.1 ∈ allCommands := List.mem_map_of_mem (f := Prod.fst) row
  cases found : cmdOf r.1.opcode with
  | none => exact absurd (beq_self_eq_true _) (List.find?_eq_none.mp found _ listed)
  | some c =>
    have named := List.find?_some (p := fun x : CmdSpec => x.opcode == r.1.opcode) found
    exact congrArg some (eq_of_beq named)

theorem takeUp_of_no_bell (c : CmdSpec) {n : Nat} {s : State} (none : frontBell s n = none) : takeUp c n s = s := by
  unfold takeUp
  rw [none]

theorem takeUp_of_other_opcode {c : CmdSpec} {n : Nat} {s : State} (other : mbxField s n 0x004 2 ≠ c.opcode) :
    takeUp c n s = s := by
  unfold takeUp
  split
  · rfl
  · exact if_neg other

/-- Settles O13: a row is the taking up of its own command, which does nothing without its ring and its opcode. -/
theorem commandRowsMatchOpcodes : Obligations.CommandRowsMatchOpcodes := by
  intro r row
  refine ⟨cmdOf_commandRow row, fun n s none => ?_, fun n s other => ?_⟩
  · rw [exec_commandRow r row, takeUp_of_no_bell r.1 none]
  · rw [exec_commandRow r row, takeUp_of_other_opcode other]

/-! ### Where a command stops (R414) -/

/-- Settles O15: a row judges its ring, and the judgement stops at the first step that fails. -/
theorem firstFailingStepAnswers : Obligations.FirstFailingStepAnswers := by
  intro r row n s b next named p reject
  have judged : exec (r.2 n) s = .next (judge (some r.1) n b none p) := exec_commandRow_next row next named
  have named' : mbxField p n 0x004 2 = r.1.opcode := named
  refine ⟨fun zero => ?_, fun k one same kept => ?_, fun l one last old => ?_, fun off new bad => ?_,
    fun st off new header bad => ?_, fun new header listed => ⟨fun illegal => ?_, fun legal late => ?_⟩⟩
  · exact judged.trans (congrArg _ (judge_zero (s := p) _ zero))
  · exact judged.trans (congrArg _ (judge_repeat (s := p) _ one same kept))
  · exact judged.trans (congrArg _ (judge_stale (s := p) _ one last old))
  · rw [judged, judge_header (s := p) new bad, named']
    rfl
  · rw [judged, judge_argument (s := p) new header bad, named']
    rfl
  · rw [judged, judge_illegal (s := p) new header listed illegal, named']
    rfl
  · have passed : deadlineAt r.1 n b p < p.now := late
    rw [judged, judge_legal (s := p) new header listed legal, if_pos passed]
    rfl

/-! ### Legality (R446) -/

/-- Commands legal in every state. -/
def classQ : List Nat :=
  [0x0101, 0x0105, 0x0109, 0x010A, 0x010B, 0x010C, 0x0209, 0x020A, 0x0309, 0x0405, 0x0409, 0x0508, 0x0509, 0x0604,
    0x0706, 0x070A, 0x0807, 0x0808, 0x0904, 0x0905, 0x0A04, 0x0B03, 0x0B05, 0x0B08, 0x0C01, 0x0C02, 0x0C03, 0x0D01,
    0x0D06]

/-- Commands legal in every state but SAFE. -/
def classL : List Nat :=
  [0x0201, 0x0202, 0x0203, 0x0204, 0x0205, 0x0206, 0x0207, 0x0208, 0x0303, 0x0304, 0x0305, 0x0306, 0x0307, 0x0308,
    0x0401, 0x0402, 0x0403, 0x0404, 0x0406, 0x0407, 0x0408, 0x0501, 0x0502, 0x0503, 0x0504, 0x0505, 0x0506, 0x0507,
    0x0601, 0x0602, 0x0603, 0x0701, 0x0702, 0x0703, 0x0704, 0x0705, 0x0707, 0x0708, 0x0709, 0x0801, 0x0802, 0x0803,
    0x0804, 0x0805, 0x0806, 0x0901, 0x0A02, 0x0A03, 0x0B01, 0x0B02, 0x0B06, 0x0B07, 0x0B09, 0x0D02, 0x0D03]

/-- The class that the legality column gives an opcode of the reference. -/
def legalClass (opcode : Nat) : State → Bytes → Bool :=
  if opcode ∈ classQ then clsQ
  else if opcode ∈ classL then clsL
  else if opcode ∈ [0x0102, 0x0104, 0x0301, 0x0302] then clsS
  else if opcode ∈ [0x0107, 0x0D04, 0x0D05] then clsM
  else if opcode = 0x0103 then clsIn [.active, .degraded]
  else if opcode = 0x0106 then clsIn [.standby, .active, .degraded]
  else if opcode = 0x0108 then clsIn [.safe]
  else if opcode = 0x0902 then cmdLaneSetTest.legal
  else if opcode = 0x0903 then cmdLaneInject.legal
  else if opcode = 0x0A01 then cmdPowerSetState.legal
  else cmdObsSetSampling.legal

/-- Every command of the reference has the legality of its opcode's class. -/
theorem legal_commandRow : ∀ r ∈ commandRows, r.1.legal = legalClass r.1.opcode := by
  simp only [commandRows, deviceCmdRows, fibreCmdRows, parseCmdRows, tableCmdRows, trafficCmdRows, cipherCmdRows,
    timeCmdRows, portCmdRows, laneCmdRows, powerCmdRows, observabilityCmdRows, journalCmdRows, maintenanceCmdRows,
    List.forall_mem_append, List.forall_mem_cons, List.not_mem_nil, false_imp_iff, implies_true, and_true]
  repeat' apply And.intro
  all_goals rfl

theorem legalClass_of_classQ {op : Nat} (h : op ∈ classQ) : legalClass op = clsQ := if_pos h

theorem legalClass_of_classL : ∀ {op : Nat}, op ∈ classL → legalClass op = clsL := by
  have apart : ∀ op ∈ classL, op ∉ classQ := by decide
  intro op h
  unfold legalClass
  rw [if_neg (apart op h), if_pos h]

theorem legalClass_of_classS : ∀ op ∈ [0x0102, 0x0104, 0x0301, 0x0302], legalClass op = clsS := by
  simp only [List.forall_mem_cons, List.not_mem_nil, false_imp_iff, implies_true, and_true]
  exact ⟨rfl, rfl, rfl, rfl⟩

theorem legalClass_of_classM : ∀ op ∈ [0x0107, 0x0D04, 0x0D05], legalClass op = clsM := by
  simp only [List.forall_mem_cons, List.not_mem_nil, false_imp_iff, implies_true, and_true]
  exact ⟨rfl, rfl, rfl⟩

/-- A generator on lanes 16 to 19 is of class M (R393). -/
theorem cmdLaneSetTest_legal (s : State) (a : Bytes) :
    cmdLaneSetTest.legal s a = if 16 ≤ byteAt a 0 ∧ byteAt a 0 ≤ 19 ∧ byteAt a 1 ≠ 0
      then s.dev.state == .maintenance else s.dev.state != .safe := by
  show (clsL s a && (!(isFibreLane (byteAt a 0) && byteAt a 1 != 0) || clsM s a)) = _
  have lane : (isFibreLane (byteAt a 0) && byteAt a 1 != 0)
      = decide (16 ≤ byteAt a 0 ∧ byteAt a 0 ≤ 19 ∧ byteAt a 1 ≠ 0) := by
    rw [Bool.eq_iff_iff]
    simp only [isFibreLane, Bool.and_eq_true, decide_eq_true_iff, bne_iff_ne]
    omega
  rw [lane]
  by_cases h : 16 ≤ byteAt a 0 ∧ byteAt a 0 ≤ 19 ∧ byteAt a 1 ≠ 0
  · rw [if_pos h, decide_eq_true h]
    cases st : s.dev.state <;> simp [clsL, clsM, st]
  · rw [if_neg h, decide_eq_false h]
    simp [clsL]

/-- An injection into live traffic is of class M (R394). -/
theorem cmdLaneInject_legal (s : State) {a : Bytes} (bit : byteAt a 3 < 2) :
    cmdLaneInject.legal s a
      = if byteAt a 3 = 1 then s.dev.state == .maintenance else s.dev.state != .safe := by
  show (clsL s a && (byteAt a 3 == 0 || clsM s a)) = _
  by_cases live : byteAt a 3 = 1
  · rw [if_pos live]
    cases st : s.dev.state <;> simp [clsL, clsM, st, live]
  · have idle : byteAt a 3 = 0 := by omega
    simp [clsL, idle]

/-- The sampling mode 2 needs DEGRADED or MAINTENANCE (R469). -/
theorem cmdObsSetSampling_legal (s : State) (a : Bytes) :
    cmdObsSetSampling.legal s a = if byteAt a 0 = 2 then s.dev.state == .degraded || s.dev.state == .maintenance
      else s.dev.state != .safe := by
  show (s.dev.state != .safe
    && (byteAt a 0 != 2 || s.dev.state == .degraded || s.dev.state == .maintenance)) = _
  by_cases mode : byteAt a 0 = 2
  · rw [if_pos mode]
    cases st : s.dev.state <;> simp [mode]
  · simp [mode]

/-- Settles O14: each command has the class of its opcode, and the classes are those of the column. -/
theorem legalityColumn : Obligations.LegalityColumn := by
  intro r row s a
  rw [legal_commandRow r row]
  generalize r.1.opcode = op
  refine ⟨fun h => ?_, fun h => ?_, fun h => ?_, fun h => ?_, fun h => ?_, fun h => ?_, fun h => ?_, fun h => ?_,
    fun h bit => ?_, fun h => ?_, fun h => ?_⟩
  · rw [legalClass_of_classQ h]
    rfl
  · rw [legalClass_of_classL h]
    rfl
  · rw [legalClass_of_classS op h]
    rfl
  · rw [legalClass_of_classM op h]
    rfl
  · rw [h]
    show clsIn [.active, .degraded] s a = _
    unfold clsIn
    cases s.dev.state <;> rfl
  · rw [h]
    show clsIn [.standby, .active, .degraded] s a = _
    unfold clsIn
    cases s.dev.state <;> rfl
  · rw [h]
    show clsIn [.safe] s a = _
    unfold clsIn
    cases s.dev.state <;> rfl
  · rw [h]
    exact cmdLaneSetTest_legal s a
  · rw [h]
    exact cmdLaneInject_legal s bit
  · rw [h]
    show (s.dev.state == .active || s.dev.state == .degraded
      || (s.dev.state == .standby && decide (byteAt a 0 ≠ 2))) = _
    rw [decide_not]
    rfl
  · rw [h]
    exact cmdObsSetSampling_legal s a

/-! ### Unknown opcodes and passed deadlines (R414, R415) -/

/-! What the steps read of a mailbox is its bytes alone. -/

theorem mbxField_of_mbox {s t : State} (h : t.hif.mbox = s.hif.mbox) (n off len : Nat) :
    mbxField t n off len = mbxField s n off len := by
  unfold mbxField mbxRead
  rw [h]

theorem cmdSeq_of_mbox {s t : State} (h : t.hif.mbox = s.hif.mbox) (n : Nat) : cmdSeq t n = cmdSeq s n := by
  unfold cmdSeq
  rw [mbxField_of_mbox h]

theorem cmdArgs_of_mbox {s t : State} (h : t.hif.mbox = s.hif.mbox) (n : Nat) : cmdArgs t n = cmdArgs s n := by
  unfold cmdArgs mbxRead
  rw [mbxField_of_mbox h, h]

theorem deadlineAt_of_mbox {s t : State} (h : t.hif.mbox = s.hif.mbox) (c : CmdSpec) (n : Nat) (b : Bell) :
    deadlineAt c n b t = deadlineAt c n b s := by
  unfold deadlineAt
  rw [mbxField_of_mbox h]

theorem seqNew_of_mbox {s t : State} (h : t.hif.mbox = s.hif.mbox) (g : t.hif.lastSeq = s.hif.lastSeq) (n : Nat) :
    seqNew t n = seqNew s n := by
  unfold seqNew lastSeq
  rw [cmdSeq_of_mbox h, g]

theorem headerFails_eq (c : Option CmdSpec) (n : Nat) (s : State) :
    headerFails c n s = (cmdSeq s n == 0 || seqStep s n == 0 || decide (seqStep s n ≥ 2 ^ 31)
      || (stepThree c n (mbxField s n 0x006 2) (cmdArgs s n) s).isSome) := rfl

/-- A ring that is next and fails one of steps 1 to 3 is judged by UNKNOWN_OPCODE; any other is left for its row. -/
theorem execUnknownOpcode_next {n : Fin 16} {s : State} {b : Bell} (next : frontBell s n = some b) :
    exec (.unknownOpcode n) s = .next (if headerFails (cmdOf (mbxField s n 0x004 2)) n s
      then judge (cmdOf (mbxField s n 0x004 2)) n b none (popBell s) else s) := by
  show execUnknownOpcode n s = _
  unfold execUnknownOpcode
  rw [next]

theorem execUnknownOpcode_judges {n : Fin 16} {s : State} {b : Bell} (next : frontBell s n = some b)
    (fails : headerFails (cmdOf (mbxField s n 0x004 2)) n s = true) :
    exec (.unknownOpcode n) s = .next (judge (cmdOf (mbxField s n 0x004 2)) n b none (popBell s)) := by
  rw [execUnknownOpcode_next next, if_pos fails]

/-- UNKNOWN_OPCODE answers a header at fault, or an opcode that names no command (R414). -/
theorem execUnknownOpcode_header {n : Fin 16} {s : State} {b : Bell} {off : Nat} (next : frontBell s n = some b)
    (new : seqNew s n = true)
    (bad : stepThree (cmdOf (mbxField s n 0x004 2)) n (mbxField s n 0x006 2) (cmdArgs s n) (popBell s) = some off) :
    exec (.unknownOpcode n) s = .next (finish n (cmdSeq s n) (mbxField s n 0x004 2) (cmdArgs s n) true stFormat
      false false (leBytes 4 off) (rejectCommand 3 n (popBell s))) := by
  have here : stepThree (cmdOf (mbxField s n 0x004 2)) n (mbxField s n 0x006 2) (cmdArgs s n) s = some off := bad
  rw [execUnknownOpcode_judges next (by simp [headerFails_eq, here]), judge_header (s := popBell s) new bad]
  rfl

/-- COMMAND_DEADLINE_EXPIRY on a command that waits (R415, R418). -/
theorem execCommandDeadlineExpiry_waiting {n : Fin 16} {s : State} {r : Running} (k : Nat) (i : Bool)
    (waits : s.hif.running.find? (fun r => r.mbx == n.val) = some r) :
    exec (.commandDeadlineExpiry n k i) s
      = .next (if irrevocable (if i then s else passTo r.deadline s) r then (if i then s else passTo r.deadline s)
        else conclude n (if i then stInternal else stTimeout) (undoes r) false []
          (undo r (if i then s else passTo r.deadline s))) := by
  show execCommandDeadlineExpiry n k s i = _
  unfold execCommandDeadlineExpiry
  rw [waits]

/-- COMMAND_DEADLINE_EXPIRY on the command next in line: it is judged at its deadline as one that is late (R415). -/
theorem execCommandDeadlineExpiry_next {n : Fin 16} {s : State} {b : Bell} {c : CmdSpec} (k : Nat)
    (idle : s.hif.running.find? (fun r => r.mbx == n.val) = none) (next : frontBell s n = some b)
    (named : cmdOf (mbxField s n 0x004 2) = some c) :
    exec (.commandDeadlineExpiry n k) s = .next (judge (some c) n b
      (some (if k = 0 then .early else if c.items.isSome then .items k else .rolledBack))
      (popBell (passTo (deadlineAt c n b s) s))) := by
  show execCommandDeadlineExpiry n k s = _
  unfold execCommandDeadlineExpiry
  rw [idle]
  dsimp only
  rw [next]
  dsimp only
  rw [named]
  cases h : c.items <;> simp [h, deadlineAt]

/-- As above, once the steps before the sixth pass. -/
theorem execCommandDeadlineExpiry_legal {n : Fin 16} {s : State} {b : Bell} {c : CmdSpec} (k : Nat)
    (idle : s.hif.running.find? (fun r => r.mbx == n.val) = none) (next : frontBell s n = some b)
    (named : cmdOf (mbxField s n 0x004 2) = some c) (new : seqNew s n = true)
    (header : stepThree (some c) n (mbxField s n 0x006 2) (cmdArgs s n)
      (popBell (passTo (deadlineAt c n b s) s)) = none)
    (listed : stepFour c (mbxField s n 0x008 4) (cmdArgs s n) (popBell (passTo (deadlineAt c n b s) s)) = none)
    (legal : c.legal (popBell (passTo (deadlineAt c n b s) s)) (cmdArgs s n) = true) :
    exec (.commandDeadlineExpiry n k) s = .next (runCommand c n (cmdSeq s n) (cmdArgs s n) (deadlineAt c n b s)
      (if k = 0 then .early else if c.items.isSome then .items k else .rolledBack)
      (popBell (passTo (deadlineAt c n b s) s))) := by
  rw [execCommandDeadlineExpiry_next k idle next named]
  have hif := passTo_hif (deadlineAt c n b s) s
  generalize passTo (deadlineAt c n b s) s = u at *
  have mbox : (popBell u).hif.mbox = s.hif.mbox := by simp [popBell, hif]
  have last : (popBell u).hif.lastSeq = s.hif.lastSeq := by simp [popBell, hif]
  rw [← cmdArgs_of_mbox mbox, ← mbxField_of_mbox mbox] at header listed
  rw [← cmdArgs_of_mbox mbox] at legal
  rw [← seqNew_of_mbox mbox last] at new
  rw [judge_legal new header listed legal, cmdSeq_of_mbox mbox, cmdArgs_of_mbox mbox, deadlineAt_of_mbox mbox]
  rfl

/-- Settles O17: both rows judge the ring that is next, or end the command that waits. -/
theorem unknownAndLateCommandsEnd : Obligations.UnknownAndLateCommandsEnd := by
  refine ⟨fun n s b next unknown new => ?_, fun n k s r waits open_ => ?_, fun n k s r waits taken => ?_,
    fun n s b c idle next named new header listed legal => ⟨?_, fun k f st d t some items left ran => ?_⟩⟩
  · refine execUnknownOpcode_header next new ?_
    rw [unknown]
    rfl
  · rw [execCommandDeadlineExpiry_waiting k false waits]
    simp [open_]
  · rw [execCommandDeadlineExpiry_waiting k false waits]
    simp [taken]
  · rw [execCommandDeadlineExpiry_legal 0 idle next named new header listed legal]
    rfl
  · rw [execCommandDeadlineExpiry_legal k idle next named new header listed legal, if_neg (by omega), items]
    exact congrArg _ (runCommand_items items left ran)

end Sys2Proof.Machine
end

section
/-! SUPPORT. MSI-X vectors and events (R404, R421 to R426): what a cause, a record and an event change of the host
interface, and what they leave. -/

namespace Sys2Proof.Machine

open Sys2Proof

/-! ### Vectors -/

/-- A vector that fires changes its own moderation state alone. -/
theorem fireVec_hif (v : Nat) (s : State) : (fireVec v s).hif = { s.hif with msix := (fireVec v s).hif.msix } := by
  unfold fireVec
  dsimp only
  split <;> rfl

/-- A cause changes the moderation state of its vector alone. -/
theorem causeVec_hif (v : Nat) (s : State) : (causeVec v s).hif = { s.hif with msix := (causeVec v s).hif.msix } := by
  unfold causeVec
  dsimp only
  split
  · exact fireVec_hif v s
  · split
    · exact fireVec_hif v _
    · rfl

theorem fireVec_out_suffix (v : Nat) (s : State) : s.out <:+ (fireVec v s).out := by
  unfold fireVec
  dsimp only
  split
  · exact List.suffix_refl _
  · exact List.suffix_cons ..

/-- A cause adds to the trace and takes nothing from it. -/
theorem causeVec_out_suffix (v : Nat) (s : State) : s.out <:+ (causeVec v s).out := by
  unfold causeVec
  dsimp only
  split
  · exact fireVec_out_suffix v s
  · split
    · exact fireVec_out_suffix v (setVec v _ s)
    · exact List.suffix_refl _

/-- A vector that may send its message sends it. -/
theorem fireVec_open {v : Nat} {s : State} (clear : (vecOf s v).masked = false) (dma : dmaOk s = true) :
    fireVec v s = emit (.msix v) (setVec v { vecOf s v with causes := 0, first := none } s) := by
  unfold fireVec
  dsimp only
  rw [clear, dma]
  rfl

/-- A vector that may send none keeps its pending bit (R404). -/
theorem fireVec_held {v : Nat} {s : State} (held : (vecOf s v).masked = true ∨ dmaOk s = false) :
    fireVec v s = setVec v { vecOf s v with causes := 0, first := none, pend := true } s := by
  unfold fireVec
  dsimp only
  exact if_pos (by simpa using held)

/-- The causes that a vector stood for are spent when it fires. -/
theorem vecOf_fireVec_self (v : Nat) (s : State) : vecOf (fireVec v s) v
    = { vecOf s v with causes := 0, first := none, pend := (vecOf s v).pend || (vecOf s v).masked || !dmaOk s } := by
  by_cases held : (vecOf s v).masked = true ∨ dmaOk s = false
  · have pends : ((vecOf s v).pend || (vecOf s v).masked || !dmaOk s) = true := by
      rcases held with h | h <;> simp [h]
    rw [fireVec_held held, vecOf_setVec, if_pos rfl, pends]
  · have clear : (vecOf s v).masked = false := by simpa using fun h => held (.inl h)
    have dma : dmaOk s = true := by simpa using fun h => held (.inr h)
    have sent : vecOf (fireVec v s) v = { vecOf s v with causes := 0, first := none } := by
      rw [fireVec_open clear dma]
      exact (vecOf_setVec ..).trans (if_pos rfl)
    rw [sent, clear, dma]
    simp

theorem vecOf_fireVec_other {v w : Nat} (other : w ≠ v) (s : State) : vecOf (fireVec v s) w = vecOf s w := by
  unfold fireVec
  dsimp only
  split
  · exact (vecOf_setVec ..).trans (if_neg other)
  · exact (vecOf_setVec ..).trans (if_neg other)

theorem moderated_iff (v : Fin 32) : moderated v = true ↔ v.val < 11 ∧ v ≠ 1 := by
  unfold moderated
  rw [Bool.and_eq_true, decide_eq_true_iff, decide_eq_true_iff, ne_eq, ne_eq, Fin.ext_iff]
  rfl

theorem moderated_eq_false {v : Fin 32} (h : v = 1 ∨ 11 ≤ v.val) : moderated v = false := by
  rw [← Bool.not_eq_true, moderated_iff]
  omega

/-- A vector is due with COUNT causes, or with HOLDOFF past since the first (R426). -/
theorem vecDue_iff (s : State) (x : MsixVec) :
    vecDue s x = true ↔ 0 < x.causes ∧ (x.countM1.toNat + 1 ≤ x.causes
      ∨ ∃ t, x.first = some t ∧ t + us x.holdoff.toNat ≤ s.now) := by
  unfold vecDue passed
  cases x.first <;> simp

/-- A cause of a vector with moderation counts, and fires the vector when it is then due (R426). -/
theorem causeVec_counts {v : Nat} (other : v ≠ 1) (s : State) :
    causeVec v s = if (vecOf s v).countM1.toNat + 1 ≤ (vecOf s v).causes + 1
        ∨ (vecOf s v).first.getD s.now + us (vecOf s v).holdoff.toNat ≤ s.now
      then fireVec v (setVec v { vecOf s v with
        causes := (vecOf s v).causes + 1, first := some ((vecOf s v).first.getD s.now) } s)
      else setVec v { vecOf s v with
        causes := (vecOf s v).causes + 1, first := some ((vecOf s v).first.getD s.now) } s := by
  unfold causeVec
  rw [if_neg other]
  dsimp only
  refine if_congr ?_ rfl rfl
  rw [vecDue_iff]
  simp

/-! ### The clock -/

theorem le_now_passTo (t : Nat) (s : State) : t ≤ (passTo t s).now := by
  unfold passTo
  split
  · assumption
  · show t ≤ s.now + 800 * ((t - s.now + 799) / 800)
    omega

/-! ### Events -/

/-- The ring takes records (R404, R420, R621), in the words' own arithmetic. -/
theorem ringRoom_iff (s : State) : ringRoom s = true ↔ s.hif.evtEnable = true ∧ dmaOk s = true
    ∧ (s.hif.evtProducer - s.hif.evtConsumer).toNat < s.hif.evtEntries.toNat := by
  unfold ringRoom
  rw [subMod_toNat]
  simp [and_assoc]

/-- A record advances the ring and leaves what waits. -/
theorem writeRecord_hif (e : Event) (s : State) :
    (writeRecord e s).hif = { s.hif with
      evtProducer := s.hif.evtProducer + 1
      evtPhase := if s.hif.evtProducer.toNat % s.hif.evtEntries.toNat + 1 = s.hif.evtEntries.toNat
        then !s.hif.evtPhase else s.hif.evtPhase
      evtWritten := s.hif.evtWritten + 1
      msix := (writeRecord e s).hif.msix } := by
  unfold writeRecord
  exact causeVec_hif ..

theorem mem_out_writeRecord (e : Event) (s : State) :
    Out.hostWrite (s.hif.evtBase.toNat + 32 * (s.hif.evtProducer.toNat % s.hif.evtEntries.toNat))
      (eventBytes e s.hif.evtPhase) ∈ (writeRecord e s).out := by
  unfold writeRecord
  exact (causeVec_out_suffix ..).subset (List.mem_cons_self ..)

theorem backlogEvent_of_lt {e : Event} {s : State} (h : s.hif.backlog.length < 256) :
    backlogEvent e s = { s with hif := { s.hif with backlog := s.hif.backlog ++ [e] } } := if_pos h

/-- A full backlog loses an event that is not urgent, or that finds only urgent ones (R424). -/
theorem backlogEvent_loses {e : Event} {s : State} (full : s.hif.backlog.length = 256)
    (yields : e.urgent = false ∨ takeNewest s.hif.backlog = none) : backlogEvent e s = loseEvent e.seq s := by
  unfold backlogEvent
  rw [if_neg (by omega)]
  split
  · next urgent =>
    rw [yields.resolve_left (by simp [urgent])]
  · rfl

/-- An urgent event takes the place of the newest one that is not (R424). -/
theorem backlogEvent_replaces {e x : Event} {l : List Event} {s : State} (full : s.hif.backlog.length = 256)
    (urgent : e.urgent = true) (newest : takeNewest s.hif.backlog = some (x, l)) :
    backlogEvent e s = loseEvent x.seq { s with hif := { s.hif with backlog := l ++ [e] } } := by
  unfold backlogEvent
  rw [if_neg (by omega), if_pos urgent, newest]

theorem loseEvent_backlog (q : Word32) (s : State) : (loseEvent q s).hif.backlog = s.hif.backlog := rfl

theorem loseEvent_lost (q : Word32) (s : State) : (loseEvent q s).hif.lost = some (match s.hif.lost with
    | none => (q, 1)
    | some (lo, n) => (if before 32 q.toNat lo.toNat then q else lo, n + 1)) := rfl

theorem loseEvent_count (q : Word32) (s : State) :
    (loseEvent q s).count (ck 440 5 0) = s.count (ck 440 5 0) + 1 := by
  unfold loseEvent
  rw [count_bump, if_pos rfl]
  rfl

theorem loseEvent_evtSeq (q : Word32) (s : State) : (loseEvent q s).hif.evtSeq = s.hif.evtSeq := rfl

theorem backlogEvent_evtSeq (e : Event) (s : State) : (backlogEvent e s).hif.evtSeq = s.hif.evtSeq := by
  unfold backlogEvent
  split
  · rfl
  · split
    · split <;> rfl
    · rfl

theorem writeRecord_evtSeq (e : Event) (s : State) : (writeRecord e s).hif.evtSeq = s.hif.evtSeq := by
  rw [writeRecord_hif]

/-- The event that a moment raises: SEQ and TIME are those of that moment (R421). -/
def eventNow (typ : Nat) (urgent : Bool) (index : Nat) (payload : Bytes) (s : State) : Event :=
  { seq := s.hif.evtSeq, typ := BitVec.ofNat 16 typ, urgent := urgent, index := BitVec.ofNat 8 index
    time := BitVec.ofNat 96 (timeWord s), payload := payload }

/-- SEQ taken for an event. -/
def takeSeq (s : State) : State := { s with hif := { s.hif with evtSeq := s.hif.evtSeq + 1 } }

section
variable {typ idx : Nat} {urgent : Bool} {d : Bytes} {s : State}

theorem raise_eq : raise typ urgent idx d s
    = if ringRoom (takeSeq s) && (takeSeq s).hif.backlog.isEmpty && (takeSeq s).hif.lost.isNone
      then writeRecord (eventNow typ urgent idx d s) (takeSeq s)
      else backlogEvent (eventNow typ urgent idx d s) (takeSeq s) := rfl

theorem raise_writes (room : ringRoom s = true) (empty : s.hif.backlog = []) (whole : s.hif.lost = none) :
    raise typ urgent idx d s = writeRecord (eventNow typ urgent idx d s) (takeSeq s) := by
  rw [raise_eq]
  refine if_pos ?_
  have room' : ringRoom (takeSeq s) = true := room
  have empty' : (takeSeq s).hif.backlog = [] := empty
  have whole' : (takeSeq s).hif.lost = none := whole
  rw [room', empty', whole']
  rfl

theorem raise_waits (held : ¬ ringRoom s = true ∨ s.hif.backlog ≠ [] ∨ s.hif.lost ≠ none) :
    raise typ urgent idx d s = backlogEvent (eventNow typ urgent idx d s) (takeSeq s) := by
  rw [raise_eq]
  refine if_neg fun h => ?_
  simp only [Bool.and_eq_true, List.isEmpty_iff, Option.isNone_iff_eq_none] at h
  obtain ⟨⟨room, empty⟩, whole⟩ := h
  rcases held with r | b | l
  · exact r room
  · exact b empty
  · exact l whole

theorem raise_evtSeq : (raise typ urgent idx d s).hif.evtSeq = s.hif.evtSeq + 1 := by
  rw [raise_eq]
  split
  · exact writeRecord_evtSeq ..
  · exact backlogEvent_evtSeq ..

theorem nonempty_of_full (full : s.hif.backlog.length = 256) : s.hif.backlog ≠ [] := by
  intro h
  simp [h] at full

/-- A full backlog loses an event that is not urgent, or finds no place for an urgent one. -/
theorem raise_loses (full : s.hif.backlog.length = 256)
    (yields : urgent = false ∨ takeNewest s.hif.backlog = none) :
    raise typ urgent idx d s = loseEvent s.hif.evtSeq (takeSeq s) :=
  (raise_waits (.inr (.inl (nonempty_of_full full)))).trans (backlogEvent_loses (s := takeSeq s) full yields)

end

/-! ### The drain -/

theorem drainBacklog_cons {e : Event} {l : List Event} {s : State} (room : ringRoom s = true) :
    drainBacklog (e :: l) s = drainBacklog l (writeRecord e { s with hif := { s.hif with backlog := l } }) :=
  if_pos room

/-- The drain leaves what was lost. -/
theorem drainBacklog_lost (l : List Event) (s : State) : (drainBacklog l s).hif.lost = s.hif.lost := by
  induction l generalizing s with
  | nil => rfl
  | cons e l ih =>
    unfold drainBacklog
    split
    · rw [ih, writeRecord_hif]
    · rfl

theorem execEventBacklogDrain_whole {s : State} (whole : s.hif.lost = none) :
    exec .eventBacklogDrain s = .next (drainBacklog s.hif.backlog s) := by
  show execEventBacklogDrain s = _
  unfold execEventBacklogDrain
  dsimp only
  rw [drainBacklog_lost, whole]

theorem execEventBacklogDrain_lossy {s : State} {lo : Word32} {k : Nat} (lossy : s.hif.lost = some (lo, k)) :
    exec .eventBacklogDrain s = .next (if (drainBacklog s.hif.backlog s).hif.backlog = []
        ∧ ringRoom (drainBacklog s.hif.backlog s) = true
      then raise 0x0100 false 0xFF (leBytes 4 lo.toNat ++ leBytes 4 k)
        { drainBacklog s.hif.backlog s with hif := { (drainBacklog s.hif.backlog s).hif with lost := none } }
      else drainBacklog s.hif.backlog s) := by
  show execEventBacklogDrain s = _
  unfold execEventBacklogDrain
  dsimp only
  rw [drainBacklog_lost, lossy]
  simp only [Bool.and_eq_true, List.isEmpty_iff]
  split <;> rfl

/-! ### Moderation (R426, R622) -/

/-- A vector as a write of MSIX_MOD leaves it. -/
def modSet (vec : Nat) (v : Word32) (s : State) : MsixVec :=
  { vecOf s vec with countM1 := v.extractLsb' 16 8, holdoff := v.extractLsb' 0 10 }

theorem execMsixModWrite_unmoderated {vec : Fin 32} {s : State} (v : Word32) (ready : s.dev.ready = true)
    (plain : vec = 1 ∨ 11 ≤ vec.val) : exec (.msixModWrite vec v) s = .next s := by
  refine congrArg _ ((afterReady_of_ready _ ready).trans ?_)
  rw [moderated_eq_false plain]
  rfl

theorem execMsixModWrite_moderated {vec : Fin 32} {s : State} (v : Word32) (ready : s.dev.ready = true)
    (mod : moderated vec = true) :
    exec (.msixModWrite vec v) s = .next (if vecDue (setVec vec (modSet vec v s) s) (modSet vec v s)
      then fireVec vec (setVec vec (modSet vec v s) s) else setVec vec (modSet vec v s) s) := by
  refine congrArg _ ((afterReady_of_ready _ ready).trans ?_)
  rw [mod]
  rfl

/-- HOLDOFF's end fires a vector whose causes wait (R426). -/
theorem execMsixHoldoffExpiry_fires {vec : Fin 32} {s : State} {t : Nat} (mod : moderated vec = true)
    (first : (vecOf s vec).first = some t) (waits : 0 < (vecOf s vec).causes) :
    exec (.msixHoldoffExpiry vec) s
      = .next (fireVec vec (passTo (t + us (vecOf s vec).holdoff.toNat) s)) := by
  show execMsixHoldoffExpiry vec s = _
  unfold execMsixHoldoffExpiry
  have due : vecDue (passSince (vecOf s vec).first (us (vecOf s vec).holdoff.toNat) s) (vecOf s vec) = true := by
    rw [vecDue_iff, first]
    exact ⟨waits, .inr ⟨t, rfl, le_now_passTo ..⟩⟩
  dsimp only
  rw [mod, due, first]
  rfl

theorem execMsixHoldoffExpiry_idle {vec : Fin 32} {s : State}
    (idle : vec = 1 ∨ 11 ≤ vec.val ∨ (vecOf s vec).causes = 0) : exec (.msixHoldoffExpiry vec) s = .next s := by
  show execMsixHoldoffExpiry vec s = _
  unfold execMsixHoldoffExpiry
  refine if_neg fun h => ?_
  rw [Bool.and_eq_true, moderated_iff, vecDue_iff] at h
  obtain ⟨⟨low, other⟩, waits, -⟩ := h
  omega

end Sys2Proof.Machine
end

section
/-! PROOFS. The event ring and the vectors (O19, O20), and how the rows of moderation, of the drain and of the
deadlines complete (O60). -/

namespace Sys2Proof.Machine

open Sys2Proof

/-- Settles O19: an event is written where the ring has room and nothing waits, and waits or is lost otherwise. -/
theorem eventsReachTheRing : Obligations.EventsReachTheRing := by
  refine ⟨?_, fun s whole => execEventBacklogDrain_whole whole, fun e l s room => drainBacklog_cons room,
    fun lo k s empty lossy room => (execEventBacklogDrain_lossy lossy).trans ?_⟩
  · intro typ idx urgent d s e t room
    refine ⟨raise_evtSeq, fun h empty whole => ?_, fun held space => ?_, fun full plain => ?_,
      fun x l full urg newest => ?_, fun full urg newest => ?_⟩
    · have written : t = writeRecord e (takeSeq s) := raise_writes ((ringRoom_iff s).mpr h) empty whole
      rw [written]
      refine ⟨?_, ?_, mem_out_writeRecord e (takeSeq s), ?_⟩
      · rw [writeRecord_hif]
        rfl
      · rw [writeRecord_hif]
        exact empty
      · rw [writeRecord_hif]
        rfl
    · have waits : t = backlogEvent e (takeSeq s) :=
        raise_waits (held.imp_left fun h g => h ((ringRoom_iff s).mp g))
      rw [waits, backlogEvent_of_lt (s := takeSeq s) space]
      exact ⟨rfl, rfl, rfl⟩
    · have lost : t = loseEvent s.hif.evtSeq (takeSeq s) := raise_loses full (.inl plain)
      rw [lost]
      exact ⟨rfl, loseEvent_lost .., loseEvent_count ..⟩
    · have waits : t = backlogEvent e (takeSeq s) := raise_waits (.inr (.inl (nonempty_of_full full)))
      rw [waits, backlogEvent_replaces (s := takeSeq s) full urg newest]
      exact ⟨rfl, loseEvent_count ..⟩
    · have lost : t = loseEvent s.hif.evtSeq (takeSeq s) := raise_loses full (.inr newest)
      rw [lost]
      exact ⟨rfl, loseEvent_count ..⟩
  · rw [empty]
    exact congrArg _ (if_pos ⟨empty, room⟩)

/-- Settles O20: a cause counts, and what is due fires. -/
theorem vectorsAreModerated : Obligations.VectorsAreModerated := by
  refine ⟨fun v s => ⟨fun clear dma => ?_, fun held => ?_, ?_, ?_, fun w other => ?_⟩, fun s => rfl,
    fun v s other => ?_, fun vec v s ready mod => ⟨fun early => ?_, fun due => ?_⟩,
    fun vec v s ready plain => execMsixModWrite_unmoderated v ready plain,
    fun vec s t mod first waits => execMsixHoldoffExpiry_fires mod first waits⟩
  · refine ⟨by rw [fireVec_open clear dma]; rfl, ?_⟩
    rw [vecOf_fireVec_self]
    simp [clear, dma]
  · refine ⟨by rw [fireVec_held held]; rfl, ?_⟩
    rw [vecOf_fireVec_self]
    rcases held with h | h <;> simp [h]
  · rw [vecOf_fireVec_self]
  · rw [vecOf_fireVec_self]
  · exact vecOf_fireVec_other (fun same => other (Fin.ext same)) s
  · exact causeVec_counts (fun one => other (Fin.ext one)) s
  · rw [execMsixModWrite_moderated v ready mod]
    exact congrArg _ (if_neg (Bool.eq_false_iff.mp early))
  · rw [execMsixModWrite_moderated v ready mod]
    exact congrArg _ (if_pos due)

/-- Settles O60: each row's answer in every state, from the rules above and the steps of R414. -/
theorem moderationDrainAndDeadlinesComplete : Obligations.ModerationDrainAndDeadlinesComplete := by
  refine ⟨?_, fun vec s idle => execMsixHoldoffExpiry_idle idle, fun vec t s other low waits first =>
      execMsixHoldoffExpiry_fires ((moderated_iff vec).mpr ⟨low, other⟩) first waits,
    fun s whole => execEventBacklogDrain_whole whole, fun lo k s lossy => execEventBacklogDrain_lossy lossy, ?_,
    fun n s none => ?_, fun n k i s r waits => execCommandDeadlineExpiry_waiting k i waits, fun n k i s idle none => ?_,
    fun n k s b c idle next named new header listed legal =>
      execCommandDeadlineExpiry_legal k idle next named new header listed legal⟩
  · intro vec v s x due
    have isDue : vecDue (setVec vec x s) x = true ↔ due := vecDue_iff (setVec vec x s) x
    refine ⟨fun early => congrArg _ (afterReady_of_not_ready _ early),
      fun ready plain => execMsixModWrite_unmoderated v ready plain, fun ready other low calm => ?_,
      fun ready other low met => ?_⟩
    · rw [execMsixModWrite_moderated v ready ((moderated_iff vec).mpr ⟨low, other⟩)]
      exact congrArg _ (if_neg (mt isDue.mp calm))
    · rw [execMsixModWrite_moderated v ready ((moderated_iff vec).mpr ⟨low, other⟩)]
      exact congrArg _ (if_pos (isDue.mpr met))
  · intro n s b next p
    refine ⟨fun zero => ?_, fun k one same kept => ?_, fun l one last old => ?_,
      fun off new bad => execUnknownOpcode_header next new bad, fun new header => ?_⟩
    · rw [execUnknownOpcode_judges next (by simp [headerFails_eq, zero])]
      exact congrArg _ (judge_zero (s := p) _ zero)
    · rw [execUnknownOpcode_judges next (by simp [headerFails_eq, seqStep_same same])]
      exact congrArg _ (judge_repeat (s := p) _ one same kept)
    · rw [execUnknownOpcode_judges next (by rw [headerFails_eq, seqStep_after last, decide_eq_true old]; simp)]
      exact congrArg _ (judge_stale (s := p) _ one last old)
    · obtain ⟨one, far, near⟩ := seqNew_iff.mp new
      have header' : stepThree (cmdOf (mbxField s n 4 2)) n (mbxField s n 6 2) (cmdArgs s n) s = none := header
      rw [execUnknownOpcode_next next]
      refine congrArg _ (if_neg ?_)
      simpa [headerFails_eq, far, header'] using And.intro one near
  · show execUnknownOpcode n s = _
    unfold execUnknownOpcode
    rw [none]
  · show execCommandDeadlineExpiry n k s i = _
    unfold execCommandDeadlineExpiry
    rw [idle]
    dsimp only
    rw [none]

end Sys2Proof.Machine
end

section
/-! PROOFS. The mailboxes as the host sees them (O10 to O12), and what an accepted command leaves in them (O16). -/

namespace Sys2Proof.Machine

open Sys2Proof

/-! ### Bits of a word -/

/-- Clearing a bit of a word changes that bit alone. -/
theorem bit_setBit_false (w i j : Nat) : bit (setBit w i false) j = (decide (j ≠ i) && bit w j) := by
  cases h : bit w i with
  | false =>
    have same : setBit w i false = w := by simp [setBit, h]
    rw [same]
    by_cases e : j = i
    · simp [e, h]
    · simp [e]
  | true =>
    rw [bit_eq_testBit] at h
    obtain ⟨v, rfl⟩ : ∃ v, w = v + 2 ^ i := ⟨w - 2 ^ i, (Nat.sub_add_cancel (Nat.ge_two_pow_of_testBit h)).symm⟩
    have clear : v.testBit i = false := by
      rw [Nat.add_comm, Nat.testBit_two_pow_add_eq] at h
      simpa using h
    have cleared : setBit (v + 2 ^ i) i false = v := by simp [setBit, bit_eq_testBit, h]
    have set : setBit v i true = v + 2 ^ i := by simp [setBit, bit_eq_testBit, clear]
    rw [cleared, ← set, bit_setBit_true]
    by_cases e : j = i
    · simp [e, bit_eq_testBit, clear]
    · simp [e]

/-- A mask of 16 bits keeps what is written of its bits. -/
theorem getLsbD_ofNat_setBit_true {w i j : Nat} (h : j < 16) :
    (BitVec.ofNat 16 (setBit w i true)).getLsbD j = (decide (j = i) || w.testBit j) := by
  rw [BitVec.getLsbD_ofNat, decide_eq_true h, Bool.true_and, ← bit_eq_testBit, bit_setBit_true, bit_eq_testBit]

theorem getLsbD_ofNat_setBit_false {w i j : Nat} (h : j < 16) :
    (BitVec.ofNat 16 (setBit w i false)).getLsbD j = (decide (j ≠ i) && w.testBit j) := by
  rw [BitVec.getLsbD_ofNat, decide_eq_true h, Bool.true_and, ← bit_eq_testBit, bit_setBit_false, bit_eq_testBit]

theorem setBit_true_lt {w i k : Nat} (hi : i < k) (hw : w < 2 ^ k) : setBit w i true < 2 ^ k := by
  refine Nat.lt_pow_two_of_testBit _ fun j hj => ?_
  rw [← bit_eq_testBit, bit_setBit_true, bit_eq_testBit, Nat.testBit_lt_two_pow (Nat.lt_of_lt_of_le hw
    (Nat.pow_le_pow_right (by decide) hj))]
  simp
  omega

/-! ### Fields of a mailbox -/

theorem mbxRead_of_mbox {s t : State} (h : t.hif.mbox = s.hif.mbox) (n off len : Nat) :
    mbxRead t n off len = mbxRead s n off len := by
  unfold mbxRead
  rw [h]

theorem le_lt (b : Bytes) (off n : Nat) : le b off n < 256 ^ n := by
  induction n generalizing off with
  | zero => simp [le]
  | succ n ih =>
    have low : byteAt b off < 256 := (b.getD off 0).isLt
    have high := ih (off + 1)
    rw [le, Nat.pow_succ']
    omega

theorem mbxField_lt (s : State) (n off len : Nat) : mbxField s n off len < 256 ^ len := le_lt ..

/-! ### Doorbells (R410) -/

theorem execMbxDoorbell_ignored {v : Word32} {s : State} {cause : Nat} (h : doorbellRefusal v s = some cause) :
    exec (.mbxDoorbell v) s = .next (bump (ck 440 1 (v.toNat % 16 * 4 + cause)) 1 s) := by
  show execMbxDoorbell v s = _
  unfold execMbxDoorbell
  rw [h]

theorem execMbxDoorbell_rings {v : Word32} {s : State} (h : doorbellRefusal v s = none) :
    exec (.mbxDoorbell v) s = .next (ringBell (v.toNat % 16) s) := by
  show execMbxDoorbell v s = _
  unfold execMbxDoorbell
  rw [h]

/-- The mailbox memory that a ring leaves: SEQ echoed, PENDING, no journal entry, and no response data. -/
def rungMailbox (n : Nat) (s : State) : State :=
  mbxWrite n 0x808 (leBytes 8 0) (mbxWrite n 0x804 (leBytes 4 stPending)
    (mbxWrite n 0x800 (mbxRead s n 0x000 4) (clearResponse n s)))

/-- A ring: the mailbox memory, then MBX_DONE, the queue of rings and the count. -/
theorem ringBell_eq (n : Nat) (s : State) : ringBell n s = bump (ck 440 0 n) 1 { s with hif := { s.hif with
    mbox := (rungMailbox n s).hif.mbox
    done := BitVec.ofNat 16 (setBit s.hif.done.toNat n false)
    bells := s.hif.bells ++ [{ mbx := n, at_ := s.now, beryl := BitVec.ofNat 96 (timeWord s) }] } } := by
  simp only [ringBell, rungMailbox, mbxWrite, clearResponse]

theorem ringBell_mbox (n : Nat) (s : State) : (ringBell n s).hif.mbox = (rungMailbox n s).hif.mbox := by
  rw [ringBell_eq, bump_hif]

theorem count_of_cnt {s t : State} (h : t.cnt = s.cnt) (k : Nat) : t.count k = s.count k := by
  unfold State.count
  rw [h]

theorem ringBell_count (n : Nat) (s : State) : (ringBell n s).count (ck 440 0 n) = s.count (ck 440 0 n) + 1 := by
  rw [ringBell_eq, count_bump, if_pos rfl, count_of_cnt (s := s)]
  exact rfl

theorem mbxRead_length (s : State) (n off len : Nat) : (mbxRead s n off len).length = len := getBytes_length ..

/-- A ring writes its own mailbox's response area alone. -/
theorem tget_ringBell_outside {n a : Nat} (s : State) (h : a < mbxAddr n 0x800 ∨ mbxAddr n 0x1000 ≤ a) :
    tget 0 (ringBell n s).hif.mbox a = tget 0 s.hif.mbox a := by
  unfold mbxAddr at h
  rw [ringBell_mbox]
  unfold rungMailbox
  rw [tget_mbxWrite, if_neg (by simp only [mbxAddr, leBytes_length]; omega), tget_mbxWrite,
    if_neg (by simp only [mbxAddr, leBytes_length]; omega), tget_mbxWrite,
    if_neg (by simp only [mbxAddr, mbxRead_length]; omega), tget_clearResponse,
    if_neg (by simp only [mbxAddr]; omega)]

/-- The echo of SEQ. -/
theorem mbxRead_ringBell_seq (n : Nat) (s : State) :
    mbxRead (ringBell n s) n 0x800 4 = mbxRead s n 0x000 4 := by
  rw [mbxRead_of_mbox (ringBell_mbox n s)]
  unfold rungMailbox
  rw [mbxRead_mbxWrite_apart _ _ _ _ _ _ _ (by simp only [mbxAddr]; omega),
    mbxRead_mbxWrite_apart _ _ _ _ _ _ _ (by simp only [mbxAddr]; omega)]
  have echo := mbxRead_mbxWrite n 0x800 (mbxRead s n 0x000 4) (clearResponse n s)
  rwa [mbxRead_length] at echo

theorem mbxField_ringBell_status (n : Nat) (s : State) : mbxField (ringBell n s) n 0x804 4 = 1 := by
  rw [mbxField_of_mbox (ringBell_mbox n s)]
  unfold rungMailbox
  rw [mbxField_mbxWrite_apart _ _ _ _ _ _ _ (by simp only [mbxAddr]; omega), mbxField_mbxWrite]
  rfl

theorem mbxField_ringBell_journal (n : Nat) (s : State) : mbxField (ringBell n s) n 0x808 8 = 0 := by
  rw [mbxField_of_mbox (ringBell_mbox n s)]
  unfold rungMailbox
  rw [mbxField_mbxWrite]
  rfl

theorem doorbellRefusal_none {v : Word32} {s : State} (ready : s.dev.ready = true) (low : v.toNat < 16)
    (idle : isPending s v.toNat = false) : doorbellRefusal v s = none := by
  simp [doorbellRefusal, ready, Nat.not_le.mpr low, Nat.mod_eq_of_lt low, idle]

theorem doorbellRefusal_early {v : Word32} {s : State} (early : s.dev.ready = false) :
    doorbellRefusal v s = some 0 := by
  simp [doorbellRefusal, early]

theorem doorbellRefusal_high {v : Word32} {s : State} (ready : s.dev.ready = true) (high : 16 ≤ v.toNat) :
    doorbellRefusal v s = some 2 := by
  simp [doorbellRefusal, ready, high]

theorem doorbellRefusal_pending {v : Word32} {s : State} (ready : s.dev.ready = true) (low : v.toNat < 16)
    (pending : isPending s v.toNat = true) : doorbellRefusal v s = some 1 := by
  simp [doorbellRefusal, ready, Nat.not_le.mpr low, Nat.mod_eq_of_lt low, pending]

/-- Settles O10: a ring that no cause refuses makes its changes; a refused one is counted by its cause. -/
theorem doorbellRings : Obligations.DoorbellRings := by
  refine ⟨fun v s ready low idle => ?_, fun n s low => ?_, fun v s early => ?_, fun v s ready high => ?_,
    fun v s ready low pending => ?_⟩
  · rw [execMbxDoorbell_rings (doorbellRefusal_none ready low idle), Nat.mod_eq_of_lt low]
  · refine ⟨mbxRead_ringBell_seq n s, mbxField_ringBell_status n s, mbxField_ringBell_journal n s, fun i hi => ?_, ?_,
      fun a outside => tget_ringBell_outside s outside, ?_, ?_, ?_, ?_⟩
    · rw [ringBell_eq]
      show (BitVec.ofNat 16 (setBit s.hif.done.toNat n false)).getLsbD i = _
      rw [getLsbD_ofNat_setBit_false hi, BitVec.testBit_toNat, Bool.and_comm, decide_not]
      rfl
    · rw [ringBell_eq, bump_hif]
    · rw [ringBell_eq, bump_hif]
    · rw [ringBell_eq, bump_dev]
    · rw [ringBell_eq, bump_out]
    · exact ringBell_count n s
  · exact execMbxDoorbell_ignored (doorbellRefusal_early early)
  · exact execMbxDoorbell_ignored (doorbellRefusal_high ready high)
  · rw [execMbxDoorbell_ignored (doorbellRefusal_pending ready low pending), Nat.mod_eq_of_lt low]

/-! ### Reads of the status (R417) -/

/-- Settles O11: a final status takes REPEAT at its first read; any other read returns the word alone. -/
theorem statusReadSetsRepeat : Obligations.StatusReadSetsRepeat := by
  refine ⟨fun n s final => ?_, fun n s open_ => ?_⟩
  · have answer : exec (.mbxStatusRead n) s = .next (mbxWrite n 0x804
        (leBytes 4 (setBit (mbxField s n 0x804 4) 8 true)) (emit (.readData (mbxField s n 0x804 4)) s)) := by
      show execMbxStatusRead n s = _
      exact if_pos final
    refine ⟨_, answer, rfl, ?_, fun a outside => ?_, rfl, rfl, rfl⟩
    · rw [mbxField_mbxWrite]
      exact Nat.mod_eq_of_lt (setBit_true_lt (k := 32) (by decide) (mbxField_lt s n 0x804 4))
    · rw [tget_mbxWrite, if_neg]
      · rfl
      · simp only [mbxAddr, leBytes_length] at outside ⊢
        omega
  · show execMbxStatusRead n s = _
    exact if_neg (Bool.eq_false_iff.mp open_)

/-! ### Writes (R401, R406, R409) -/

/-- The bytes of a write that are enabled land, and no others. -/
theorem tget_writeEnabled (m : Tab Byte) (a : Nat) (l : List (Option Byte)) (j : Nat) :
    tget 0 (writeEnabled m a l) j
      = if a ≤ j ∧ j < a + l.length then (l.getD (j - a) none).getD (tget 0 m j) else tget 0 m j := by
  induction l generalizing m a with
  | nil => simp [writeEnabled]
  | cons o l ih =>
    have rest (m' : Tab Byte) (other : j ≠ a → tget 0 m' j = tget 0 m j)
        (here : j = a → tget 0 m' j = o.getD (tget 0 m j)) :
        tget 0 (writeEnabled m' (a + 1) l) j = if a ≤ j ∧ j < a + (o :: l).length
          then ((o :: l).getD (j - a) none).getD (tget 0 m j) else tget 0 m j := by
      rw [ih, List.length_cons]
      by_cases first : j = a
      · subst first
        rw [if_neg (by omega), if_pos (by omega), here rfl]
        simp
      · rw [other first]
        by_cases inside : a + 1 ≤ j ∧ j < a + 1 + l.length
        · obtain ⟨i, rfl⟩ : ∃ i, j = a + 1 + i := ⟨j - (a + 1), by omega⟩
          rw [if_pos inside, if_pos (by omega), Nat.add_sub_cancel_left, show a + 1 + i - a = i + 1 by omega,
            List.getD_cons_succ]
        · rw [if_neg inside, if_neg (by omega)]
    cases o with
    | none => exact rest m (fun _ => rfl) (fun _ => rfl)
    | some b =>
      exact rest (tset 0 m a b) (tget_tset_other 0 m b) (fun here => by rw [here, tget_tset_self]; rfl)

/-- A write is of a kind that a mailbox accepts (R401). -/
def mailboxWriteOk (off : Nat) (data : List (Option Byte)) : Prop :=
  off % 4 = 0 ∧ data.length % 4 = 0 ∧ 0 < data.length ∧ data.length ≤ 256 ∧ off + data.length ≤ 0x1000

/-- What a write of an accepted kind does. -/
theorem execMailboxWrite_accepted {n : Fin 16} {off : Nat} {data : List (Option Byte)} (s : State)
    (ok : mailboxWriteOk off data) :
    exec (.mailboxWrite n off data) s
      = (let s1 := if off + data.length > 0x800 then bump (ck 440 4 (n * 2)) 1 s else s
        if (data.take (0x800 - off)).isEmpty then .next s1
        else if isPending s n then .next (bump (ck 440 4 (n * 2 + 1)) 1 s1)
        else .next { s1 with hif := { s1.hif with
          mbox := writeEnabled s1.hif.mbox (mbxAddr n off) (data.take (0x800 - off)) } }) := by
  obtain ⟨aligned, words, some_, short, inside⟩ := ok
  exact if_neg (by omega)

/-- Settles O12: a write lands, is discarded or is unsupported by where it lies and what its mailbox is. -/
theorem mailboxWritesAreFiltered : Obligations.MailboxWritesAreFiltered := by
  refine ⟨fun n off data s h1 h2 h3 h4 h5 idle => ?_, fun n off data s h1 h2 h3 h4 h5 pending => ?_,
    fun n off data s h1 h2 h3 h4 response inside => ?_, fun n off data s bad => if_pos (by omega)⟩
  · have ok : mailboxWriteOk off data := ⟨h1, h2, h3, h4, by omega⟩
    have whole : data.take (0x800 - off) = data := List.take_of_length_le (by omega)
    have some_ : data.isEmpty = false := by simpa [List.length_pos_iff] using h3
    refine ⟨{ s with hif := { s.hif with mbox := writeEnabled s.hif.mbox (mbxAddr n off) data } }, ?_, fun i hi => ?_,
      fun a outside => ?_, rfl⟩
    · have low : ¬ off + data.length > 0x800 := by omega
      simp only [execMailboxWrite_accepted s ok, whole, some_, idle, if_neg low, Bool.false_eq_true, if_false]
    · have start : mbxAddr n (off + i) = mbxAddr n off + i := by
        unfold mbxAddr
        omega
      rw [start, tget_writeEnabled, if_pos (by omega), Nat.add_sub_cancel_left]
    · refine (tget_writeEnabled ..).trans (if_neg ?_)
      unfold mbxAddr at *
      omega
  · have ok : mailboxWriteOk off data := ⟨h1, h2, h3, h4, by omega⟩
    have whole : data.take (0x800 - off) = data := List.take_of_length_le (by omega)
    have some_ : data.isEmpty = false := by simpa [List.length_pos_iff] using h3
    have low : ¬ off + data.length > 0x800 := by omega
    simp only [execMailboxWrite_accepted s ok, whole, some_, pending, if_neg low, Bool.false_eq_true, if_false, if_true]
  · have ok : mailboxWriteOk off data := ⟨h1, h2, h3, h4, inside⟩
    have high : off + data.length > 0x800 := by omega
    simp only [execMailboxWrite_accepted s ok, Nat.sub_eq_zero_of_le response, if_pos high, List.take_zero,
      List.isEmpty_nil, if_true]

/-! ### Results (R416, R417, R432) -/

/-- What a result is read from: the mailboxes, MBX_DONE, LAST_SEQ and the journal. -/
def State.results (s : State) : Tab Byte × Word16 × Tab (Option Word32) × List JEntry × Nat :=
  (s.hif.mbox, s.hif.done, s.hif.lastSeq, s.hif.journal, s.hif.jrnHead)

theorem results_of_msix {s t : State} (h : t.hif = { s.hif with msix := t.hif.msix }) : t.results = s.results := by
  unfold State.results
  rw [h]

theorem causeVec_results (v : Nat) (s : State) : (causeVec v s).results = s.results :=
  results_of_msix (causeVec_hif v s)

theorem writeRecord_results (e : Event) (s : State) : (writeRecord e s).results = s.results := by
  unfold State.results
  rw [writeRecord_hif]

theorem backlogEvent_results (e : Event) (s : State) : (backlogEvent e s).results = s.results := by
  unfold backlogEvent
  split
  · rfl
  · split
    · split <;> rfl
    · rfl

/-- An event changes no result. -/
theorem raise_results (typ idx : Nat) (urgent : Bool) (d : Bytes) (s : State) :
    (raise typ urgent idx d s).results = s.results := by
  rw [raise_eq]
  split
  · exact writeRecord_results ..
  · exact backlogEvent_results ..

/-- The mailbox memory that a result leaves: its data, RSP_LEN, RSP_JOURNAL_SEQ and status (R416). -/
def answeredMailbox (n st jseq : Nat) (rolled part : Bool) (d : Bytes) (s : State) : State :=
  mbxWrite n 0x804 (leBytes 4 (statusWord st rolled part false false d.length))
    (mbxWrite n 0x808 (leBytes 8 jseq) (mbxWrite n 0x840 d (clearResponse n s)))

section
variable {n st jseq : Nat} {rolled part : Bool} {d : Bytes} {s : State}

/-- A result writes the response area of its mailbox alone, and leaves SEQ as the ring set it. -/
theorem tget_answeredMailbox_outside {a : Nat} (fits : d.length ≤ 1984)
    (outside : a < mbxAddr n 0x804 ∨ mbxAddr n 0x1000 ≤ a) :
    tget 0 (answeredMailbox n st jseq rolled part d s).hif.mbox a = tget 0 s.hif.mbox a := by
  unfold mbxAddr at outside
  unfold answeredMailbox
  rw [tget_mbxWrite, if_neg (by simp only [mbxAddr, leBytes_length]; omega), tget_mbxWrite,
    if_neg (by simp only [mbxAddr, leBytes_length]; omega), tget_mbxWrite,
    if_neg (by simp only [mbxAddr]; omega), tget_clearResponse, if_neg (by simp only [mbxAddr]; omega)]

/-- The response data beyond RSP_LEN reads 0. -/
theorem tget_answeredMailbox_beyond {i : Nat} (beyond : d.length ≤ i) (inside : i < 1984) :
    tget 0 (answeredMailbox n st jseq rolled part d s).hif.mbox (mbxAddr n (0x840 + i)) = 0 := by
  unfold answeredMailbox
  rw [tget_mbxWrite, if_neg (by simp only [mbxAddr, leBytes_length]; omega), tget_mbxWrite,
    if_neg (by simp only [mbxAddr, leBytes_length]; omega), tget_mbxWrite,
    if_neg (by simp only [mbxAddr]; omega), tget_clearResponse, if_pos (by simp only [mbxAddr]; omega)]

theorem mbxField_answeredMailbox_status (low : st < 256) (fits : d.length ≤ 1984) :
    mbxField (answeredMailbox n st jseq false false d s) n 0x804 4 = st + 2 ^ 16 * d.length := by
  unfold answeredMailbox
  rw [mbxField_mbxWrite]
  simp only [statusWord, b2n, Bool.false_eq_true, if_false]
  omega

theorem mbxField_answeredMailbox_journal (short : jseq < 2 ^ 64) :
    mbxField (answeredMailbox n st jseq rolled part d s) n 0x808 8 = jseq := by
  unfold answeredMailbox
  rw [mbxField_mbxWrite_apart _ _ _ _ _ _ _ (by simp only [mbxAddr, leBytes_length]; omega), mbxField_mbxWrite]
  exact Nat.mod_eq_of_lt short

theorem mbxRead_answeredMailbox_data :
    mbxRead (answeredMailbox n st jseq rolled part d s) n 0x840 d.length = d := by
  unfold answeredMailbox
  rw [mbxRead_mbxWrite_apart _ _ _ _ _ _ _ (by simp only [mbxAddr, leBytes_length]; omega),
    mbxRead_mbxWrite_apart _ _ _ _ _ _ _ (by simp only [mbxAddr, leBytes_length]; omega), mbxRead_mbxWrite]

end

/-- The journal entry of a result (R432). -/
def resultEntry (n st : Nat) (q : Word32) (op : Nat) (a : Bytes) (rolled part : Bool) (s : State) : JEntry :=
  { jseq := s.hif.jrnHead + 1, time := BitVec.ofNat 96 (timeWord s), cmdSeq := q, opcode := op, mbx := n
    isPartial := part, rolled := rolled, status := BitVec.ofNat 8 st, argCrc := argCrc a, first32 := fit 32 a }

theorem setDone_results (n : Nat) (s : State) : (setDone n s).results
    = (s.hif.mbox, BitVec.ofNat 16 (setBit s.hif.done.toNat n true), s.hif.lastSeq, s.hif.journal, s.hif.jrnHead) := by
  unfold setDone
  dsimp only
  split
  · exact causeVec_results ..
  · rfl

/-- A result as it is presented: its own mailbox and its bit of MBX_DONE. -/
theorem respond_results (n st : Nat) (rolled part : Bool) (jseq : Nat) (d : Bytes) (s : State) :
    (respond n st rolled part false jseq d s).results
      = ((answeredMailbox n st jseq rolled part d s).hif.mbox, BitVec.ofNat 16 (setBit s.hif.done.toNat n true),
        s.hif.lastSeq, s.hif.journal, s.hif.jrnHead) := by
  have counted (k i : Nat) (x : State) : (bump k i x).results = x.results := rfl
  unfold respond
  dsimp only
  rw [counted, setDone_results]
  simp only [answeredMailbox, mbxWrite, clearResponse]

/-- LAST_SEQ and the kept response of a command that passed step 2. -/
def keepResult (n : Nat) (q : Word32) (k : Kept) (s : State) : State :=
  { s with hif := { s.hif with
    lastSeq := tset none s.hif.lastSeq n (some q), kept := tset none s.hif.kept n (some k) } }

theorem keepResult_results {n : Nat} {q : Word32} {k : Kept} {s : State} {m : Tab Byte} {w : Word16}
    {l : Tab (Option Word32)} {j : List JEntry} {h : Nat} (was : s.results = (m, w, l, j, h)) :
    (keepResult n q k s).results = (m, w, tset none l n (some q), j, h) := by
  simp only [State.results, Prod.mk.injEq] at was
  obtain ⟨rfl, rfl, rfl, rfl, rfl⟩ := was
  rfl

/-- A journalled result: its entry, what it presents, LAST_SEQ, and for two of the statuses an event. -/
theorem finish_eq (n st : Nat) (q : Word32) (op : Nat) (a : Bytes) (rolled part : Bool) (d : Bytes) (s : State) :
    ∃ (k : Kept) (f : State → State), (∀ x, (f x).results = x.results)
      ∧ finish n q op a true st rolled part d s = f (keepResult n q k
        (respond n st rolled part false (s.hif.jrnHead + 1) d (journal q op n st rolled part a s))) := by
  refine ⟨{ status := BitVec.ofNat 8 st, rolled := rolled, isPartial := part, jseq := s.hif.jrnHead + 1, data := d },
    fun x => if st = stAuth then raise 0x0105 false n (leBytes 4 q.toNat ++ leBytes 2 op) x
      else if st = stInternal then raise 0x0104 true n (leBytes 4 q.toNat ++ leBytes 2 op) x else x, fun x => ?_, ?_⟩
  · dsimp only
    split
    · exact raise_results ..
    · split
      · exact raise_results ..
      · rfl
  · simp only [finish, keepResult, journal, if_true]

/-- A result that is journalled: what it leaves in the mailbox, in MBX_DONE, as LAST_SEQ and in the journal. -/
theorem finish_results (n st : Nat) (q : Word32) (op : Nat) (a : Bytes) (rolled part : Bool) (d : Bytes) (s : State) :
    (finish n q op a true st rolled part d s).results
      = ((answeredMailbox n st (s.hif.jrnHead + 1) rolled part d s).hif.mbox,
        BitVec.ofNat 16 (setBit s.hif.done.toNat n true), tset none s.hif.lastSeq n (some q),
        (resultEntry n st q op a rolled part s :: s.hif.journal).take 8192, s.hif.jrnHead + 1) := by
  obtain ⟨k, f, keeps, e⟩ := finish_eq n st q op a rolled part d s
  rw [e, keeps, keepResult_results (respond_results ..)]
  simp only [answeredMailbox, mbxWrite, clearResponse, journal, resultEntry]

/-- Settles O16: the command's own run is its result, and the result is presented. -/
theorem resultIsPresented : Obligations.ResultIsPresented := by
  intro r row n s t st d acc ran low fits head
  have answer : exec (r.2 n) s = .next (answered r.1 n s st d t) := by
    rw [exec_commandRow r row, takeUp_final acc ran]
  have left := finish_results n st (cmdSeq s n) r.1.opcode (cmdArgs s n) false false d t
  change (answered r.1 n s st d t).results = _ at left
  obtain ⟨u, here⟩ : ∃ u, answered r.1 n s st d t = u := ⟨_, rfl⟩
  rw [here] at left answer
  simp only [State.results, Prod.mk.injEq] at left
  obtain ⟨mbox, done, last, journal, jrnHead⟩ := left
  refine ⟨u, answer, ?_, ?_, fun i beyond inside => ?_, ?_, jrnHead, ?_, ?_, fun a outside => ?_, journal⟩
  · rw [mbxField_of_mbox mbox, mbxField_answeredMailbox_status low fits]
  · rw [mbxRead_of_mbox mbox, mbxRead_answeredMailbox_data]
  · rw [mbox, tget_answeredMailbox_beyond beyond inside]
  · rw [mbxField_of_mbox mbox, mbxField_answeredMailbox_journal head]
  · rw [done, getLsbD_ofNat_setBit_true n.isLt]
    simp
  · rw [lastSeq, last, tget_tset_self]
  · rw [mbox, tget_answeredMailbox_outside fits outside]

end Sys2Proof.Machine
end

section
/-! PROOFS. The PCIe function (O23). -/

namespace Sys2Proof.Machine

open Sys2Proof

/-! ### DMA stopped (R404) -/

theorem enable_foldl_disable (l : List Nat) (t : Tab Ring) (r : Nat) :
    (tget {} (l.foldl (fun t r => tset {} t r { tget {} t r with enable := false }) t) r).enable
      = (decide (r ∉ l) && (tget {} t r).enable) := by
  induction l generalizing t with
  | nil => simp
  | cons i l ih =>
    rw [List.foldl_cons, ih, tget_tset]
    by_cases here : r = i
    · simp [here]
    · simp [here]

theorem ringsOff_enable {r : Nat} (t : Tab Ring) (h : r < 4) : (tget {} (ringsOff t) r).enable = false := by
  unfold ringsOff
  rw [enable_foldl_disable]
  simp [h]

theorem stopDma_eq (s : State) : stopDma s = { s with hif := { s.hif with
    evtEnable := false, rx := ringsOff s.hif.rx, tx := ringsOff s.hif.tx } } := rfl

/-- Every packet ring is disabled. -/
def allRingsOff (s : State) : Prop := ∀ r < 4, (rxRing s r).enable = false ∧ (txRing s r).enable = false

theorem allRingsOff_of_disabled {s : State} {rx tx : Tab Ring} (h : s.hif.rx = ringsOff rx)
    (g : s.hif.tx = ringsOff tx) : allRingsOff s := by
  intro r low
  unfold rxRing txRing
  rw [h, g]
  exact ⟨ringsOff_enable _ low, ringsOff_enable _ low⟩

theorem stopDma_allRingsOff (s : State) : allRingsOff (stopDma s) := by
  refine allRingsOff_of_disabled (rx := s.hif.rx) (tx := s.hif.tx) ?_ ?_ <;> rw [stopDma_eq]

theorem functionReset_allRingsOff (s : State) : allRingsOff (functionReset s) := by
  refine allRingsOff_of_disabled (rx := s.hif.rx) (tx := s.hif.tx) ?_ ?_ <;>
    simp only [functionReset, stopDma_eq]

/-- From s to t DMA is stopped: the mailboxes, the journal, the events that wait and every unit but the host
interface are as they were, though time may have passed. -/
def stopsDmaOnly (s t : State) : Prop :=
  dmaOk t = false ∧ t.hif.evtEnable = false ∧ allRingsOff t
    ∧ t.hif.mbox = s.hif.mbox ∧ t.hif.journal = s.hif.journal ∧ t.hif.bells = s.hif.bells
    ∧ t.hif.running = s.hif.running ∧ t.hif.done = s.hif.done ∧ t.hif.irqEn = s.hif.irqEn
    ∧ t.hif.backlog = s.hif.backlog ∧ t.hif.evtSeq = s.hif.evtSeq
    ∧ t.dev = s.dev ∧ t.fib = s.fib ∧ t.up = s.up ∧ t.cls = s.cls ∧ t.tab = s.tab ∧ t.tm = s.tm
    ∧ t.cip = s.cip ∧ t.prt = s.prt ∧ t.lan = s.lan ∧ t.pow = s.pow ∧ t.mem = s.mem
    ∧ (t.time = s.time ∨ t.time = (passTo (s.now + 100000) s).time ∧ s.now + 100000 ≤ t.now)

theorem execBusMasterDisable_stops (s : State) : ∃ t, exec .busMasterDisable s = .next t ∧ stopsDmaOnly s t :=
  ⟨_, rfl, rfl, rfl, stopDma_allRingsOff _, rfl, rfl, rfl, rfl, rfl, rfl, rfl, rfl, rfl, rfl, rfl, rfl, rfl, rfl, rfl,
    rfl, rfl, rfl, rfl, .inl rfl⟩

theorem execPciPmD3hot_stops (s : State) : ∃ t, exec .pciPmD3hot s = .next t ∧ stopsDmaOnly s t :=
  ⟨_, rfl, Bool.and_false _, rfl, stopDma_allRingsOff _, rfl, rfl, rfl, rfl, rfl, rfl, rfl, rfl, rfl, rfl, rfl, rfl,
    rfl, rfl, rfl, rfl, rfl, rfl, rfl, .inl rfl⟩

theorem execFunctionLevelReset_stops (s : State) : ∃ t, exec .functionLevelReset s = .next t ∧ stopsDmaOnly s t :=
  ⟨_, rfl, rfl, rfl, functionReset_allRingsOff s, rfl, rfl, rfl, rfl, rfl, rfl, rfl, rfl, rfl, rfl, rfl, rfl, rfl, rfl,
    rfl, rfl, rfl, rfl, rfl, .inl rfl⟩

/-! ### PERST_N (R546, R604) -/

theorem execPerstNLow_held {held : Nat} (s : State) (long : 100000 ≤ held) :
    exec (.perstNLow held) s = .next { functionReset (passTo (s.now + 100000) s) with
      hif := { (functionReset (passTo (s.now + 100000) s)).hif with perst := true, linkUp := false } } :=
  congrArg _ (deglitch_of_le long _ s)

/-- The time that passes until PERST_N acts leaves everything but the clocks alone. -/
theorem passTo_eq (t : Nat) (s : State) :
    passTo t s = { s with now := (passTo t s).now, time := (passTo t s).time } := by
  unfold passTo
  split <;> rfl

theorem execPerstNLow_stops {held : Nat} (s : State) (long : 100000 ≤ held) :
    ∃ t, exec (.perstNLow held) s = .next t ∧ stopsDmaOnly s t := by
  refine ⟨_, execPerstNLow_held s long, ?_⟩
  have same := passTo_eq (s.now + 100000) s
  have later := le_now_passTo (s.now + 100000) s
  unfold stopsDmaOnly
  generalize passTo (s.now + 100000) s = u at *
  refine ⟨rfl, rfl, allRingsOff_of_disabled (rx := u.hif.rx) (tx := u.hif.tx) ?_ ?_, ?_⟩
  · simp only [functionReset, stopDma_eq]
  · simp only [functionReset, stopDma_eq]
  · rw [same]
    exact ⟨rfl, rfl, rfl, rfl, rfl, rfl, rfl, rfl, rfl, rfl, rfl, rfl, rfl, rfl, rfl, rfl, rfl, rfl, rfl,
      .inr ⟨rfl, later⟩⟩

/-! ### Pending vectors (R404) -/

/-- The vectors of a list that are pending and not masked send their messages. -/
theorem sendPending_hif (l : List Nat) (s : State) :
    (sendPending l s).hif = { s.hif with msix := (sendPending l s).hif.msix } := by
  induction l generalizing s with
  | nil => rfl
  | cons v l ih =>
    unfold sendPending
    dsimp only
    split
    · exact ih _
    · exact ih s

theorem sendPending_out_suffix (l : List Nat) (s : State) : s.out <:+ (sendPending l s).out := by
  induction l generalizing s with
  | nil => exact List.suffix_refl _
  | cons v l ih =>
    unfold sendPending
    dsimp only
    split
    · have sent : s.out <:+ (emit (.msix v) (setVec v { vecOf s v with pend := false } s)).out := List.suffix_cons ..
      exact sent.trans (ih _)
    · exact ih s

/-- A vector sends its message once, and keeps its pending bit only where it is masked or is not asked. -/
theorem sendPending_vec (l : List Nat) (s : State) (v : Nat) :
    (vecOf (sendPending l s) v).pend = ((vecOf s v).pend && (decide (v ∉ l) || (vecOf s v).masked))
      ∧ (v ∈ l → (vecOf s v).pend = true → (vecOf s v).masked = false → Out.msix v ∈ (sendPending l s).out) := by
  induction l generalizing s with
  | nil => simp [sendPending]
  | cons w l ih =>
    unfold sendPending
    dsimp only
    split
    · next sends =>
      obtain ⟨pend, out⟩ := ih (emit (.msix w) (setVec w { vecOf s w with pend := false } s))
      have here : vecOf (emit (.msix w) (setVec w { vecOf s w with pend := false } s)) v
          = if v = w then { vecOf s w with pend := false } else vecOf s v := vecOf_setVec ..
      rw [here] at pend out
      by_cases same : v = w
      · subst same
        have clear : (vecOf s v).masked = false := by simp_all
        refine ⟨by rw [pend]; simp [clear], fun _ _ _ => ?_⟩
        exact (sendPending_out_suffix ..).subset (List.mem_cons_self ..)
      · rw [if_neg same] at pend out
        exact ⟨by rw [pend]; simp [same], fun h => out ((List.mem_cons.mp h).resolve_left same)⟩
    · next holds =>
      obtain ⟨pend, out⟩ := ih s
      by_cases same : v = w
      · subst same
        have held : (vecOf s v).pend = true → (vecOf s v).masked = true := by simpa using holds
        refine ⟨?_, fun _ p m => absurd (held p) (by simp [m])⟩
        rw [pend]
        cases p : (vecOf s v).pend
        · rfl
        · have masked : (vecOf s v).masked = true := held p
          simp [masked]
      · exact ⟨by rw [pend]; simp [same], fun h => out ((List.mem_cons.mp h).resolve_left same)⟩

/-- Settles O23: each of the four stops DMA and nothing else; Bus Master Enable sends what waits. -/
theorem functionStopsAndStarts : Obligations.FunctionStopsAndStarts := by
  refine ⟨fun _ => rfl, fun _ => rfl, fun _ => rfl, fun held s long => execPerstNLow_held s long, ?_,
    fun held s narrow => congrArg _ (deglitch_of_lt narrow _ s), ?_, fun s => ?_,
    fun held s long => congrArg _ (deglitch_of_le long _ s),
    fun held s narrow => congrArg _ (deglitch_of_lt narrow _ s)⟩
  · rintro c s (stop | ⟨held, long, rfl⟩)
    · simp only [List.mem_cons, List.not_mem_nil, or_false] at stop
      rcases stop with rfl | rfl | rfl
      · exact execBusMasterDisable_stops s
      · exact execPciPmD3hot_stops s
      · exact execFunctionLevelReset_stops s
    · exact execPerstNLow_stops s long
  · rintro c s (rfl | ⟨held, long, rfl⟩)
    · exact ⟨_, rfl, rfl, rfl, rfl, rfl, rfl, rfl, rfl, by simp [functionReset, stopDma]⟩
    · refine ⟨_, execPerstNLow_held s long, rfl, rfl, rfl, rfl, rfl, rfl, rfl, by simp⟩
  · refine ⟨sendPending (List.range 32) { s with hif := { s.hif with busMaster := true, d3hot := false } }, rfl,
      ?_, ?_, ?_, ?_, fun v => ?_, fun v pend clear => ?_⟩
    · unfold dmaOk
      rw [sendPending_hif]
      rfl
    · rw [sendPending_hif]
    · rw [sendPending_hif]
    · rw [sendPending_hif]
    · rw [(sendPending_vec ..).1, decide_eq_false (not_not.mpr (List.mem_range.mpr v.isLt))]
      rfl
    · exact (sendPending_vec ..).2 (List.mem_range.mpr v.isLt) pend clear

end Sys2Proof.Machine
end

section
/-! PROOFS. The state word (O9), the power commands (O35), and the journal, recorder and maintenance commands (O37). -/

namespace Sys2Proof.Machine

open Sys2Proof

/-! ### The state word (R419) -/

theorem DevState.code_lt (d : DevState) : d.code < 2 ^ 8 := by cases d <;> decide

theorem PowerState.code_lt (p : PowerState) : p.code < 2 ^ 4 := by cases p <;> decide

theorem Profile.code_lt (p : Profile) : p.code < 2 ^ 4 := by cases p <;> decide

/-- Settles O9: the three codes keep within their fields. -/
theorem stateWordReportsState : Obligations.StateWordReportsState := by
  refine ⟨fun s => ?_, rfl, rfl, rfl⟩
  have dev := DevState.code_lt s.dev.state
  have pow := PowerState.code_lt s.pow.state
  have prof := Profile.code_lt s.dev.inForce
  unfold stateWord
  omega

/-! ### Power states (R467, R479, R480) -/

section
variable {a : Bytes} {t : State}

theorem runPowerState_same (same : powerOf (byteAt a 0) = t.pow.state) : runPowerState a t = done t := by
  simp [runPowerState, same]

/-- In D2 and D3 the order of D0 asks for the exit, and any other change is refused. -/
theorem runPowerState_exit (goal : powerOf (byteAt a 0) = .d0) (asleep : t.pow.state = .d2 ∨ t.pow.state = .d3) :
    runPowerState a t = .waits false (requestWake .hostOrder t) := by
  rcases asleep with d2 | d3
  · simp [runPowerState, goal, d2]
  · simp [runPowerState, goal, d3]

theorem runPowerState_refused (goal : powerOf (byteAt a 0) ≠ .d0) (other : powerOf (byteAt a 0) ≠ t.pow.state)
    (asleep : t.pow.state = .d2 ∨ t.pow.state = .d3) : runPowerState a t = refuseWord stResource 3 t := by
  rcases asleep with d2 | d3
  · rw [d2] at other
    simp [runPowerState, goal, other, d2]
  · rw [d3] at other
    simp [runPowerState, goal, other, d3]

theorem runPowerState_toD1 (goal : powerOf (byteAt a 0) = .d1) (from_ : t.pow.state = .d0) :
    runPowerState a t = .waits false { t with pow := { t.pow with phase := .toD1 } } := by
  simp [runPowerState, goal, from_]

theorem runPowerState_fromD1 (goal : powerOf (byteAt a 0) = .d0) (from_ : t.pow.state = .d1) :
    runPowerState a t = .waits false { t with pow := { t.pow with phase := .fromD1 } } := by
  simp [runPowerState, goal, from_]

/-- With no background command, D2 is asked of the head end. -/
theorem runPowerState_d2 (goal : powerOf (byteAt a 0) = .d2) (awake : t.pow.state = .d0 ∨ t.pow.state = .d1)
    (free : background? t = none) : runPowerState a t = askDoze a t := by
  rcases awake with d0 | d1
  · simp [runPowerState, goal, d0, free]
  · simp [runPowerState, goal, d1, free]

theorem runPowerState_d3 (goal : powerOf (byteAt a 0) = .d3) (awake : t.pow.state = .d0 ∨ t.pow.state = .d1)
    (free : background? t = none) : runPowerState a t = .waits false (startD3 t) := by
  rcases awake with d0 | d1
  · simp [runPowerState, goal, d0, free]
  · simp [runPowerState, goal, d1, free]

/-- The doze of D2 needs a channel in F5 (R157). -/
theorem askDoze_active (active : ∃ c ∈ List.range 4, (actOf t c).act = .f5) :
    askDoze a t = .waits false (queueMessage 0x45 (groupIdOf { t with fib := { t.fib with
        doze := { phase := .requested, n := le a 2 2, start := 0, ch := byteAt a 4 } } } (byteAt a 4)) (byteAt a 4)
      (beBytes 2 (le a 2 2) ++ beBytes 1 (byteAt a 4)) { t with fib := { t.fib with
        doze := { phase := .requested, n := le a 2 2, start := 0, ch := byteAt a 4 } } }) := by
  have some_ : ¬ ((List.range 4).all (fun c => (actOf t c).act != .f5)) = true := by
    obtain ⟨c, low, f5⟩ := active
    exact fun h => absurd (List.all_eq_true.mp h c low) (by simp [f5])
  exact if_neg some_

theorem askDoze_inactive (inactive : ∀ c ∈ List.range 4, (actOf t c).act ≠ .f5) :
    askDoze a t = refuseWord stResource 2 t :=
  if_pos (List.all_eq_true.mpr fun c low => bne_iff_ne.mpr (inactive c low))

end

/-- Settles O35: POWER_SET_STATE by the state it names and the state it finds, and the three others as they run. -/
theorem powerCommandsComplete : Obligations.PowerCommandsComplete := by
  refine ⟨completes_of_run (fun _ _ => rfl) fun _ _ _ h => runPowerState_same h,
    heldUp_of_run (fun _ _ => rfl) fun _ _ _ h => runPowerState_toD1 h.1 h.2,
    heldUp_of_run (fun _ _ => rfl) fun _ _ _ h => runPowerState_fromD1 h.1 h.2,
    heldUp_of_run (fun _ _ => rfl) fun _ a t h => ?_, turnedAway_of_run (fun _ _ => rfl) fun _ a t h => ?_,
    heldUp_of_run (fun _ _ => rfl) fun _ a t h => ?_,
    heldUp_of_run (fun _ _ => rfl) fun _ _ _ h => runPowerState_exit h.1 h.2,
    turnedAway_of_run (fun _ _ => rfl) fun _ a t h => ?_,
    completes_of_run (fun _ _ => rfl) fun _ _ _ _ => rfl, completes_of_run (fun _ _ => rfl) fun _ _ _ _ => rfl,
    completes_of_run (fun _ _ => rfl) fun _ _ _ _ => rfl⟩
  · obtain ⟨goal, awake, free, active⟩ := h
    exact (runPowerState_d2 goal awake free).trans (askDoze_active active)
  · obtain ⟨goal, awake, free, inactive⟩ := h
    exact (runPowerState_d2 goal awake free).trans (askDoze_inactive inactive)
  · obtain ⟨goal, awake, free⟩ := h
    exact runPowerState_d3 goal awake free
  · obtain ⟨goal, other, asleep⟩ := h
    exact runPowerState_refused goal other asleep

/-! ### The recorder and the firmware slots (R470, R471) -/

section
variable {n : Nat} {a : Bytes} {t : State}

theorem cmdRecorderRead_run (still : t.mnt.recorder ≠ .running) :
    cmdRecorderRead.run n a t
      = if dmaOk t then done (copyRing (le a 0 8) (le a 8 4) (le a 12 4) t) else .waits false t :=
  if_neg (by simpa using still)

theorem cmdMaintFlashWrite_run (other : byteAt a 0 ≠ t.mnt.slot) :
    cmdMaintFlashWrite.run n a t
      = if le a 16 4 > imageMax then refuseWord stResource 2 t else .waits false (eraseSlot (byteAt a 0) t) :=
  if_neg other

theorem cmdMaintSelectImage_run (free : slotWritten t (byteAt a 0) = false) :
    cmdMaintSelectImage.run n a t = if authentic t (slotImage t (byteAt a 0)) then done (selectSlot (byteAt a 0) t)
      else .final stAuth [] t :=
  if_neg (Bool.eq_false_iff.mp free)

theorem cmdMaintReplay_unknown (still : t.mnt.recorder ≠ .running) (unknown : startAt t (le a 0 8) = none) :
    cmdMaintReplay.run n a t = refuseWord stRange 0x040 t := by
  simp [cmdMaintReplay, still, unknown]

/-- A replay runs the image of the version that the ring was recorded with (R558). -/
theorem cmdMaintReplay_known {v : Nat} (still : t.mnt.recorder ≠ .running) (known : startAt t (le a 0 8) = some v)
    (held : ∃ k ∈ [0, 1], slotVersion t k = v ∧ authentic t (slotImage t k) = true) :
    cmdMaintReplay.run n a t = .waits false t := by
  have image : [0, 1].any (fun k => slotVersion t k == v && authentic t (slotImage t k)) = true := by
    obtain ⟨k, slot, version, whole⟩ := held
    exact List.any_eq_true.mpr ⟨k, slot, by simp [version, whole]⟩
  simp only [cmdMaintReplay, known, image, if_true]
  exact if_neg (by simpa using still)

end

/-- Settles O37: each command by the conditions of its own run. -/
theorem maintenanceCommandsComplete : Obligations.MaintenanceCommandsComplete := by
  refine ⟨completes_of_run (fun _ _ => rfl) fun _ _ _ _ => rfl, completes_of_run (fun _ _ => rfl) fun _ _ _ _ => rfl,
    completes_of_run (fun _ _ => rfl) fun _ _ _ h => (cmdRecorderRead_run h.1).trans (if_pos h.2),
    heldUp_of_run (fun _ _ => rfl) fun _ _ _ h => (cmdRecorderRead_run h.1).trans (if_neg (Bool.eq_false_iff.mp h.2)),
    completes_of_run (fun _ _ => rfl) fun _ _ _ _ => rfl,
    heldUp_of_run (fun _ _ => rfl) fun _ _ _ h => (cmdMaintFlashWrite_run h.1).trans (if_neg (Nat.not_lt.mpr h.2)),
    turnedAway_of_run (fun _ _ => rfl) fun _ _ _ h => (cmdMaintFlashWrite_run h.1).trans (if_pos h.2),
    completes_of_run (fun _ _ => rfl) fun _ _ _ h => (cmdMaintSelectImage_run h.1).trans (if_pos h.2),
    turnedAway_of_run (fun _ _ => rfl) fun _ _ _ h =>
      (cmdMaintSelectImage_run h.1).trans (if_neg (Bool.eq_false_iff.mp h.2)),
    heldUp_of_run (fun _ _ => rfl) fun _ _ _ _ => rfl,
    fun v => heldUp_of_run (fun _ _ => rfl) fun _ _ _ h => cmdMaintReplay_known h.1 h.2.1 h.2.2,
    turnedAway_of_run (fun _ _ => rfl) fun _ _ _ h => cmdMaintReplay_unknown h.1 h.2,
    completes_of_run (fun _ _ => rfl) fun _ _ _ _ => rfl⟩

end Sys2Proof.Machine
end

section
/-! SUPPORT. What taking a command up and making Amber's records leave alone: RESET_CAUSE, and whether a warm reset runs
(R609, R616). -/

namespace Sys2Proof.Machine

open Sys2Proof

/-- The cause of the latest reset, and whether a warm one runs. -/
def State.resetMode (s : State) : Byte × Byte × Bool := (s.dev.cause, s.dev.previous, s.dev.warm)

theorem resetMode_of_dev {s t : State} (h : t.dev = s.dev) : t.resetMode = s.resetMode := by
  simp only [State.resetMode, h]

theorem resetMode_foldl {α : Type} (f : State → α → State) (h : ∀ t a, (f t a).resetMode = t.resetMode)
    (l : List α) (s : State) : (l.foldl f s).resetMode = s.resetMode := by
  induction l generalizing s with
  | nil => rfl
  | cons a l ih => exact (ih _).trans (h _ _)

theorem resetMode_forEach {f : Nat → State → State} (h : ∀ i t, (f i t).resetMode = t.resetMode)
    (l : List Nat) (s : State) : (forEach l f s).resetMode = s.resetMode :=
  resetMode_foldl _ (fun t i => h i t) l s

/-! ### Events, time and counters -/

theorem fireVec_dev (v : Nat) (s : State) : (fireVec v s).dev = s.dev := by
  simp only [fireVec]
  split <;> rfl

theorem causeVec_dev (v : Nat) (s : State) : (causeVec v s).dev = s.dev := by
  simp only [causeVec]
  split
  · exact fireVec_dev v s
  · split
    · exact fireVec_dev v _
    · rfl

theorem backlogEvent_dev (e : Event) (s : State) : (backlogEvent e s).dev = s.dev := by
  unfold backlogEvent
  split
  · rfl
  · split
    · split <;> rfl
    · rfl

@[simp] theorem raise_dev (typ : Nat) (urgent : Bool) (index : Nat) (payload : Bytes) (s : State) :
    (raise typ urgent index payload s).dev = s.dev := by
  rw [raise_eq]
  split
  · exact causeVec_dev ..
  · exact backlogEvent_dev ..

@[simp] theorem markHigh_dev (k n : Nat) (s : State) : (markHigh k n s).dev = s.dev := by
  unfold markHigh
  split <;> rfl

@[simp] theorem passTo_dev (t : Nat) (s : State) : (passTo t s).dev = s.dev := by
  rw [passTo_eq]

/-! ### Wakes -/

theorem wantAll_dev (l : List Nat) (s : State) : (wantAll l s).dev = s.dev := by
  unfold wantAll forEach
  induction l generalizing s with
  | nil => rfl
  | cons d l ih => exact (ih _).trans (want_dev d s)

theorem crossLink_dev (n k : Nat) (s : State) : (crossLink n k s).dev = s.dev := by
  unfold crossLink readLink writeLink
  rw [setBridge_dev, want_dev, setBridge_dev]

theorem bankContents_resetMode (g : Nat) (s : State) : (bankContents g s).resetMode = s.resetMode := by
  have lost := resetMode_foldl (fun s e => loseEvent e.seq s) (fun _ _ => rfl) s.hif.backlog s
  simp only [bankContents]
  split
  · rfl
  · split
    · exact lost
    · split
      · rfl
      · split <;> rfl

theorem loseBank_resetMode (g : Nat) (s : State) : (loseBank g s).resetMode = s.resetMode := by
  have contents : (bump (ck 495 14 g) 1 (raise 0x0A04 false g (leBytes 1 0) (bankContents g s))).resetMode
      = s.resetMode := (resetMode_of_dev (raise_dev ..)).trans (bankContents_resetMode g s)
  simp only [loseBank]
  split
  · exact (resetMode_of_dev (raise_dev ..)).trans contents
  · exact contents

theorem wakeBank_resetMode (g : Nat) (intact : Bool) (s : State) :
    (wakeBank g intact s).resetMode = s.resetMode := by
  simp only [wakeBank]
  split
  · split
    · rfl
    · exact loseBank_resetMode ..
  · rfl

theorem wakeFrom_resetMode (t0 d : Nat) (intact : Bool) (s : State) :
    (wakeFrom t0 d intact s).resetMode = s.resetMode := by
  simp only [wakeFrom]
  split
  · rfl
  · have replicas := resetMode_forEach (f := realign) (fun _ _ => rfl)
    have stall : ∀ d ns t, (countStall d ns t).resetMode = t.resetMode :=
      fun d ns t => resetMode_forEach (f := fun i t => bump _ _ t) (fun _ _ => rfl) (stallers t d) t
    split
    · refine (wakeBank_resetMode ..).trans ((replicas ..).trans ((stall ..).trans ?_))
      simp [State.resetMode, takeFree, clocksMayRun, modDomain]
    · refine (replicas ..).trans ((stall ..).trans ?_)
      simp [State.resetMode, takeFree, clocksMayRun, modDomain]

theorem touchFrom_resetMode (t0 d : Nat) (s : State) : (touchFrom t0 d s).resetMode = s.resetMode := by
  simp only [touchFrom]
  split
  · exact wakeFrom_resetMode ..
  · split <;> rfl

theorem touchFor_resetMode (opcode : Nat) (s : State) : (touchFor opcode s).resetMode = s.resetMode := by
  have clocks : (if [1, 8, 9].contains (opcode / 256) then clocksMayRun s else s).resetMode = s.resetMode := by
    split <;> rfl
  simp only [touchFor]
  generalize (if [1, 8, 9].contains (opcode / 256) then clocksMayRun s else s) = t at clocks ⊢
  split
  · refine (resetMode_forEach (touchFrom_resetMode _) _ _).trans ((resetMode_forEach ?_ _ _).trans clocks)
    exact fun i t => resetMode_of_dev (crossLink_dev ..)
  · exact clocks

/-! ### Amber's record -/

theorem putRecord_dev (typ : Nat) (rejected : Bool) (payload : Bytes) (s : State) :
    (putRecord typ rejected payload s).dev = s.dev := by
  simp only [putRecord]
  split
  · exact wantAll_dev ..
  · rfl

theorem amberSkip_dev (s : State) : (amberSkip s).dev = s.dev := by
  unfold amberSkip
  split
  · show (closeGap s).dev = s.dev
    unfold closeGap
    split
    · exact putRecord_dev ..
    · rfl
  · rfl

theorem amberRecord_dev (typ : Nat) (rejected : Bool) (payload : Bytes) (s : State) :
    (amberRecord typ rejected payload s).dev = s.dev := by
  have own : (if [1, 2, 7, 8].contains typ then ownEvent 38 1 (b2n rejected) (ownEvent 38 0 1 s) else s).dev
      = s.dev := by
    split <;> rfl
  simp only [amberRecord]
  generalize (if [1, 2, 7, 8].contains typ then ownEvent 38 1 (b2n rejected) (ownEvent 38 0 1 s) else s) = t
    at own ⊢
  split
  · exact (putRecord_dev ..).trans ((amberSkip_dev _).trans own)
  · exact own

theorem underWay_resetMode (n : Nat) (s : State) : (underWay n s).resetMode = s.resetMode :=
  (touchFor_resetMode ..).trans (resetMode_of_dev (amberRecord_dev ..))

/-! ### Resets (R602, R609) -/

theorem showPins_dev (old s : State) : (showPins old s).dev = s.dev := by
  have step : ∀ (l : List Nat) (u : State), (forEach l (fun c u => if benPin s c = benPin old c then u
      else emit (.ben c (benPin s c)) u) u).dev = u.dev := by
    intro l
    induction l with
    | nil => exact fun _ => rfl
    | cons c l ih =>
      intro u
      refine (ih _).trans ?_
      show (if benPin s c = benPin old c then u else emit (.ben c (benPin s c)) u).dev = u.dev
      split <;> rfl
  exact step _ s

theorem coldReset_dev (cause : Nat) (s : State) :
    (coldReset cause s).dev = { (blank s).dev with cause := BitVec.ofNat 8 cause, previous := 0 } :=
  showPins_dev ..

/-- A warm reset that starts moves CAUSE to PREVIOUS. -/
theorem warmReset_dev (cause : Nat) {s : State} (still : s.dev.warm = false) :
    (warmReset cause s).dev = warmDev cause s := by
  unfold warmReset
  rw [if_neg (by simp [still])]
  exact showPins_dev ..

end Sys2Proof.Machine
end

section
/-! PROOFS. RESET_CAUSE (O8), and supply, clocks, resets and start-up (O56). -/

namespace Sys2Proof.Machine

open Sys2Proof

theorem orderReset_warm (s : State) : orderReset 1 s = warmReset 0x04 s := if_pos rfl

/-- A device that RESET_N holds in reset. -/
def holdReset (s : State) : State := { s with dev := { s.dev with pinLow := true } }

theorem holdReset_cause (s : State) : (holdReset s).dev.cause = s.dev.cause := rfl

theorem holdReset_previous (s : State) : (holdReset s).dev.previous = s.dev.previous := rfl

/-- RESET_N low for 1 µs resets the device cold, and holds it so (R546, R601). -/
theorem execPinReset_held {held : Nat} {s : State} (running : s.sup.lockout = false) (long : us 1 ≤ held) :
    exec (.pinReset held) s = .next (holdReset (coldReset 0x02 (passTo (s.now + us 1) s))) :=
  (if_neg (by simp [running])).trans (congrArg _ (deglitch_of_le long _ s))

/-- An uncorrectable error of Hive's memory resets the device from a state whose device record it has not touched. -/
theorem execHiveMemoryError_resets {s : State} (runs : wardenRuns s = true) :
    ∃ u, u.dev = s.dev ∧ exec .hiveMemoryError s = .next (warmReset 0x06 u) := by
  refine ⟨_, ?_, if_pos runs⟩
  exact raise_dev ..

/-- Settles O8: the register's fields, and what each reset writes of them. -/
theorem resetCauseIsKept : Obligations.ResetCauseIsKept := by
  refine ⟨fun s => ⟨rfl, s.dev.cause.isLt, s.dev.previous.isLt⟩, by decide, fun s lockout => ?_,
    fun held s running long => ?_, fun n s acc d2 d3 entering kind => ?_, fun n s acc d2 d3 entering kind still => ?_,
    fun l s runs still => ?_, fun s runs still => ?_, fun v s t write => ?_⟩
  · have dev := coldReset_dev 0x01 s
    refine ⟨_, if_neg (by simp [lockout]), ?_, ?_⟩
    · show (coldReset 0x01 s).dev.cause = _
      rw [dev]
      rfl
    · show (coldReset 0x01 s).dev.previous = _
      rw [dev]
  · have dev := coldReset_dev 0x02 (passTo (s.now + us 1) s)
    refine ⟨_, execPinReset_held running long, ?_, ?_⟩
    · rw [holdReset_cause, dev]
      rfl
    · rw [holdReset_previous, dev]
  · have dev := coldReset_dev 0x03 (underWay n s)
    refine ⟨_, (exec_deviceReset acc d2 d3 entering).trans (by rw [kind]), ?_, ?_⟩
    · show (coldReset 0x03 (underWay n s)).dev.cause = _
      rw [dev]
      rfl
    · show (coldReset 0x03 (underWay n s)).dev.previous = _
      rw [dev]
  · have mode := underWay_resetMode n s
    simp only [State.resetMode, Prod.mk.injEq] at mode
    obtain ⟨cause, -, warm⟩ := mode
    have dev := warmReset_dev 0x04 (warm.trans still)
    refine ⟨_, (exec_deviceReset acc d2 d3 entering).trans (by rw [kind, orderReset_warm]), ?_, ?_⟩
    · rw [dev]
      rfl
    · rw [dev]
      exact cause
  · have same := amberRecord_dev 0x000E false (leBytes 1 l) s
    have dev := warmReset_dev 0x05 ((congrArg Dev.warm same).trans still)
    refine ⟨_, if_pos runs, ?_, ?_⟩
    · rw [dev]
      rfl
    · rw [dev]
      exact congrArg Dev.cause same
  · obtain ⟨u, dev, answer⟩ := execHiveMemoryError_resets runs
    have reset := warmReset_dev 0x06 ((congrArg Dev.warm dev).trans still)
    refine ⟨_, answer, ?_, ?_⟩
    · rw [reset]
      rfl
    · rw [reset]
      exact congrArg Dev.cause dev
  · have here : exec (.registerWrite 0x0008 v) s = .next s := rfl
    rw [← next_inj (here.symm.trans write)]

/-! ### Release from reset (R601, R605) -/

/-- The release of reset: the rails ramp and the link trains (R605). -/
def releaseReset (s : State) : State :=
  let s1 := passTo s.sup.releaseAt s
  enterLoading { s1 with
    dev := { s1.dev with released := true, releasedAt := s1.now, pinLow := false }
    pow := { s1.pow with railsUp := true, changed := s1.now, levelAt := s1.now }
    hif := { s1.hif with linkUp := !s1.hif.perst } }

theorem execResetRelease_starts {held : Nat} {s : State} (cold : s.dev.state = .cold)
    (unreleased : s.dev.released = false) (running : s.sup.lockout = false) (good : s.sup.pgood = true) :
    exec (.resetRelease held) s
      = .next (if s.dev.pinLow then deglitch 2 0 (us 1) held releaseReset s else releaseReset s) := by
  have starts : (s.dev.state == .cold && !s.dev.released && !s.sup.lockout && s.sup.pgood) = true := by
    simp [cold, unreleased, running, good]
  show execResetRelease s held = _
  unfold execResetRelease releaseReset
  rw [starts]
  rfl

/-! ### The supply (R589, R591) -/

/-- PGOOD_IN takes a level (R591). -/
def takePgood (b : Bool) (s : State) : State :=
  let s1 := noteGood { s with sup := { s.sup with pgood := b } }
  if b || s.sup.lockout then s1 else dyingGaspOnset s1

theorem takePgood_calm {b : Bool} {s : State}
    (calm : b = true ∨ (noteGood { s with sup := { s.sup with pgood := b } }).sup.lockout = true) :
    takePgood b s = noteGood { s with sup := { s.sup with pgood := b } } := by
  refine if_pos ?_
  rw [Bool.or_eq_true]
  exact calm

theorem takePgood_onset {b : Bool} {s : State} (low : b = false)
    (running : (noteGood { s with sup := { s.sup with pgood := b } }).sup.lockout = false) :
    takePgood b s = dyingGaspOnset (noteGood { s with sup := { s.sup with pgood := b } }) := by
  refine if_neg ?_
  have off : s.sup.lockout = false := running
  simp [low, off]

theorem execPgoodInTransition_held {b : Bool} {held : Nat} (s : State) (long : us 1 ≤ held) :
    exec (.pgoodInTransition b held) s = .next (takePgood b (passTo (s.now + us 1) s)) :=
  congrArg _ (deglitch_of_le long _ s)

/-- The state in which a sample of VIN is judged. -/
def sampled (mV : Nat) (s : State) : State := noteGood (markVin mV { s with sup := { s.sup with vinMv := mV } })

theorem execVinSample_running {mV : Nat} {s : State} (running : s.sup.lockout = false) :
    exec (.vinSample mV) s = .next (if mV < 2500 ∨ 5800 < mV
      then holdSource 1 (if mV < 2600 then dyingGaspOnset (sampled mV s) else sampled mV s)
      else assertSource 1 false (if mV < 2600 then dyingGaspOnset (sampled mV s) else sampled mV s)) :=
  if_neg (by simp [running])

/-! ### Boot (R565, R567) -/

/-- The boot logic has tried the slots. -/
abbrev bootTrying (s : State) : State := { s with dev := { s.dev with bootTried := true } }

theorem bootOrder_bootTrying (s : State) : bootOrder (bootTrying s) = bootOrder s := rfl

/-- What trying a slot comes to, once it has been: it boots, or the next one is tried (R565). -/
def afterSlot (late : List (Fin 2)) (k : Nat) (l : List Nat) (r : Bool × State) : State :=
  if r.1 then bootSlot k k r.2 else match l with
    | [] => r.2
    | j :: _ => if (trySlot j late r.2).1 then bootSlot j k (trySlot j late r.2).2 else (trySlot j late r.2).2

/-- The state that trying the slots of a list leaves. -/
def trySlots (late : List (Fin 2)) (s : State) : List Nat → State
  | [] => s
  | k :: l => afterSlot late k l (trySlot k late s)

section
variable {late : List (Fin 2)} {k j : Nat} {l : List Nat} {s t u : State}

theorem trySlots_first (boots : trySlot k late s = (true, t)) : trySlots late s (k :: l) = bootSlot k k t := by
  simp [trySlots, afterSlot, boots]

theorem trySlots_only (fails : trySlot k late s = (false, t)) : trySlots late s [k] = t := by
  simp [trySlots, afterSlot, fails]

theorem trySlots_second (fails : trySlot k late s = (false, t)) (boots : trySlot j late t = (true, u)) :
    trySlots late s (k :: j :: l) = bootSlot j k u := by
  simp [trySlots, afterSlot, fails, boots]

theorem trySlots_neither (fails : trySlot k late s = (false, t)) (again : trySlot j late t = (false, u)) :
    trySlots late s (k :: j :: l) = u := by
  simp [trySlots, afterSlot, fails, again]

end

section
variable {late : List (Fin 2)} {s : State} (loading : s.dev.state = .loading) (fresh : s.dev.bootTried = false)
include loading fresh

theorem bootSelect_starts : ¬ (s.dev.state != .loading || s.dev.bootTried) = true := by
  rw [loading, fresh]
  decide

theorem execBootSelect_unread : exec (.bootSelect false late) s = .next (bootTrying s) :=
  if_neg (bootSelect_starts loading fresh)

/-- Where the flash can be read, its slots are tried in the order that R565 gives. -/
theorem execBootSelect_tries :
    exec (.bootSelect true late) s = .next (trySlots late (bootTrying s) (bootOrder s)) := by
  refine (if_neg (bootSelect_starts loading fresh)).trans ((if_neg (by simp)).trans ?_)
  cases order : bootOrder s with
  | nil =>
    rw [(bootOrder_bootTrying s).trans order]
    rfl
  | cons k l =>
    rw [(bootOrder_bootTrying s).trans order, trySlots]
    unfold afterSlot
    dsimp only
    generalize trySlot k late (bootTrying s) = r
    rcases r with ⟨ok, t⟩
    cases ok with
    | true => rfl
    | false =>
      cases l with
      | nil => rfl
      | cons j m =>
        dsimp only
        rcases trySlot j late t with ⟨ok, u⟩
        rfl

end

/-- Settles O56: each row by the conditions it is given. -/
theorem supplyAndStartUpAct : Obligations.SupplyAndStartUpAct := by
  refine ⟨fun s lockout => ?_, fun s => rfl, fun held s cold unreleased running good pin => ?_,
    fun held s cold unreleased running good low short => ?_, fun held s running => ⟨fun long => ?_, fun short => ?_⟩,
    fun s running lost => ?_, fun s good => ?_, fun b held s => ?_, fun a s gasp since => ?_, fun mV s running => ?_,
    fun late k l s t loading fresh order => ?_, fun b late s loading fresh nothing => ?_,
    fun s loading booted => ?_, fun a n s ready trying => ?_⟩
  · exact if_neg (by simp [lockout])
  · rw [execResetRelease_starts cold unreleased running good]
    intro u t
    cases low : s.dev.pinLow with
    | false =>
      have here : u = s := if_neg (by simp [low])
      simp only [t, here, Bool.false_eq_true, if_false]
      rfl
    | true =>
      have here : u = passTo (s.now + us 1) s := if_pos low
      have long : us 1 ≤ held := pin.resolve_left (by simp [low])
      simp only [t, here, if_true]
      exact congrArg _ (deglitch_of_le long _ s)
  · rw [execResetRelease_starts cold unreleased running good, if_pos low]
    exact congrArg _ (deglitch_of_lt short _ s)
  · exact execPinReset_held running long
  · exact (if_neg (by simp [running])).trans (congrArg _ (deglitch_of_lt short _ s))
  · exact if_neg (by simp [running, lost])
  · exact if_pos good
  · intro t u
    refine ⟨fun long calm => ?_, fun long low running => ?_, fun short => congrArg _ (deglitch_of_lt short _ s)⟩
    · exact (execPgoodInTransition_held s long).trans (congrArg Host.Outcome.next (takePgood_calm (s := t) calm))
    · exact (execPgoodInTransition_held s long).trans (congrArg Host.Outcome.next
        (takePgood_onset (s := t) low running))
  · exact (if_pos (by simp [gasp, since])).trans (by rw [since]; rfl)
  · intro t
    refine ⟨fun low high => ?_, fun low high => ?_, fun low => ?_, fun high => ?_⟩
      <;> rw [execVinSample_running running]
    · rw [if_neg (by omega), if_neg (by omega)]
      rfl
    · rw [if_neg (by omega), if_pos (by omega)]
      rfl
    · rw [if_pos (by omega), if_pos (by omega)]
      rfl
    · rw [if_pos (by omega), if_neg (by omega)]
      rfl
  · intro x
    rw [execBootSelect_tries loading fresh, order]
    refine ⟨fun tried => ?_, fun tried last => ?_, fun j m u next tried => ⟨fun again => ?_, fun again => ?_⟩⟩
    · exact congrArg _ (trySlots_first tried)
    · exact congrArg _ (by rw [last, trySlots_only tried])
    · exact congrArg _ (by rw [next, trySlots_second tried again])
    · exact congrArg _ (by rw [next, trySlots_neither tried again])
  · rcases nothing with rfl | empty
    · exact execBootSelect_unread loading fresh
    · cases b
      · exact execBootSelect_unread loading fresh
      · rw [execBootSelect_tries loading fresh, empty]
        rfl
  · exact if_neg (by simp [loading, booted])
  · show execImageConfirm s = _
    unfold execImageConfirm
    rw [ready, trying]
    rfl

end Sys2Proof.Machine
end


section
/-! PROOFS. Memory integrity: the words that are read, the buckets and filters, the merge buffers and the restorations
(R497 to R510). -/

namespace Sys2Proof.Machine

open Sys2Proof

/-! ### Reads (R497, R503, R505) -/

theorem verdictOf_of_poisoned {r a : Nat} {s : State} (v : EccVerdict)
    (poisoned : (regionOf s r).poisoned.contains a = true) : verdictOf s r a v = .poisoned := by
  unfold verdictOf
  rw [if_pos poisoned]

theorem verdictOf_of_sound {r a : Nat} {s : State} (v : EccVerdict)
    (sound : (regionOf s r).poisoned.contains a = false) : verdictOf s r a v = v := by
  unfold verdictOf
  rw [if_neg (by simp only [sound, Bool.false_eq_true, not_false_eq_true])]

theorem decideWord_of_clean {r a : Nat} {v : EccVerdict} {s : State} (h : verdictOf s r a v = .clean) :
    decideWord r a v s = s := by
  unfold decideWord
  rw [h]

theorem decideWord_of_correctable {r a : Nat} {v : EccVerdict} {s : State} (h : verdictOf s r a v = .correctable) :
    decideWord r a v s = correctWord r a s := by
  unfold decideWord
  rw [h]

theorem decideWord_of_poisoned {r a : Nat} {v : EccVerdict} {s : State} (h : verdictOf s r a v = .poisoned) :
    decideWord r a v s = badWord r a (bump (ck 511 6 r) 1 s) := by
  unfold decideWord
  rw [h]

theorem decideWord_of_uncorrectable {r a : Nat} {v : EccVerdict} {s : State}
    (h : verdictOf s r a v = .uncorrectable) : decideWord r a v s = badWord r a (bump (ck 511 5 r) 1 s) := by
  unfold decideWord
  rw [h]

section Scrubbing

variable {r : Fin 15} {a : Nat} {s : State} (aligned : a % wordBytes r = 0) (inside : a < regionBytes r)
include aligned inside

theorem not_outside : ¬ (a % wordBytes r ≠ 0 ∨ a ≥ regionBytes r) := by omega

theorem execScrubRead_byUser (v : EccVerdict) :
    exec (.scrubRead r a v true) s = .next (readByUser r a v s) := by
  change execScrubRead r a v s true = _
  unfold execScrubRead
  rw [if_neg (not_outside aligned inside), if_pos rfl]

theorem execScrubRead_unread (v : EccVerdict) (unread : r = 9 ∨ regionReadable s r a = false) :
    exec (.scrubRead r a v) s = .next s := by
  have skip : r.val = 9 ∨ (!regionReadable s r a) = true := by
    rcases unread with rfl | off
    · exact .inl rfl
    · exact .inr (by rw [off]; rfl)
  change execScrubRead r a v s false = _
  unfold execScrubRead
  rw [if_neg (not_outside aligned inside), if_neg Bool.false_ne_true, if_pos skip]

theorem execScrubRead_read (v : EccVerdict) (other : r ≠ 9) (readable : regionReadable s r a = true) :
    exec (.scrubRead r a v) s = if inMerge s r a = true then .next (bump (ck 511 18 r) 1 (moveScrubber r a s))
      else .next (decideWord r a v (bump (ck 511 18 r) 1 (moveScrubber r a s))) := by
  have taken : ¬ (r.val = 9 ∨ (!regionReadable s r a) = true) := by
    rw [readable]
    rintro (h | h)
    · exact other (Fin.ext h)
    · cases h
  change execScrubRead r a v s false = _
  unfold execScrubRead
  rw [if_neg (not_outside aligned inside), if_neg Bool.false_ne_true, if_neg taken]

end Scrubbing

/-! ### Buckets and filters (R500, R504) -/

theorem passTo_mem (t : Nat) (s : State) : (passTo t s).mem = s.mem := by
  rw [passTo_eq]

theorem regionOf_passTo (t q : Nat) (s : State) : regionOf (passTo t s) q = regionOf s q := by
  unfold regionOf
  rw [passTo_mem]

theorem modRegion_count (r k : Nat) (f : Region → Region) (s : State) : (modRegion r f s).count k = s.count k := rfl

/-- A lap marked as late, and counted. -/
def markLate (r : Nat) (s : State) : State :=
  bump (ck 511 16 r) 1 (modRegion r (fun x => { x with lapLate := true }) s)

theorem noteLate_cases (r : Nat) (s : State) : noteLate r s = s ∨ noteLate r s = markLate r s := by
  unfold noteLate
  dsimp only
  split
  · exact .inr rfl
  · exact .inl rfl

theorem regionOf_markLate (r q : Nat) (s : State) :
    regionOf (markLate r s) q = if q = r then { regionOf s r with lapLate := true } else regionOf s q :=
  regionOf_modRegion r q (fun x => { x with lapLate := true }) s

theorem noteLate_hif (r : Nat) (s : State) : (noteLate r s).hif = s.hif := by
  rcases noteLate_cases r s with h | h
  · rw [h]
  · rw [h, markLate, bump_hif, modRegion_hif]

theorem noteLate_count {r k : Nat} (other : k ≠ ck 511 16 r) (s : State) : (noteLate r s).count k = s.count k := by
  rcases noteLate_cases r s with h | h
  · rw [h]
  · rw [h, markLate, count_bump, if_neg other, modRegion_count]

/-- What the leak makes of a region at an instant (R504). -/
def leakRegion (now : Nat) (x : Region) : Region :=
  let y := match x.pending with
    | some (t, l) => { x with threshold := t, leak := l, pending := none }
    | none => x
  let b := y.bucket - y.leak
  { y with bucket := b, leakAt := now, latched := y.latched && decide (b > y.threshold * 500) }

/-- The state in which a region's leak falls: its instant reached, a late lap counted. -/
def leakInstant (r : Nat) (s : State) : State := noteLate r (passTo (((regionOf s r).leakAt / ms 1 + 1) * ms 1) s)

/-- A region's leak. -/
def leakBucket (r : Nat) (s : State) : State :=
  modRegion r (leakRegion (leakInstant r s).now) (leakInstant r s)

theorem execEccBucketLeak_eq (r : Fin 15) (s : State) : exec (.eccBucketLeak r) s = .next (leakBucket r s) := rfl

theorem regionOf_leakInstant_other {r q : Nat} (other : q ≠ r) (s : State) :
    regionOf (leakInstant r s) q = regionOf s q := by
  unfold leakInstant
  rcases noteLate_cases r (passTo (((regionOf s r).leakAt / ms 1 + 1) * ms 1) s) with h | h
  · rw [h, regionOf_passTo]
  · rw [h, regionOf_markLate, if_neg other, regionOf_passTo]

/-- What of a region the leak's instant leaves as it was: all but the late mark. -/
theorem regionOf_leakInstant (r : Nat) (s : State) :
    (regionOf (leakInstant r s) r).pending = (regionOf s r).pending
      ∧ (regionOf (leakInstant r s) r).bucket = (regionOf s r).bucket
      ∧ (regionOf (leakInstant r s) r).leak = (regionOf s r).leak
      ∧ (regionOf (leakInstant r s) r).threshold = (regionOf s r).threshold := by
  unfold leakInstant
  rcases noteLate_cases r (passTo (((regionOf s r).leakAt / ms 1 + 1) * ms 1) s) with h | h
  · rw [h, regionOf_passTo]
    exact ⟨rfl, rfl, rfl, rfl⟩
  · rw [h, regionOf_markLate, if_pos rfl, regionOf_passTo]
    exact ⟨rfl, rfl, rfl, rfl⟩

theorem leakRegion_leaks {x : Region} (now : Nat) (none_ : x.pending = none) :
    (leakRegion now x).bucket = x.bucket - x.leak ∧ (leakRegion now x).threshold = x.threshold := by
  unfold leakRegion
  rw [none_]
  exact ⟨rfl, rfl⟩

theorem leakRegion_applies {x : Region} {th lk : Nat} (now : Nat) (waits : x.pending = some (th, lk)) :
    (leakRegion now x).threshold = th ∧ (leakRegion now x).leak = lk ∧ (leakRegion now x).pending = none
      ∧ (leakRegion now x).bucket = x.bucket - lk := by
  unfold leakRegion
  rw [waits]
  exact ⟨rfl, rfl, rfl, rfl⟩

theorem leakRegion_leakAt (now : Nat) (x : Region) : (leakRegion now x).leakAt = now := rfl

theorem regionOf_leakBucket (r : Nat) (s : State) :
    regionOf (leakBucket r s) r = leakRegion (leakInstant r s).now (regionOf (leakInstant r s) r) := by
  rw [leakBucket, regionOf_modRegion, if_pos rfl]

theorem regionOf_leakBucket_other {r q : Nat} (other : q ≠ r) (s : State) :
    regionOf (leakBucket r s) q = regionOf s q := by
  rw [leakBucket, regionOf_modRegion, if_neg other, regionOf_leakInstant_other other]

theorem leakBucket_now (r : Nat) (s : State) : (leakBucket r s).now = (leakInstant r s).now := by
  rw [leakBucket, modRegion_now]

theorem leakBucket_hif (r : Nat) (s : State) : (leakBucket r s).hif = s.hif := by
  rw [leakBucket, modRegion_hif, leakInstant, noteLate_hif, passTo_hif]

theorem leakBucket_count {r k : Nat} (other : k ≠ ck 511 16 r) (s : State) :
    (leakBucket r s).count k = s.count k := by
  rw [leakBucket, modRegion_count, leakInstant, noteLate_count other, passTo_count]

theorem leakBucket_leaks {r : Nat} {s : State} (none_ : (regionOf s r).pending = none) :
    (regionOf (leakBucket r s) r).bucket = (regionOf s r).bucket - (regionOf s r).leak
      ∧ (regionOf (leakBucket r s) r).threshold = (regionOf s r).threshold
      ∧ (regionOf (leakBucket r s) r).leakAt = (leakBucket r s).now := by
  obtain ⟨pending, bucket, leak, threshold⟩ := regionOf_leakInstant r s
  obtain ⟨leaks, keeps⟩ := leakRegion_leaks (leakInstant r s).now (pending.trans none_)
  rw [regionOf_leakBucket, leakBucket_now, leaks, keeps, bucket, leak, threshold, leakRegion_leakAt]
  exact ⟨rfl, rfl, rfl⟩

theorem leakBucket_applies {r th lk : Nat} {s : State} (waits : (regionOf s r).pending = some (th, lk)) :
    (regionOf (leakBucket r s) r).threshold = th ∧ (regionOf (leakBucket r s) r).leak = lk
      ∧ (regionOf (leakBucket r s) r).pending = none
      ∧ (regionOf (leakBucket r s) r).bucket = (regionOf s r).bucket - lk := by
  obtain ⟨pending, bucket, -, -⟩ := regionOf_leakInstant r s
  rw [regionOf_leakBucket, ← bucket]
  exact leakRegion_applies _ (pending.trans waits)

theorem execEccFilterExpiry_found {r : Fin 15} {a : Nat} {e : FilterEntry} {s : State}
    (found : (tget [] (settleBacks s).mem.filters (controllerOf r a)).find?
      (fun f => f.region == r.val && f.addr == a) = some e) :
    exec (.eccFilterExpiry r a) s = .next (setFilter (controllerOf r a)
      ((tget [] (settleBacks s).mem.filters (controllerOf r a)).filter
        (fun f => !(f.region == r.val && f.addr == a)))
      (passTo (e.last + ms 1) (settleBacks s))) := by
  change execEccFilterExpiry r a s = _
  unfold execEccFilterExpiry
  dsimp only
  rw [found]

/-! ### Merge buffers (R501 to R503) -/

section Writes

variable {c : Nat} {w : MergeWrite} {s : State} (fits : writeFits c (regionOfCtl c w.region) w.addr = true)
include fits

/-- A whole word for which no entry stands is written at once, and supersedes its write-back (R501, R499). -/
theorem takeWrite_whole
    (whole : w.mask.toNat % 2 ^ wordBytes (regionOfCtl c w.region) = 2 ^ wordBytes (regionOfCtl c w.region) - 1)
    (apart : (mergeOf s c).find? (fun e => e.holds (regionOfCtl c w.region) w.addr) = none) :
    takeWrite c w s = supersede (regionOfCtl c w.region) w.addr (goodWord (regionOfCtl c w.region) w.addr
      { s with mem := { s.mem with
        words := tset none s.mem.words (wordKey (regionOfCtl c w.region) w.addr) (some w.data) } }) := by
  unfold takeWrite
  dsimp only
  rw [fits, apart]
  dsimp only
  rw [if_neg (by decide), if_pos (beq_iff_eq.mpr whole)]

/-- A narrow write for which no entry stands allocates one. -/
theorem takeWrite_allocates
    (narrow : ¬ w.mask.toNat % 2 ^ wordBytes (regionOfCtl c w.region) = 2 ^ wordBytes (regionOfCtl c w.region) - 1)
    (apart : (mergeOf s c).find? (fun e => e.holds (regionOfCtl c w.region) w.addr) = none) :
    takeWrite c w s = allocateEntry c (regionOfCtl c w.region) w (bump (ck 511 10 (regionOfCtl c w.region)) 1 s) := by
  unfold takeWrite
  dsimp only
  rw [fits, apart]
  dsimp only
  rw [if_neg (by decide), if_neg (fun h => narrow (beq_iff_eq.mp h))]

/-- A narrow write joins the entry of its word, which retires once its mask covers the word. -/
theorem takeWrite_joins {e : MergeEntry}
    (narrow : ¬ w.mask.toNat % 2 ^ wordBytes (regionOfCtl c w.region) = 2 ^ wordBytes (regionOfCtl c w.region) - 1)
    (held : (mergeOf s c).find? (fun e => e.holds (regionOfCtl c w.region) w.addr) = some e) :
    takeWrite c w s = if (joinEntry w s.now e).whole
      then retireEntry c (joinEntry w s.now e) (bump (ck 511 10 (regionOfCtl c w.region)) 1 s)
      else setMerge c ((mergeOf (bump (ck 511 10 (regionOfCtl c w.region)) 1 s) c).map
        (fun x => if x.holds (regionOfCtl c w.region) w.addr then joinEntry w s.now e else x))
        (bump (ck 511 10 (regionOfCtl c w.region)) 1 s) := by
  unfold takeWrite
  dsimp only
  rw [fits, held]
  dsimp only
  rw [if_neg (by decide), if_neg (fun h => narrow (beq_iff_eq.mp h))]

end Writes

theorem execMergeRetire_idle {c : Fin 25} {e : MergeEntry} {s : State} (only : mergeOf s c = [e]) :
    exec (.mergeRetire c .timeout []) s = .next (retireEntry c e (passTo (e.at_ + mergeIdle s c) s)) := by
  change Host.Outcome.next (execCause c .timeout s) = _
  unfold execCause
  dsimp only
  rw [only]
  rfl

theorem execMergeRetire_read {c : Fin 25} {r : Fin 15} {a : Nat} {e : MergeEntry} {s : State}
    (held : (mergeOf s c).find? (fun e => e.holds (regionOfCtl c r) a) = some e) :
    exec (.mergeRetire c (.sameWordRead r a) []) s
      = .next (emit (.merged e.region e.addr (mergedData e s).1) (retireEntry c e s)) := by
  change Host.Outcome.next (execCause c (.sameWordRead r a) s) = _
  unfold execCause
  dsimp only
  rw [held]

/-! ### Restoration (R507 to R510) -/

/-- The bank group of a word, where it has been zero-filled. -/
theorem filledBank_of_kept {r a : Nat} {s : State}
    (kept : ∀ g, bankOfWord r a = some g → (bankOf s g).zeroed = false) :
    (bankOfWord r a).filter (fun g => (bankOf s g).zeroed) = none := by
  cases h : bankOfWord r a with
  | none => rfl
  | some g => exact if_neg (by simp only [kept g h, Bool.false_eq_true, not_false_eq_true])

theorem filledBank_of_zeroed {r a g : Nat} {s : State} (bank : bankOfWord r a = some g)
    (zeroed : (bankOf s g).zeroed = true) : (bankOfWord r a).filter (fun g => (bankOf s g).zeroed) = some g := by
  rw [bank]
  exact if_pos zeroed

theorem execRestoration_item {r : Fin 15} {a : Nat} {e : LostItem} {s : State}
    (kept : ∀ g, bankOfWord r a = some g → (bankOf s g).zeroed = false)
    (lost : s.mem.lost.find? (fun e => e.region == r.val && e.addr == a) = some e) (ok : Bool) :
    exec (.restoration r a ok) s = if s.dev.state = .safe then .next s
      else if (!ok) = true then .next (failRestore e (retireHeld r a (wakeForWord r a s)))
      else .next (bump (ck 511 7 r) 1 (restoredItem e (supersede r a (goodWord r a
        (recover (fun x => x.region == r.val && x.addr == a) (retireHeld r a (wakeForWord r a s))))))) := by
  change execRestoration r a ok s = _
  unfold execRestoration
  dsimp only
  rw [filledBank_of_kept kept, lost]

theorem execRestoration_bank {r : Fin 15} {a g : Nat} {s : State} (bank : bankOfWord r a = some g)
    (zeroed : (bankOf s g).zeroed = true) (ok : Bool) :
    exec (.restoration r a ok) s
      = if s.dev.state = .safe then .next s else .next (restoreBank g (wakeForWord r a s)) := by
  change execRestoration r a ok s = _
  unfold execRestoration
  dsimp only
  rw [filledBank_of_zeroed bank zeroed]

/-- Settles O58: each clause is the lemma above about its row, by the branch that its premises name. -/
theorem memoryIsScrubbed : Obligations.MemoryIsScrubbed := by
  unfold Obligations.MemoryIsScrubbed
  refine ⟨?_, ?_, ?_, ?_, ?_, ?_, ?_, ?_, ?_, ?_, ?_, ?_, ?_⟩
  · intro r a v s other aligned inside readable t
    have read := execScrubRead_read aligned inside v other readable
    exact ⟨fun held => read.trans (if_pos held),
      fun free => read.trans (if_neg (by rw [free]; exact Bool.false_ne_true))⟩
  · exact fun r a v s aligned inside =>
      ⟨execScrubRead_byUser aligned inside v, execScrubRead_unread aligned inside v⟩
  · exact fun r a v s => ⟨fun poisoned => decideWord_of_poisoned (verdictOf_of_poisoned v poisoned),
      fun sound => ⟨decideWord_of_clean (verdictOf_of_sound _ sound),
        decideWord_of_correctable (verdictOf_of_sound _ sound),
        decideWord_of_uncorrectable (verdictOf_of_sound _ sound)⟩⟩
  · intro r s none_
    obtain ⟨bucket, threshold, leakAt⟩ := leakBucket_leaks none_
    exact ⟨leakBucket r s, execEccBucketLeak_eq r s, bucket, threshold, leakAt,
      fun q other => regionOf_leakBucket_other (fun h => other (Fin.ext h)) s, leakBucket_hif r s,
      fun k other => leakBucket_count other s⟩
  · exact fun r th lk s waits => ⟨leakBucket r s, execEccBucketLeak_eq r s, leakBucket_applies waits⟩
  · intro r a e s t c same found
    exact execEccFilterExpiry_found found
  · exact fun c l why s => rfl
  · intro c w s r whole fits
    exact ⟨takeWrite_whole fits, takeWrite_allocates fits, fun e => takeWrite_joins fits⟩
  · exact fun c e s => rfl
  · exact fun c e s only => execMergeRetire_idle only
  · exact fun c r a e s held => execMergeRetire_read held
  · intro r a e s kept lost t
    have item := execRestoration_item kept lost
    exact ⟨fun safe ok => (item ok).trans (if_pos safe), fun up => (item false).trans (if_neg up),
      fun up => (item true).trans (if_neg up)⟩
  · intro r a g ok s bank zeroed
    have whole := execRestoration_bank bank zeroed ok
    exact ⟨fun safe => whole.trans (if_pos safe), fun up => whole.trans (if_neg up)⟩

end Sys2Proof.Machine
end


section
/-! PROOFS. The audit, IPFIX records, dumps and Knarrasar's background work (R412, R518 to R544, R556, R559, R561). -/

namespace Sys2Proof.Machine

open Sys2Proof

/-! ### What an audit point's work leaves alone: the point it stands at -/

/-- The audit point last taken. -/
def auditMark (s : State) : Option Nat := s.obs.auditAt

theorem auditAt_eq (s : State) : s.obs.auditAt = auditMark s := rfl

theorem auditMark_of_obs {s t : State} (h : t.obs = s.obs) : auditMark t = auditMark s := congrArg Obs.auditAt h

theorem auditMark_foldl {α : Type} (f : State → α → State) (h : ∀ t a, auditMark (f t a) = auditMark t)
    (l : List α) (s : State) : auditMark (l.foldl f s) = auditMark s := by
  induction l generalizing s with
  | nil => rfl
  | cons a l ih => exact (ih _).trans (h _ _)

theorem auditMark_forEach {f : Nat → State → State} (h : ∀ i t, auditMark (f i t) = auditMark t)
    (l : List Nat) (s : State) : auditMark (forEach l f s) = auditMark s :=
  auditMark_foldl _ (fun t i => h i t) l s

theorem auditMark_ite {c : Prop} [Decidable c] {s t u : State} (ht : auditMark t = auditMark s)
    (hu : auditMark u = auditMark s) : auditMark (if c then t else u) = auditMark s := by
  split
  · exact ht
  · exact hu

theorem auditMark_bump (k n : Nat) (s : State) : auditMark (bump k n s) = auditMark s := rfl

theorem auditMark_setCount (k n : Nat) (s : State) : auditMark (setCount k n s) = auditMark s := rfl

theorem auditMark_modLane (l : Nat) (f : Lane → Lane) (s : State) : auditMark (modLane l f s) = auditMark s := rfl

theorem auditMark_takeFree (s : State) : auditMark (takeFree s).2 = auditMark s := rfl

theorem causeVec_obs (v : Nat) (s : State) : (causeVec v s).obs = s.obs := by
  have fired (t : State) : (fireVec v t).obs = t.obs := by
    simp only [fireVec]
    split <;> rfl
  simp only [causeVec]
  split
  · exact fired s
  · split
    · exact fired _
    · rfl

theorem backlogEvent_obs (e : Event) (s : State) : (backlogEvent e s).obs = s.obs := by
  unfold backlogEvent
  split
  · rfl
  · split
    · split <;> rfl
    · rfl

theorem auditMark_raise (typ : Nat) (urgent : Bool) (index : Nat) (payload : Bytes) (s : State) :
    auditMark (raise typ urgent index payload s) = auditMark s := by
  apply auditMark_of_obs
  rw [raise_eq]
  split
  · exact causeVec_obs ..
  · exact backlogEvent_obs ..

/-- A quantity's record after a point (R538). -/
theorem auditMark_recordQuantity (q : Nat) (x : Nat × Nat × Int) (s : State) :
    auditMark (recordQuantity q x s) = auditMark s := by
  unfold recordQuantity
  dsimp only
  refine auditMark_ite rfl (auditMark_ite rfl (auditMark_ite ?_ rfl))
  rw [auditMark_raise]
  rfl

theorem auditMark_settleBooks (s : State) : auditMark (settleBooks s) = auditMark s := by
  unfold settleBooks
  dsimp only
  have cleared (t : State) : auditMark { t with obs := { t.obs with rebase := [] } } = auditMark t := rfl
  rw [cleared, auditMark_foldl]
  · refine auditMark_ite ?_ rfl
    rw [auditMark_foldl]
    · rfl
    · intro t e
      exact auditMark_setCount ..
  · intro t e
    rfl

/-! ### The work of a dump instant (R520, R523) -/

theorem auditMark_countPaused (p c : Nat) (s : State) : auditMark (countPaused p c s) = auditMark s := by
  unfold countPaused
  exact auditMark_ite rfl rfl

theorem auditMark_settleInject (l : Nat) (s : State) : auditMark (settleInject l s) = auditMark s := by
  unfold settleInject
  exact auditMark_ite rfl rfl

theorem auditMark_settleChecker (l : Nat) (s : State) : auditMark (settleChecker l s) = auditMark s := by
  unfold settleChecker
  dsimp only
  rw [← auditMark_settleInject l s]
  generalize settleInject l s = u
  exact auditMark_ite (auditMark_ite rfl rfl) rfl

theorem auditMark_compensateIdle (l : Nat) (s : State) : auditMark (compensateIdle l s) = auditMark s := by
  unfold compensateIdle
  exact auditMark_ite rfl rfl

theorem auditMark_countCoding (p : Nat) (s : State) : auditMark (countCoding p s) = auditMark s := by
  unfold countCoding
  dsimp only
  refine auditMark_forEach ?_ _ s
  intro r t
  rw [auditMark_bump, auditMark_takeFree]

theorem auditMark_setObsCounter (i k : Nat) (c : ObsCounter) (s : State) :
    auditMark (setObsCounter i k c s) = auditMark s := rfl

theorem auditMark_countCycles (i : Nat) (s : State) : auditMark (countCycles i s) = auditMark s := by
  unfold countCycles
  exact auditMark_ite rfl rfl

theorem auditMark_settleIdle (i : Nat) (s : State) : auditMark (settleIdle i s) = auditMark s := by
  unfold settleIdle
  exact auditMark_ite (auditMark_forEach (fun _ t => auditMark_compensateIdle _ t) _ s) rfl

theorem auditMark_latchGroup (i : Nat) (s : State) : auditMark (latchGroup i s) = auditMark s := by
  unfold latchGroup
  dsimp only
  rw [auditMark_forEach, auditMark_countCycles, auditMark_settleIdle]
  intro k t
  rw [auditMark_setObsCounter, auditMark_takeFree]

/-- What stands when a dump's counters are latched: every time and count that runs is brought up to date (R520). -/
def latchCounts (s : State) : State :=
  forEach (List.range 44) latchGroup (forEach (List.range 16) countCoding
    (forEach (List.range 21) (fun l s => compensateIdle l (settleChecker l s))
      (forEach (List.range 128) (fun i s => countPaused (i / 8) (i % 8) s) s)))

theorem auditMark_latchCounts (s : State) : auditMark (latchCounts s) = auditMark s := by
  unfold latchCounts
  rw [auditMark_forEach auditMark_latchGroup, auditMark_forEach auditMark_countCoding, auditMark_forEach,
    auditMark_forEach (fun i t => auditMark_countPaused _ _ t)]
  intro l t
  rw [auditMark_compensateIdle, auditMark_settleChecker]

theorem auditMark_latchDump (gen : Nat) (s : State) : auditMark (latchDump gen s) = auditMark s := by
  rw [← auditMark_latchCounts s]
  unfold latchDump
  dsimp only
  rw [← latchCounts]
  generalize latchCounts s = u
  have begun (t : State) (j : Option DumpJob) : auditMark { t with obs := { t.obs with
    dumpWriting := j, dumpSkipped := 0, dumpLost := false, dumpZeroed := false, samples := [], traces := [] } }
      = auditMark t := rfl
  rw [begun]
  exact auditMark_ite (auditMark_bump ..) rfl

theorem auditMark_dumpInstant (s : State) : auditMark (dumpInstant s) = auditMark s := by
  unfold dumpInstant
  dsimp only
  split
  · rfl
  · exact auditMark_latchDump _ _

/-- The state in which a point's balances are judged: the clock has reached the point, and the flight is latched
(R518). -/
def reachPoint (s : State) : State :=
  let s1 := passMain (nextPoint s * msUnits) s
  latchFlight { s1 with obs := { s1.obs with auditAt := some (nextPoint s) } }

theorem auditMark_latchFlight (s : State) : auditMark (latchFlight s) = auditMark s := rfl

theorem auditMark_reachPoint (s : State) : auditMark (reachPoint s) = some (nextPoint s) := by
  unfold reachPoint
  dsimp only
  rw [auditMark_latchFlight]
  rfl

/-- The balances recorded at a point, and the books settled (R537, R538). -/
def recordPoint (s : State) : State :=
  ((List.range 51).map (fun q => (q, judgeQuantity s q))).foldl (fun s e => recordQuantity e.1 e.2 s) (settleBooks s)

theorem auditMark_recordPoint (s : State) : auditMark (recordPoint s) = auditMark s := by
  unfold recordPoint
  rw [auditMark_foldl, auditMark_settleBooks]
  intro t e
  exact auditMark_recordQuantity ..

/-- The end of a point: the dump whose instant it is begins (R523). -/
def dumpPoint (point : Nat) (s : State) : State :=
  if s.obs.dumpPeriod ≠ 0 ∧ point % s.obs.dumpPeriod = 0 then dumpInstant s else s

theorem auditMark_dumpPoint (point : Nat) (s : State) : auditMark (dumpPoint point s) = auditMark s := by
  unfold dumpPoint
  exact auditMark_ite (auditMark_dumpInstant s) rfl

theorem execAuditPoint_runs {s : State} (runs : auditRuns s = true) :
    exec .auditPoint s = .next (dumpPoint (nextPoint s) (recordPoint (reachPoint s))) := by
  change execAuditPoint () s = _
  unfold execAuditPoint
  rw [if_neg (by rw [runs]; decide)]
  unfold dumpPoint recordPoint reachPoint
  rfl

/-- AUDIT_POINT takes the next whole millisecond as its point (R518). -/
theorem execAuditPoint_marks {s : State} (runs : auditRuns s = true) :
    ∃ t, exec .auditPoint s = .next t ∧ t.obs.auditAt = some (nextPoint s) := by
  refine ⟨_, execAuditPoint_runs runs, ?_⟩
  rw [auditAt_eq, auditMark_dumpPoint, auditMark_recordPoint, auditMark_reachPoint]

/-! ### Templates, the collector and IPFIX records (R540 to R544) -/

theorem execIpfixTemplate_due {at_ : Nat} {s : State} (sent : s.obs.ipfix.templateAt = some at_)
    (runs : exportRuns s = true) :
    exec .ipfixTemplate s = .next (sendTemplates (passTo (at_ + us 600000000) s)) := by
  change execIpfixTemplate s = _
  unfold execIpfixTemplate
  rw [sent]
  dsimp only
  rw [if_pos runs]

theorem execIpfixTemplate_first {s : State} (unsent : s.obs.ipfix.templateAt = none) :
    exec .ipfixTemplate s = .next (sendTemplates s) := by
  change execIpfixTemplate s = _
  unfold execIpfixTemplate
  rw [unsent]

theorem endResolve_found {s : State} (soon : s.now ≤ s.obs.ipfix.resolveAt + us 3000000) :
    endResolve true s = sendHeld (modIpfix (fun x => { x with resolved := true }) s) := by
  unfold endResolve
  rw [if_pos (by rw [decide_eq_true soon]; rfl)]

theorem endResolve_missed (s : State) : endResolve false s = discardHeld
    (modIpfix (fun x => { x with failed := true }) (passTo (s.obs.ipfix.resolveAt + us 3000000) s)) := by
  unfold endResolve
  rw [if_neg (by rw [Bool.false_and]; exact Bool.false_ne_true)]

section Resolving

variable {s : State} (runs : exportRuns s = true)
include runs

theorem execCollectorResolve_eq (b : Bool) : exec (.collectorResolve b) s
    = if s.obs.ipfix.resolved then .next (sendHeld s)
      else if !s.obs.ipfix.asked then .next (startResolve s)
      else if s.obs.ipfix.failed then .next (startResolve (passTo (s.obs.ipfix.resolveAt + us 10000000) s))
      else .next (endResolve b s) := by
  change execCollectorResolve b s = _
  unfold execCollectorResolve
  rw [if_neg (by rw [runs]; decide)]

theorem execCollectorResolve_resolved (b : Bool) (resolved : s.obs.ipfix.resolved = true) :
    exec (.collectorResolve b) s = .next (sendHeld s) := by
  rw [execCollectorResolve_eq runs, if_pos resolved]

variable (unresolved : s.obs.ipfix.resolved = false)
include unresolved

theorem execCollectorResolve_starts (b : Bool) (unasked : s.obs.ipfix.asked = false) :
    exec (.collectorResolve b) s = .next (startResolve s) := by
  rw [execCollectorResolve_eq runs, unresolved, unasked]
  rfl

variable (asked : s.obs.ipfix.asked = true)
include asked

theorem execCollectorResolve_ends (b : Bool) (tried : s.obs.ipfix.failed = false) :
    exec (.collectorResolve b) s = .next (endResolve b s) := by
  rw [execCollectorResolve_eq runs, unresolved, asked, tried]
  rfl

theorem execCollectorResolve_repeats (b : Bool) (failed : s.obs.ipfix.failed = true) :
    exec (.collectorResolve b) s
      = .next (startResolve (passTo (s.obs.ipfix.resolveAt + us 10000000) s)) := by
  rw [execCollectorResolve_eq runs, unresolved, asked, failed]
  rfl

end Resolving

/-- The state in which a stream's timeout is judged: its counters read, the timeout reached, and read again (R542). -/
def atTimeout (k reason pkts bytes : Nat) (s : State) : State :=
  accumulate k pkts bytes (passTimeout k reason (accumulate k pkts bytes s))

theorem execIpfixRecord_entry {w : Fin 4} {i : Nat} {x : EmEntry} {s : State} (inside : i < 131072)
    (held : emAt s (w.val * 131072 + i) = some x) (why : Byte) :
    exec (.ipfixRecord (.exactMatch w i) why) s
      = if (exports (atTimeout (emStream x.profile x.key) why.toNat x.pkts.toNat x.bytes.toNat s) 256
          && recordDue (atTimeout (emStream x.profile x.key) why.toNat x.pkts.toNat x.bytes.toNat s)
            (streamOf (atTimeout (emStream x.profile x.key) why.toNat x.pkts.toNat x.bytes.toNat s)
              (emStream x.profile x.key)) why.toNat) = true
        then .next (exportEntry w i why.toNat x
          (atTimeout (emStream x.profile x.key) why.toNat x.pkts.toNat x.bytes.toNat s))
        else .next s := by
  change execIpfixRecord (.exactMatch w i) why s = _
  unfold execIpfixRecord
  dsimp only
  rw [if_pos inside, held]
  rfl

theorem execIpfixRecord_rule {i : Nat} {r : Rule} {s : State} (held : tget none s.cls.rules i = some r)
    (why : Byte) :
    exec (.ipfixRecord (.rule i) why) s
      = if (exports (atTimeout (ruleStream i) why.toNat r.pkts.toNat r.bytes.toNat s) 257
          && recordDue (atTimeout (ruleStream i) why.toNat r.pkts.toNat r.bytes.toNat s)
            (streamOf (atTimeout (ruleStream i) why.toNat r.pkts.toNat r.bytes.toNat s) (ruleStream i))
            why.toNat) = true
        then .next (orDefer (exportRule i why.toNat r)
          (atTimeout (ruleStream i) why.toNat r.pkts.toNat r.bytes.toNat s))
        else .next s := by
  change execIpfixRecord (.rule i) why s = _
  unfold execIpfixRecord
  dsimp only
  rw [held]
  rfl

theorem execCounterAccumulation_runs {s : State} (runs : servicesRun s = true ∨ s.dev.state = .safe) :
    exec .counterAccumulation s = .next (s.tab.em.foldl (fun s e => match e.2 with
      | some x => accumulate (emStream x.profile x.key) x.pkts.toNat x.bytes.toNat s
      | none => s) s) := by
  change execCounterAccumulation s = _
  unfold execCounterAccumulation
  refine if_pos (Bool.or_eq_true_iff.mpr ?_)
  exact runs.imp id beq_iff_eq.mpr

/-! ### Dumps and Knarrasar's background work (R412, R527, R556, R559) -/

theorem execDumpDone_device {j : DumpJob} {s : State} (writing : s.obs.dumpWriting = some j)
    (own : j.host = false) :
    exec .dumpDone s = .next (exportDump j (raise 0x0B02 false 0xFF (leBytes 4 j.gen)
      (bump (ck 545 3 0) 1 (ownEvent 42 1 (j.bytes.length / 8) { s with
        obs := { s.obs with
          dumpWriting := none, dumps := tset [] s.obs.dumps (j.gen % 16) j.bytes
          damaged := s.obs.damaged.filter (· != j.gen % 16) }
        hif := { s.hif with dumpGen := BitVec.ofNat 32 j.gen } })))) := by
  change execDumpDone s = _
  unfold execDumpDone
  rw [writing]
  dsimp only
  rw [own, Bool.false_and, if_neg Bool.false_ne_true, if_neg Bool.false_ne_true]

theorem execCheckpoint_eq {s : State} (loaded : afterLoading s = true) : exec .checkpoint s
    = .next (writeCheckpoint (if s.mnt.checkDue then s else passTo (s.mnt.checkAt + ms 30000) s)) := by
  change execCheckpoint s = _
  unfold execCheckpoint
  rw [if_pos loaded]

/-- What ends the background command of a mailbox, by the result that Knarrasar reports. -/
def concludeBackground (r : Running) (res : BgResult) (s : State) : State :=
  match res with
  | .flash image => if r.opcode = 0x0D02 then endFlashWrite r image s else s
  | .selfTest l =>
    if r.opcode = 0x0D04 then conclude r.mbx stOk false false (fit (popCount 32 (le r.args 0 4)) l) s else s
  | .replay d => if r.opcode = 0x0D05 then conclude r.mbx stOk false false (leBytes 8 d.toNat) s else s
  | .internal => conclude r.mbx stInternal (undoes r) false [] s

theorem execBackgroundCommandDone_runs {n : Fin 16} {r : Running} {s : State}
    (runs : s.hif.running.find? (fun r => r.mbx == n.val && r.background) = some r) (res : BgResult) :
    exec (.backgroundCommandDone n res) s = .next (concludeBackground r res s) := by
  change execBackgroundCommandDone n res s = _
  unfold execBackgroundCommandDone
  rw [runs]
  dsimp only
  cases res <;> rfl

/-- Settles O59: each clause is the lemma above about its row, by the branch that its premises name. -/
theorem observabilityEventsAct : Obligations.ObservabilityEventsAct := by
  unfold Obligations.ObservabilityEventsAct
  refine ⟨?_, ?_, ?_, ?_, ?_, ?_, ?_, ?_, ?_, ?_, ?_⟩
  · exact fun s runs => execAuditPoint_marks runs
  · exact fun at_ s sent runs => execIpfixTemplate_due sent runs
  · exact fun s unsent => execIpfixTemplate_first unsent
  · exact fun b s runs => ⟨execCollectorResolve_resolved runs b,
      fun unresolved => execCollectorResolve_starts runs unresolved b⟩
  · intro s runs unresolved asked at_
    have ends := execCollectorResolve_ends runs unresolved asked
    exact ⟨fun tried soon => (ends true tried).trans (congrArg Host.Outcome.next (endResolve_found soon)),
      fun tried => (ends false tried).trans (congrArg Host.Outcome.next (endResolve_missed s)),
      fun failed b => execCollectorResolve_repeats runs unresolved asked b failed⟩
  · intro w i why x s inside held k read t
    have record := execIpfixRecord_entry inside held why
    exact ⟨fun sends due => record.trans (if_pos (Bool.and_eq_true_iff.mpr ⟨sends, due⟩)),
      fun none_ => record.trans (if_neg (Bool.eq_false_iff.mp none_))⟩
  · intro i why r s held read t
    have record := execIpfixRecord_rule held why
    exact ⟨fun sends due => record.trans (if_pos (Bool.and_eq_true_iff.mpr ⟨sends, due⟩)),
      fun none_ => record.trans (if_neg (Bool.eq_false_iff.mp none_))⟩
  · exact fun s runs => execCounterAccumulation_runs runs
  · intro j s writing own t
    exact execDumpDone_device writing own
  · intro s loaded
    have writes := execCheckpoint_eq loaded
    exact ⟨fun due => by rw [writes, if_pos due], fun waits => by rw [writes, waits, if_neg Bool.false_ne_true]⟩
  · intro n r s runs
    have done_ := execBackgroundCommandDone_runs runs
    exact ⟨fun img flash => (done_ (.flash img)).trans (congrArg Host.Outcome.next (if_pos flash)),
      fun l test => (done_ (.selfTest l)).trans (congrArg Host.Outcome.next (if_pos test)),
      fun d replay => (done_ (.replay d)).trans (congrArg Host.Outcome.next (if_pos replay)),
      done_ .internal⟩

end Sys2Proof.Machine
end
